-- ==== Sys2Proof/Word.lean ====
section
/-! DEFINITION. The word types of the CX-40: registers are 32 bits wide (R7), memory is little-endian bytes
(notation chapter of 00_scope.md). -/

namespace Sys2Proof

/-- A set-up register (R7). -/
abbrev Word32 := BitVec 32
/-- A 64-bit value: scalars, addresses, tags, device time. -/
abbrev Word64 := BitVec 64
/-- One byte of memory. -/
abbrev Byte := BitVec 8

/-- The two halves of the package (R13). -/
inductive Half where
  | west
  | east
  deriving DecidableEq, Repr

/-- The half on the other side of the bridge. -/
def Half.other : Half → Half
  | .west => .east
  | .east => .west

/-- 0 for west, 1 for east, as every HALF field codes it. -/
def Half.code : Half → Nat
  | .west => 0
  | .east => 1

/-- The half that a one-bit HALF field names. -/
def Half.ofCode (n : Nat) : Half := if n % 2 = 1 then .east else .west

/-- One value for each half. -/
structure Both (α : Type) where
  w : α
  e : α
  deriving DecidableEq, Repr

/-- The value of a half. -/
def Both.get {α : Type} (b : Both α) : Half → α
  | .west => b.w
  | .east => b.e

/-- Replaces the value of a half. -/
def Both.set {α : Type} (b : Both α) (h : Half) (x : α) : Both α :=
  match h with
  | .west => { b with w := x }
  | .east => { b with e := x }

end Sys2Proof
end

