-- ==== Sys2Proof/Syntax.lean ====
section
/-! DEFINITION. The commands of the CX-40, one constructor per row of spec/opcode_table.json, in the table's order.
A command that reports a timed event carries the device time `now` at which it happens; a node opcode and a node event
carry the instance (its admission sequence) and the node index; a facet instruction carries the facet (half * 160 +
row * 16 + column), and its fields are read from the word at the facet's program counter. -/

namespace Sys2Proof

/-- How a management request reaches a Secure Controller (R510, R515). -/
inductive MgmtPath where
  | i3c | pcie | mailbox
  deriving DecidableEq, Repr

/-- A management request: the half whose SC serves it, the path it came by, the SPDM session that protects it (0 for
none) and its TAG (R511, R521). -/
structure Request where
  half : Half
  path : MgmtPath
  session : Nat
  tag : Nat
  now : Nat
  deriving DecidableEq, Repr

/-- What a detector reports (R444, R453, R455). -/
inductive Report where
  /-- CORRECTED: the detector's own counter (its _LO offset in the half window, 0 for none), how many, and whether it is
  a single-bit correction in pool SRAM, a tile store or an accumulator. -/
  | corrected (counter : Nat) (n : Nat) (sram : Bool)
  /-- CONTAINED, with its status and the facet it was detected on. -/
  | contained (status : Nat) (facet : Option Nat)
  /-- JOB_FATAL against the attempt. -/
  | jobFatal (status : Nat)
  /-- DEVICE_FATAL with the CAUSE of R464; whether write-back still works. -/
  | deviceFatal (status cause : Nat) (writeBack : Bool)
  /-- A set-up register write of a function dropped for parity, at a BAR0 offset. -/
  | droppedWrite (fn offset : Nat)
  /-- A 64-byte block found uncorrectable by its controller, which poisons it. -/
  | uncorrectable (addr : Nat)
  /-- A received transaction at the front of a port's channel is found corrupted before it is applied (R365). -/
  | txnParity (port chan : Nat)
  /-- A released request is found corrupted at its source (R395). -/
  | releasedParity (dest seq : Nat)
  /-- A held request is lost to an uncorrectable error (R395). -/
  | heldLost (dest seq : Nat)
  /-- A parity error inside the CE on a tile of a group's operation (R416). -/
  | collParity (group index : Nat)
  /-- A register read meets parity on the set-up register network (R453). -/
  | droppedRead
  /-- A controller finds an interface error of a stack on the n-th attempt of one access, 1 to 5 (R454). -/
  | stackError (stack attempt : Nat)
  /-- Committed data of a job, a token context or a commit log of its is lost to an uncorrectable error at an address (R452). -/
  | jobData (job addr : Nat)
  deriving DecidableEq, Repr

/-- What of a function's configuration space a configuration request reads or writes (R275, R276). -/
inductive ConfigReg where
  | id             -- Vendor ID and Device ID
  | classRevision  -- Revision ID and Class Code
  | bar (n : Nat)  -- the sizing read of BAR n
  | payload        -- maximum payload size: code 0 to 2 for 128, 256 or 512 B
  | readRequest    -- maximum read request size: code 0 to 5 for 128 to 4,096 B
  | power          -- power state: 0 for D0, 3 for D3hot
  | numVfs         -- NumVFs of the SR-IOV capability
  deriving DecidableEq, Repr

/-- A configuration request to a function of a half's port: a read, or a write of a value (R275, R277). -/
structure ConfigRequest where
  half : Half
  fn : Nat
  reg : ConfigReg
  value : Option Nat
  deriving DecidableEq, Repr

/-- The host write that ended in error (R289, R306, R580). -/
inductive HostWrite where
  /-- A HOST write of an attempt of a command, by its instance and index. The report's job, node ID, tag and address are that
  command's; the other kinds have none. -/
  | command (inst node attempt : Nat)
  /-- A Completion Record or head write-back of a ring. -/
  | record (fn ring : Nat)
  /-- An Event Record or EVENT_LOST of a function's event ring. -/
  | event (fn : Nat)
  deriving DecidableEq, Repr

/-- What an SPDM session belongs to (R522, R523). -/
inductive SessionUse where
  | mgmt          -- a management path of one SC
  | link (port : Nat)
  | ide
  deriving DecidableEq, Repr

/-- What the header of a staged image, or a board configuration record, says (R530, R533). -/
structure StageInfo where
  digest : Nat         -- of the slot's contents
  version : Nat
  svn : Nat
  revision : Nat       -- Solbite revision
  raise : Bool         -- the header asks to raise the minimum SVN
  devId : Nat          -- a record's FAB_DEVICE_ID
  memClk : Nat         -- a record's mem clk, MHz
  portCfg : List Word32   -- a record's FAB_PORT_CFG of blocks 0 to 31
  deriving DecidableEq, Repr

/-- A command. -/
inductive Instr where
  /-- The board asserts PWR_GOOD once every rail is in range, and THERM_ALERT_N starts to act. (R490) -/
  | pwrGoodRise
  /-- PWR_GOOD falls; the device stops as under RESET_N and TOP_FATAL_STATUS is cleared. (R491) -/
  | pwrGoodFall
  /-- An assertion of RESET_N stops the device at once; no further record or event is written. (R491) -/
  | resetNAssert
  /-- Deassertion of RESET_N samples LEAD_PREF, starts device time at 0 and starts the SC boot. (R492) -/
  | resetNDeassert (pref : Half)
  /-- An SC finishes reading and verifying the active image, or the second slot, or stays in ROM recovery. (R495) -/
  | scBoot (half : Half) (now : Nat) (selfTestOk : Bool) (firstOk : Bool) (secondOk : Bool)
  /-- An ELECT message arrives over the bridge and the half decides the lead by the election table. (R496) -/
  | elect (half : Half) (now : Nat) (msg : List Byte)
  /-- No peer ELECT arrives within 200 ms, so the half sends LEAD_REQUEST TAKEOVER with term 0. (R496) -/
  | electionTimeout (half : Half) (now : Nat)
  /-- Stack training ends; a stack that fails twice stops the device DEVICE_FATAL with cause STACK_LOST. (R498) -/
  | stackTrainingDone (now : Nat) (up : BitVec 16)
  /-- Piccolo's baseline rotation ends, failing facets are retired, and READY is set. (R492) -/
  | baselineDone (now : Nat) (failed : List Nat)
  /-- A PCIe configuration request is answered with Retry Status until the port's configuration space is ready. (R277) -/
  | configurationRequest (req : ConfigRequest)
  /-- A port's PERST_N is deasserted; the port presents its functions within 1.0 s. (R277) -/
  | perstN (half : Half) (now : Nat) (deasserted : Bool)
  /-- The host sets VF Enable in the SR-IOV capability, which arms enabling of the VFs' doorbell pages. (R277) -/
  | vfEnable (now : Nat) (on : Bool)
  /-- The SC enables a function's doorbell pages within 1 ms of READY, of VF Enable, or of FLR completion. (R277) -/
  | doorbellEnable (fn : Nat) (now : Nat)
  /-- An FLR fences the function's pages, kills its uncommitted commands, resets its window and removes its jobs. (R281) -/
  | functionLevelReset (fn : Nat) (now : Nat)
  /-- A host read through BAR4 is checked as HOST_BAR4_JOB and returns data or Completer Abort. (R280) -/
  | bar4Read (fn : Nat) (off : Nat) (len : Nat)
  /-- A host write through BAR4 is checked and applied at once, or dropped and counted. (R280) -/
  | bar4Write (fn : Nat) (off : Nat) (data : List Byte)
  /-- A host read of a descriptor, node, successor list or operand completes in error and fails its command or descriptor with ACCESS_DENIED. (R306) -/
  | hostReadError (fn : Nat) (ring : Nat) (inst : Nat) (node : Nat) (descriptor : Bool) (now : Nat)
  /-- A HOST write ends in error and fails its command before step 3, or raises an ERROR event and the job-fatal step after it. (R580) -/
  | hostWriteError (target : HostWrite) (job : Nat) (nodeId : Nat) (tag : Nat) (addr : Nat) (now : Nat)
  /-- A write to the _LO of a 64-bit pair stores the value in the pair's holding register. (R8) -/
  | pairLoWrite (fn : Nat) (off : Nat) (value : Word32)
  /-- A write to the _HI of a pair commits both halves, using the live low word when the holding register is empty. (R552) -/
  | pairHiWrite (fn : Nat) (off : Nat) (value : Word32) (now : Nat)
  /-- A read of a pair's _LO returns the low word and captures the high word for that function. (R8) -/
  | pairLoRead (fn : Nat) (bar : Nat) (off : Nat) (size : Nat) (now : Nat)
  /-- A write to a set-up register without behaviour of its own is applied under its scope, access code and clamping rules. (R547) -/
  | registerWrite (fn : Nat) (off : Nat) (size : Nat) (value : Word32) (now : Nat)
  /-- A W1C write clears TOP_FATAL_STATUS.VALID. (R464) -/
  | topFatalStatusClear (fn : Nat) (win : Half) (value : Word32) (now : Nat)
  /-- A write to STRICT opens or cancels a mode change, which stops admission until no instance is in flight. (R429) -/
  | topDeviceModeWrite (fn : Nat) (win : Half) (value : Word32) (now : Nat)
  /-- Once no instance is in flight, ACTIVE takes the value of STRICT, and admission and arming resume. (R429) -/
  | modeChange (now : Nat)
  /-- A write to TOP_FACET_CLK sets each half's facet clk at once and writes a CLOCK_CHANGE event. (R517) -/
  | topFacetClkWrite (fn : Nat) (win : Half) (value : Word32) (now : Nat)
  /-- A write to TOP_THERM_CFG keeps out-of-range fields and is stored only when TRIP_C exceeds ALERT_C. (R520) -/
  | topThermCfgWrite (fn : Nat) (win : Half) (value : Word32) (now : Nat)
  /-- Any write to PRISM_CTX_HIGH sets HIGH to the current USED. (R98) -/
  | prismCtxHighWrite (fn : Nat) (win : Half) (value : Word32) (now : Nat)
  /-- A write empties one predictor slot of the half, or every slot. (R140) -/
  | efuPredClear (fn : Nat) (win : Half) (value : Word32) (now : Nat)
  /-- A write to EFU_RESIDENT_LIMIT sets the limit and at once evicts the resident copies that no longer fit. (R116) -/
  | efuResidentLimitWrite (fn : Nat) (win : Half) (value : Word32) (now : Nat)
  /-- A write to TGU_FACET_RETAIN sets the retained sectors, effective at each facet's next command, and evicts entries that no longer fit. (R191) -/
  | tguFacetRetainWrite (fn : Nat) (win : Half) (value : Word32) (now : Nat)
  /-- A write to TGU_LANE_SPLIT reassigns facets to lanes as each facet's running node ends. (R234) -/
  | tguLaneSplitWrite (fn : Nat) (win : Half) (value : Word32) (now : Nat)
  /-- A write to the _HI applies the training set-up of TGU_TRAIN_JOB, or refuses it as busy or invalid. (R220) -/
  | tguTrainTableHi (fn : Nat) (win : Half) (value : Word32) (now : Nat)
  /-- A write to the _HI applies the pool's SIZE and COUNT when every check passes, and reports the result. (R254) -/
  | bpmPoolCfgHi (fn : Nat) (win : Half) (pool : Nat) (value : Word32) (now : Nat)
  /-- A write to BPM_POOL_RESERVE is applied, or refused with REFUSED_RESERVE when the reserves would exceed COUNT. (R272) -/
  | bpmPoolReserveWrite (fn : Nat) (win : Half) (pool : Nat) (client : Nat) (value : Word32) (now : Nat)
  /-- A write of a new SQ_TAIL exposes descriptors, or halts the ring with DOORBELL_OVERRUN when it overruns. (R291) -/
  | hostDbSqTail (fn : Nat) (ring : Nat) (value : Word32) (now : Nat)
  /-- A write of a new CQ_HEAD frees CQ slots, or is ignored and counted when it is out of range. (R291) -/
  | hostDbCqHead (fn : Nat) (ring : Nat) (value : Word32)
  /-- A write to the _HI aborts every instance and descriptor of the page's ring that carries the tag. (R292) -/
  | hostDbAbortTagHi (fn : Nat) (ring : Nat) (lo : Option Word32) (value : Option Word32) (now : Nat)
  /-- A write of a new event-ring head frees event slots. (R291) -/
  | hostDbEvtHead (fn : Nat) (ring : Nat) (value : Word32) (now : Nat)
  /-- HOST_JOB_CTL CREATE makes a job resident with a key slot and seed, or refuses it. (R282) -/
  | create (fn : Nat) (now : Nat)
  /-- HOST_JOB_CTL REMOVE removes an idle job, releasing its buffers and key slot, or refuses it. (R282) -/
  | remove (fn : Nat) (now : Nat)
  /-- HOST_JOB_CTL FORCE_REMOVE aborts every instance and descriptor of the job, halts its rings and removes it. (R282) -/
  | forceRemove (fn : Nat) (now : Nat)
  /-- Writing ENABLE 1 to HOST_RING_CFG enables the ring with zero indices, or sets STATE to REFUSED. (R285) -/
  | ringEnable (fn : Nat) (ring : Nat) (value : Word32) (now : Nat)
  /-- Writing ENABLE 0 to HOST_RING_CFG stops admission and sets STATE to DRAINING. (R285) -/
  | ringDisable (fn : Nat) (ring : Nat) (value : Word32) (now : Nat)
  /-- A draining ring becomes DISABLED once every admitted instance has completed and its records are written. (R285) -/
  | ringDrained (fn : Nat) (ring : Nat)
  /-- Writing ENABLE 1 to HOST_EVT_CFG turns the event ring on, or leaves it off when the settings are invalid. (R289) -/
  | eventRingEnable (fn : Nat) (value : Word32) (now : Nat)
  /-- FAB_REMOTE_CTL ENABLE enables remote access of the job and lets waiting remote work run again. (R387) -/
  | fabRemoteEnable (fn : Nat) (win : Half) (now : Nat)
  /-- FAB_REMOTE_CTL DISABLE disables remote access of the job. (R387) -/
  | fabRemoteDisable (fn : Nat) (win : Half) (now : Nat)
  /-- FAB_REGION_CTL INSTALL adds a region entry and charges its span to T3 or T4 quota, or refuses it. (R369) -/
  | fabRegionInstall (fn : Nat) (win : Half) (now : Nat)
  /-- FAB_REGION_CTL REMOVE removes a region entry once no request through it is still being applied. (R369) -/
  | fabRegionRemove (fn : Nat) (win : Half) (now : Nat)
  /-- FAB_REGION_CTL LOOKUP loads the entry of the key in words 5 and 6 into the FAB_REGION_WORD registers. (R393) -/
  | fabRegionLookup (fn : Nat) (win : Half) (now : Nat)
  /-- A write to the _HI applies the route entry of FAB_ROUTE_DEST and clears VALID of the retained set-up. (R372) -/
  | fabRouteEntryHi (fn : Nat) (win : Half) (value : Word32) (now : Nat)
  /-- FAB_READER_CTL WRITE stores the selected reader-set member. (R377) -/
  | fabReaderWrite (fn : Nat) (win : Half) (now : Nat)
  /-- FAB_READER_CTL CLEAR clears the selected reader-set member. (R377) -/
  | fabReaderClear (fn : Nat) (win : Half) (now : Nat)
  /-- FAB_READER_CTL READ loads the selected member into the FAB_READER_WORD registers. (R393) -/
  | fabReaderRead (fn : Nat) (win : Half) (now : Nat)
  /-- A write to the _HI sets FAB_SETUP_HASH and sets VALID when non-zero, or clears VALID when zero. (R388) -/
  | fabSetupHashHi (fn : Nat) (win : Half) (value : Word32) (now : Nat)
  /-- A write to FAB_PORT_CFG changes a block's enable, bifurcation, encryption or preset when its ports allow it. (R349) -/
  | fabPortCfgWrite (fn : Nat) (win : Half) (block : Nat) (value : Word32) (now : Nat)
  /-- A write stores a member word at CE_MEMBER_INDEX and advances the index by one. (R397) -/
  | ceMemberDataWrite (fn : Nat) (win : Half) (value : Word32) (now : Nat)
  /-- CE_GROUP_CTL INSTALL makes a group entry VALID with COLL_SEQ 0, or refuses it. (R397) -/
  | ceGroupInstall (fn : Nat) (win : Half) (now : Nat)
  /-- CE_GROUP_CTL REFORM drops a member, raises the epoch and ends any operation in flight on the group. (R397) -/
  | ceGroupReform (fn : Nat) (win : Half) (now : Nat)
  /-- CE_GROUP_CTL REMOVE clears an idle group entry and its members. (R397) -/
  | ceGroupRemove (fn : Nat) (win : Half) (now : Nat)
  /-- CE_GROUP_CTL LOOKUP loads a valid entry into the CE_GROUP_WORD registers. (R397) -/
  | ceGroupLookup (fn : Nat) (win : Half) (now : Nat)
  /-- MIR_JOB_CTL PROTECT starts Mirror protection of a job with a first full copy. (R475) -/
  | protect (fn : Nat) (win : Half) (now : Nat)
  /-- MIR_JOB_CTL UNPROTECT ends Mirror protection of a job. (R475) -/
  | unprotect (fn : Nat) (win : Half) (now : Nat)
  /-- Writing ENABLE 1 to MIR_PARTNER sends a HELLO to the partner, or refuses a partner at L4. (R473) -/
  | mirPartnerEnable (fn : Nat) (win : Half) (value : Word32) (now : Nat)
  /-- Writing ENABLE 1 to MIR_HOST_DEVICE accepts a copy area for the hosted device, or refuses it. (R474) -/
  | mirHostEnable (fn : Nat) (win : Half) (value : Word32) (now : Nat)
  /-- MIR_RESTORE_CTL START begins a restore from the named partner, disabling remote access. (R481) -/
  | restoreStart (fn : Nat) (win : Half) (now : Nat)
  /-- The restore reinstates the schedule, enables rings and remote access, and reports DONE or a failure. (R481) -/
  | restoreDone (now : Nat)
  /-- TOP_JSTART_CTL START begins the start broadcast, computing the chunk table at the root, or is refused. (R501) -/
  | jstartStart (fn : Nat) (win : Half) (now : Nat)
  /-- TOP_JSTART_CTL CANCEL stops pulling and serving and ends the start FAILED with ABORTED. (R506) -/
  | jstartCancel (fn : Nat) (win : Half) (now : Nat)
  /-- Every 20 µs a member lacking chunks reads its parent's sector and pulls the table and chunks it may. (R503) -/
  | jstartPoll (now : Nat)
  /-- A parent whose HAVE has not advanced for TIMEOUT_MS is treated as lost and the member re-parents. (R504) -/
  | jstartParentTimeout (now : Nat)
  /-- Once per ms a parent reads each child's sector and declares a silent child LOST, adopting its children. (R504) -/
  | jstartChildCheck (now : Nat)
  /-- Writing GO hands the mailbox message to the SC in the OPERATOR role. (R515) -/
  | secMailboxGo (fn : Nat) (win : Half) (value : Word32) (now : Nat)
  /-- The TGU admits the next descriptor of a ring once space allows, checking it and creating or arming an instance. (R308) -/
  | descriptorAdmission (fn : Nat) (ring : Nat) (now : Nat)
  /-- The coalesced SQ_HEAD write-back is issued, at most once per µs. (R287) -/
  | sqHeadWriteback (fn : Nat) (ring : Nat) (now : Nat)
  /-- The write-back unit writes a held Completion Record once its CQ has room. (R288) -/
  | recordWriteback (fn : Nat) (ring : Nat) (now : Nat)
  /-- A vector sends its MSI-X message when the moderation interval of a held cause has passed. (R304) -/
  | msixMessage (fn : Nat) (vector : Nat) (now : Nat)
  /-- A KERNEL node is dispatched to facets after its operand check, shape resolution and placement. (R149) -/
  | kernel (inst : Nat) (node : Nat) (now : Nat)
  /-- A MATMUL node is dispatched as M_TILES × N_TILES instances of built-in code. (R153) -/
  | matmul (inst : Nat) (node : Nat) (now : Nat)
  /-- A ROUTE node scores, selects and sorts a batch on the Prism and writes the route area. (R68) -/
  | route (inst : Nat) (node : Nat) (now : Nat)
  /-- A ROUTE_SCORED node selects and sorts from given FP32 logits and writes the route area. (R68) -/
  | routeScored (inst : Nat) (node : Nat) (now : Nat)
  /-- A FETCH_EXPERTS node forms its demand and begins streaming demanded experts in ascending ID. (R101) -/
  | fetchExperts (inst : Nat) (node : Nat) (now : Nat)
  /-- A COMBINE node reserves Lens slots and attaches pending notices, or reads every row in GRID mode. (R127) -/
  | combine (inst : Nat) (node : Nat) (now : Nat)
  /-- A COPY node moves bytes or tiles, converting and compressing them as requested. (R267) -/
  | copy (inst : Nat) (node : Nat) (now : Nat)
  /-- A COPY_T node transposes a tile grid with element conversion. (R215) -/
  | copyT (inst : Nat) (node : Nat) (now : Nat)
  /-- An INGEST node turns a frame into patch tokens. (R268) -/
  | ingest (inst : Nat) (node : Nat) (now : Nat)
  /-- A WINDOW_GATHER node builds convolution windows from a source grid. (R269) -/
  | windowGather (inst : Nat) (node : Nat) (now : Nat)
  /-- An ALLOC node places and takes a buffer and charges quota, or refuses. (R262) -/
  | alloc (inst : Nat) (node : Nat) (now : Nat)
  /-- A FREE node frees a buffer at its commit, or refuses. (R263) -/
  | freeBuf (inst : Nat) (node : Nat) (now : Nat)
  /-- A RELEASE node removes its job from a buffer's holder set at its commit, or refuses. (R263) -/
  | release (inst : Nat) (node : Nat) (now : Nat)
  /-- A SHARE node adds a grantee and moves last ownership at its commit, or refuses. (R263) -/
  | shareBuf (inst : Nat) (node : Nat) (now : Nat)
  /-- A COLLECTIVE node takes its group's sequence number, sends READY and starts the operation. (R400) -/
  | collective (inst : Nat) (node : Nat) (now : Nat)
  /-- An ASYNC_COPY_REMOTE node probes its remote region and releases its transfer at commit. (R385) -/
  | asyncCopyRemote (inst : Nat) (node : Nat) (now : Nat)
  /-- An OWN_TRANSFER node waits for its released writes and at commit sends an ownership transfer to the home device. (R379) -/
  | ownTransfer (inst : Nat) (node : Nat) (now : Nat)
  /-- An INVALIDATE node waits for its released writes and at commit sends an invalidation to the home device. (R378) -/
  | invalidate (inst : Nat) (node : Nat) (now : Nat)
  /-- A FENCE node takes marks and sends fabric FENCEs to destinations with covered requests unacknowledged. (R381) -/
  | fence (inst : Nat) (node : Nat) (now : Nat)
  /-- A HOST_SIGNAL node writes or adds an 8-byte value at commit and may signal a vector. (R302) -/
  | hostSignal (inst : Nat) (node : Nat) (now : Nat)
  /-- A HOST_WAIT node reads its word at dispatch and polls it until true or timeout. (R302) -/
  | hostWait (inst : Nat) (node : Nat) (now : Nat)
  /-- A HOST_WAIT poll falls due, reads the word and commits, or fails WAIT_TIMEOUT after the last poll. (R302) -/
  | hostWaitPoll (inst : Nat) (node : Nat) (now : Nat)
  /-- A SNAPSHOT node requests an epoch cut and commits once it closes or fails, writing its result. (R480) -/
  | snapshot (inst : Nat) (node : Nat) (now : Nat)
  /-- A NOP node commits with no effect, or fails on non-zero operands. (R301) -/
  | nopNode (inst : Nat) (node : Nat) (now : Nat)
  /-- A node ready to commit takes a commit slot, is checked, commits, releases logs and successors and hands its record over. (R325) -/
  | nodeCommit (inst : Nat) (node : Nat) (now : Nat)
  /-- The TGU halts the job's rings, kills its uncommitted nodes ABORTED and disarms its frame-locked graphs. (R447) -/
  | jobFatalStep (job : Nat) (status : Nat) (now : Nat)
  /-- The copy of a committed shadow frame to its home page completes and the frame returns to shadow space. (R327) -/
  | copyBack (page : Nat) (now : Nat)
  /-- When every frame-holding command of a half is stalled for shadow space, the TGU kills the newest lowest-priority one. (R328) -/
  | shadowDeadlockKill (half : Half) (now : Nat)
  /-- A grace timer expires and the TGU pre-empts victims until the waiting node can dispatch. (R333) -/
  | graceTimerExpiry (inst : Nat) (node : Nat) (now : Nat)
  /-- An accepted FRAME_TICK_IN edge runs the tick: count, abandonment of late instances and arming. (R340) -/
  | frameTickIn (now : Nat)
  /-- Device time reaches a multiple of PERIOD_US and the tick runs as for a pin edge. (R337) -/
  | internalTick (now : Nat)
  /-- An instance passes its deadline and its uncommitted nodes complete DEADLINE_MISSED. (R341) -/
  | deadlineExpiry (inst : Nat) (now : Nat)
  /-- An instance runs longer than TGU_FACET_WATCHDOG and its command fails WATCHDOG. (R191) -/
  | facetWatchdog (facet : Nat) (now : Nat)
  /-- A Prism admits a group of tokens once contexts and a generation are available. (R90) -/
  | prismGroupAdmit (inst : Nat) (node : Nat) (half : Half) (now : Nat)
  /-- A route node stalled for 4,096 facet clk is set aside and the next queued route node starts. (R90) -/
  | prismSetAside (inst : Nat) (node : Nat) (half : Half) (now : Nat)
  /-- A route node stalled past PRISM_ADMIT_TIMEOUT fails with CONTEXT_LIMIT and frees its contexts. (R91) -/
  | prismAdmitTimeout (inst : Nat) (node : Nat) (now : Nat)
  /-- An EFU in the prefetch state stages the next predicted expert in stored form. (R118) -/
  | prefetchStaging (inst : Nat) (node : Nat) (half : Half) (now : Nat)
  /-- The EFU starts a demanded expert, announces it, receives the multicast plan and reads the entry. (R109) -/
  | expertStart (inst : Nat) (node : Nat) (expert : Nat) (now : Nat)
  /-- The EFU sends a checked tile to every facet of the plan once each has a free slot. (R111) -/
  | tileMulticast (inst : Nat) (node : Nat) (expert : Nat) (now : Nat)
  /-- A result notice reaches the Lens and is dropped, held or accepted against its COMBINE. (R130) -/
  | resultNotice (now : Nat)
  /-- A facet finishes loading a command's code and its instances start. (R147) -/
  | codeLoad (facet : Nat) (now : Nat)
  /-- A waiting facet instruction resumes once its slot, piece or load group is ready. (R179) -/
  | waitComplete (facet : Nat) (now : Nat)
  /-- The facet NOP does nothing. (R158) -/
  | facetNop (facet : Nat) (now : Nat)
  /-- END ends the instance and starts the next logical index on the facet. (R158) -/
  | endInst (facet : Nat) (now : Nat)
  /-- BR branches by OFFSET. (R158) -/
  | br (facet : Nat) (now : Nat)
  /-- BC branches when its condition on two scalars holds. (R158) -/
  | bc (facet : Nat) (now : Nat)
  /-- LOOP decrements a scalar and branches while it is non-zero. (R158) -/
  | loopInst (facet : Nat) (now : Nat)
  /-- CALL pushes the return address and branches. (R158) -/
  | callInst (facet : Nat) (now : Nat)
  /-- RET pops an address and continues there. (R158) -/
  | retInst (facet : Nat) (now : Nat)
  /-- TRAP fails the command with KERNEL_TRAP. (R158) -/
  | trap (facet : Nat) (now : Nat)
  /-- ADD adds two scalars modulo 2^64. (R159) -/
  | addS (facet : Nat) (now : Nat)
  /-- ADDI adds an immediate to a scalar. (R159) -/
  | addi (facet : Nat) (now : Nat)
  /-- SUB subtracts two scalars. (R159) -/
  | subS (facet : Nat) (now : Nat)
  /-- MUL gives the low 64 bits of a product. (R159) -/
  | mulS (facet : Nat) (now : Nat)
  /-- AND forms the bitwise and of two scalars. (R159) -/
  | andS (facet : Nat) (now : Nat)
  /-- OR forms the bitwise or of two scalars. (R159) -/
  | orS (facet : Nat) (now : Nat)
  /-- XOR forms the bitwise exclusive or of two scalars. (R159) -/
  | xorS (facet : Nat) (now : Nat)
  /-- SHL shifts a scalar left. (R159) -/
  | shl (facet : Nat) (now : Nat)
  /-- SHR shifts a scalar right logically. (R159) -/
  | shr (facet : Nat) (now : Nat)
  /-- MIN takes the signed minimum of two scalars. (R159) -/
  | minS (facet : Nat) (now : Nat)
  /-- MAX takes the signed maximum of two scalars. (R159) -/
  | maxS (facet : Nat) (now : Nat)
  /-- LI loads an immediate. (R159) -/
  | li (facet : Nat) (now : Nat)
  /-- LIH sets the high word from an immediate. (R159) -/
  | lih (facet : Nat) (now : Nat)
  /-- RDSPEC reads a special value; DEVICE_TIME is counted in Default and forbidden in Strict. (R160) -/
  | rdspec (facet : Nat) (now : Nat)
  /-- LD64 loads 8 bytes of device memory, seeing the command's own staged writes. (R159) -/
  | ld64 (facet : Nat) (now : Nat)
  /-- LD32 loads 4 bytes zero-extended. (R159) -/
  | ld32 (facet : Nat) (now : Nat)
  /-- TPSET sets a tile pointer. (R161) -/
  | tpset (facet : Nat) (now : Nat)
  /-- TLOAD loads a whole stored tile into the tile store and checks its CRC. (R161) -/
  | tload (facet : Nat) (now : Nat)
  /-- TSTORE stages a tile to memory with CRC and zero-map. (R161) -/
  | tstore (facet : Nat) (now : Nat)
  /-- TCOPY copies a tile within the tile store. (R161) -/
  | tcopy (facet : Nat) (now : Nat)
  /-- THDR rewrites a tile header and clears ZMAP. (R161) -/
  | thdr (facet : Nat) (now : Nat)
  /-- TZERO zeroes a tile's payload. (R161) -/
  | tzero (facet : Nat) (now : Nat)
  /-- TGATHER gathers listed rows of a grid into a tile. (R161) -/
  | tgather (facet : Nat) (now : Nat)
  /-- TLDR reads strided rows into a tile. (R161) -/
  | tldr (facet : Nat) (now : Nat)
  /-- TSTR stages strided rows of a tile to memory. (R161) -/
  | tstr (facet : Nat) (now : Nat)
  /-- TCVT converts one tile into another's type. (R161) -/
  | tcvt (facet : Nat) (now : Nat)
  /-- MMA accumulates A × B into an accumulator slot under the fold. (R172) -/
  | mma (facet : Nat) (now : Nat)
  /-- ACC_STORE converts accumulator rows into a tile. (R175) -/
  | accStore (facet : Nat) (now : Nat)
  /-- ACC_LOAD loads tile rows into accumulator rows. (R162) -/
  | accLoad (facet : Nat) (now : Nat)
  /-- ACC_ZERO clears an accumulator slot. (R162) -/
  | accZero (facet : Nat) (now : Nat)
  /-- ACC_ADD adds tile rows to accumulator rows. (R162) -/
  | accAdd (facet : Nat) (now : Nat)
  /-- VADD adds two vector registers. (R163) -/
  | vadd (facet : Nat) (now : Nat)
  /-- VSUB subtracts two vector registers. (R163) -/
  | vsub (facet : Nat) (now : Nat)
  /-- VMUL multiplies two vector registers. (R163) -/
  | vmul (facet : Nat) (now : Nat)
  /-- VFMA forms a fused multiply-add. (R163) -/
  | vfma (facet : Nat) (now : Nat)
  /-- VMAX takes the IEEE maximum lane by lane. (R163) -/
  | vmax (facet : Nat) (now : Nat)
  /-- VMIN takes the IEEE minimum lane by lane. (R163) -/
  | vmin (facet : Nat) (now : Nat)
  /-- VCMPLT compares lanes for less-than. (R163) -/
  | vcmplt (facet : Nat) (now : Nat)
  /-- VSEL selects lanes by a condition vector. (R163) -/
  | vsel (facet : Nat) (now : Nat)
  /-- VBCAST broadcasts a scalar to every lane. (R163) -/
  | vbcast (facet : Nat) (now : Nat)
  /-- VEXT extracts one lane into a scalar. (R163) -/
  | vext (facet : Nat) (now : Nat)
  /-- VRSUM sums the lanes by the fixed tree. (R177) -/
  | vrsum (facet : Nat) (now : Nat)
  /-- VRMAX takes the lane maximum by the fixed tree. (R177) -/
  | vrmax (facet : Nat) (now : Nat)
  /-- VLD loads a chunk of a tile as values. (R176) -/
  | vld (facet : Nat) (now : Nat)
  /-- VST converts and stores a chunk into a tile and clears ZMAP. (R176) -/
  | vst (facet : Nat) (now : Nat)
  /-- VLDA loads a chunk of an accumulator slot. (R163) -/
  | vlda (facet : Nat) (now : Nat)
  /-- VSTA stores a chunk into an accumulator slot. (R163) -/
  | vsta (facet : Nat) (now : Nat)
  /-- EXP computes e^x correctly rounded. (R178) -/
  | expV (facet : Nat) (now : Nat)
  /-- EXP2 computes 2^x. (R178) -/
  | exp2 (facet : Nat) (now : Nat)
  /-- LN computes ln x. (R178) -/
  | ln (facet : Nat) (now : Nat)
  /-- LOG2 computes log2 x. (R178) -/
  | log2 (facet : Nat) (now : Nat)
  /-- RCP computes 1/x. (R178) -/
  | rcp (facet : Nat) (now : Nat)
  /-- SQRT computes the square root. (R178) -/
  | sqrt (facet : Nat) (now : Nat)
  /-- RSQRT computes the reciprocal square root. (R178) -/
  | rsqrt (facet : Nat) (now : Nat)
  /-- TANH computes tanh x. (R178) -/
  | tanh (facet : Nat) (now : Nat)
  /-- SIGMOID computes the logistic function. (R178) -/
  | sigmoid (facet : Nat) (now : Nat)
  /-- SILU computes x times the logistic function. (R178) -/
  | silu (facet : Nat) (now : Nat)
  /-- ERF computes the error function. (R178) -/
  | erf (facet : Nat) (now : Nat)
  /-- GELU computes the Gaussian error linear unit. (R178) -/
  | gelu (facet : Nat) (now : Nat)
  /-- WAIT_PIECE waits for a slot-ring tile or an arrival-bitmap piece. (R165) -/
  | waitPiece (facet : Nat) (now : Nat)
  /-- WAIT_ANY returns an unreturned piece of a window by the mode's rule. (R182) -/
  | waitAny (facet : Nat) (now : Nat)
  /-- RELEASE_SLOT frees a slot of the ring for the EFU. (R179) -/
  | releaseSlot (facet : Nat) (now : Nat)
  /-- WAIT_GROUP waits until a remote-load group has no outstanding load. (R165) -/
  | waitGroup (facet : Nat) (now : Nat)
  /-- RLOAD issues a remote read of sectors into the tile store. (R184) -/
  | rload (facet : Nat) (now : Nat)
  /-- RLOADT issues a remote read of a whole stored tile. (R184) -/
  | rloadt (facet : Nat) (now : Nat)
  /-- RSTORE logs a remote store for release at commit. (R185) -/
  | rstore (facet : Nat) (now : Nat)
  /-- RSTORET logs a remote whole-tile store for release at commit. (R185) -/
  | rstoret (facet : Nat) (now : Nat)
  /-- RATOMIC logs a remote atomic for release at commit. (R185) -/
  | ratomic (facet : Nat) (now : Nat)
  /-- POST_NOTICE stages a result notice for release at commit. (R167) -/
  | postNotice (facet : Nat) (now : Nat)
  /-- STAGE_QUERY returns the bytes left in the commit-log allowance. (R167) -/
  | stageQuery (facet : Nat) (now : Nat)
  /-- A data flit is received, checked, accepted in order or discarded with a NAK. (R354) -/
  | dataFlit (port : Nat) (seq : Nat) (flit : List Byte) (now : Nat)
  /-- A NAK makes the sender replay from the named flit, and 16 NAKs for one flit retrain the port. (R354) -/
  | nak (port : Nat) (flit : List Byte) (now : Nat)
  /-- An INIT control flit gives the peer's identity, revision and credits and moves the port to SECURING, UP or REFUSED_REVISION. (R350) -/
  | initFlit (port : Nat) (seq : Nat) (flit : List Byte) (now : Nat)
  /-- A MAC control flit verifies a tag group, releasing its transactions or failing it as a CRC failure. (R355) -/
  | macFlit (port : Nat) (seq : Nat) (flit : List Byte) (tagOk : Bool) (now : Nat)
  /-- A TIME control flit measures the offset and path delay for device-time alignment. (R392) -/
  | timeFlit (port : Nat) (seq : Nat) (flit : List Byte) (now : Nat)
  /-- A CREDIT control flit returns credits of each class and channel. (R357) -/
  | credit (port : Nat) (seq : Nat) (flit : List Byte) (now : Nat)
  /-- Every 1 ms a follower sends TIME flits on its upstream port. (R392) -/
  | timeExchange (now : Nat)
  /-- A port leaves UP, its slots die and its unacknowledged requests are resent elsewhere. (R375) -/
  | linkDown (port : Nat) (now : Nat)
  /-- A NULL word fills the transaction stream and has no effect. (R360) -/
  | nullWord (port : Nat) (now : Nat)
  /-- A READ or probe arrives, is translated and checked, and a READ_RESP is returned. (R368) -/
  | readTx (port : Nat) (now : Nat)
  /-- A READ_RESP delivers read data, a probe result or a BULK GET chunk to its requester. (R360) -/
  | readResp (port : Nat) (now : Nat)
  /-- A WRITE arrives, is deduplicated, checked and applied, and its SEQ is marked. (R364) -/
  | writeTx (port : Nat) (now : Nat)
  /-- An ATOMIC arrives, is checked and applied, ordered under ORDERED. (R361) -/
  | atomic (port : Nat) (now : Nat)
  /-- A BULK segment arrives and is written, or a BULK GET is answered. (R360) -/
  | bulk (port : Nat) (now : Nat)
  /-- An ACK frees held copies or reports refusals or parity resends. (R365) -/
  | ack (port : Nat) (now : Nat)
  /-- An INVALIDATE arrives at the home device, which checks ownership, may transfer it, and delivers notices to readers. (R378) -/
  | fabInvalidate (port : Nat) (now : Nat)
  /-- A delivered INVALIDATE adds one to the reader's notice counter. (R378) -/
  | fabInvalidateDeliver (port : Nat) (now : Nat)
  /-- A FENCE arrives and is answered with FENCE_ACK once every SEQ up to MARK is applied. (R381) -/
  | fabFence (port : Nat) (now : Nat)
  /-- A FENCE_ACK acknowledges every SEQ up to MARK and may make the FENCE node ready to commit. (R381) -/
  | fenceAck (port : Nat) (now : Nat)
  /-- 1 µs after a run's first applied SEQ, the receiver sends its ACK. (R365) -/
  | ackCoalesce (src : Nat) (now : Nat)
  /-- An unacknowledged request has waited PATH_US, the slot dies and its requests are resent. (R375) -/
  | pathTimeout (dest : Nat) (slot : Nat) (now : Nat)
  /-- A dead slot becomes live when its port has been UP for 1 ms. (R375) -/
  | slotRevive (dest : Nat) (slot : Nat) (now : Nat)
  /-- A destination unreachable past REACH_MS counts as a lost member and fails the dependent work MEMBER_LOST. (R382) -/
  | reachTimeout (dest : Nat) (now : Nat)
  /-- A receiver drops a source's sequence window after its idle time passes. (R364) -/
  | windowExpiry (src : Nat) (now : Nat)
  /-- A DEMAND arrives and, once all members' are held, the owner serves its requested experts. (R122) -/
  | demand (port : Nat) (now : Nat)
  /-- A REPAIR asks the owner to send an expert again. (R122) -/
  | repair (port : Nat) (now : Nat)
  /-- An exchanged expert tile arrives, is checked and staged for local multicast. (R122) -/
  | expertTile (port : Nat) (now : Nat)
  /-- A READY frame lets a member send data to the receiver, or fails on a signature mismatch. (R404) -/
  | readyFrame (port : Nat) (now : Nat)
  /-- A partial-sum tile arrives and is added in the reduction order. (R407) -/
  | partialFrame (port : Nat) (now : Nat)
  /-- A finished or moved tile arrives, is checked, written in place and sets its piece. (R406) -/
  | finalFrame (port : Nat) (now : Nat)
  /-- A RESEND asks for a tile again. (R416) -/
  | resend (port : Nat) (now : Nat)
  /-- A presence bitmap moves up the tree and is ORed. (R418) -/
  | presence (port : Nat) (now : Nat)
  /-- The union bitmap arrives and fixes the expert-set tile list. (R418) -/
  | unionFrame (port : Nat) (now : Nat)
  /-- A VOTE arrives and is merged with the parent's own. (R417) -/
  | vote (port : Nat) (now : Nat)
  /-- A VERDICT arrives and the member verifies, redoes, fails or withdraws the operation. (R417) -/
  | verdict (port : Nat) (now : Nat)
  /-- A WITHDRAW reaches member 0, which answers with WITHDRAWN. (R421) -/
  | withdraw (port : Nat) (now : Nat)
  /-- No frame arrives for COLL_MS and the operation completes MEMBER_LOST. (R419) -/
  | collTimeout (group : Nat) (now : Nat)
  /-- Every 10 µs a frame answered GROUP_REFORMED is sent again. (R399) -/
  | epochRetry (group : Nat) (now : Nat)
  /-- A LEASE arrives at the shadow, which answers with LEASE_ECHO. (R457) -/
  | lease (half : Half) (msg : List Byte) (now : Nat)
  /-- A LEASE_ECHO renews the lease at the lead. (R457) -/
  | leaseEcho (half : Half) (msg : List Byte) (now : Nat)
  /-- Every 100 µs the lead sends a LEASE in the reserved slot. (R457) -/
  | leaseRenewal (now : Nat)
  /-- No valid lease message for 2 ms: the half stops dispatch and sends LEAD_REQUEST. (R459) -/
  | leaseLapse (half : Half) (now : Nat)
  /-- Every 20 ms without a reply the SC sends its LEAD_REQUEST again. (R459) -/
  | leadRequestResend (half : Half) (now : Nat)
  /-- 100 ms after a lapse without LEAD_REPLY the half kills its uncommitted commands and asserts FAULT_N. (R462) -/
  | splitHalt (half : Half) (now : Nat)
  /-- A commit batch reaches the shadow, which records it and acknowledges it. (R458) -/
  | shadowBatch (intact : Bool) (now : Nat)
  /-- The shadow's acknowledgement lets the lead take step 3 for the batch's commits. (R458) -/
  | shadowAck (intact : Bool) (now : Nat)
  /-- A LEAD_REPLY grants the half survivorship or fences it. (R461) -/
  | leadReply (req : Request) (result : Nat) (term : Nat)
  /-- A detector finds an error, taints the attempt and reports its class to the SC. (R445) -/
  | detectorReport (half : Half) (island : Nat) (report : Report) (inst : Nat) (node : Nat) (detail : Nat) (now : Nat)
  /-- Every ms the HM updates its rates and risk level and may request an epoch cut. (R466) -/
  | hmSample (now : Nat)
  /-- Every DECAY_MS the half's floor falls by one. (R467) -/
  | hmFloorDecay (half : Half) (now : Nat)
  /-- MIN_INTERVAL_MS after the last closed cut, an INTERVAL cut is requested. (R469) -/
  | cutInterval (now : Nat)
  /-- At the next commit boundary the TGU records commits, freezes the dirty set and copies schedule state. (R470) -/
  | epochCut (now : Nat)
  /-- The Mirror pushes the next frozen page, and after the last writes the cut record and CUT_CLOSE. (R472) -/
  | mirrorPagePush (now : Nat)
  /-- At the partner, CUT_CLOSE applies the journal records tagged up to the cut. (R478) -/
  | cutClose (port : Nat) (now : Nat)
  /-- A HELLO at the partner is answered with its copy area or refused. (R473) -/
  | hello (port : Nat) (now : Nat)
  /-- The partner's answer starts protection with a first full copy or sets REFUSED. (R473) -/
  | helloReply (port : Nat) (now : Nat)
  /-- A TAP_RESULT removes tapped pages from the dirty set or drops the plan. (R477) -/
  | tapResult (port : Nat) (now : Nat)
  /-- A junction sensor crosses ALERT_C or TRIP_C, moving THERM_ALERT_N or tripping the clocks to 0.4 GHz. (R519) -/
  | tempReading (half : Half) (sensor : Nat) (temp : Int) (now : Nat)
  /-- After 100 ms below TRIP_C − 10 °C, TRIPPED clears and facet clk may climb. (R519) -/
  | tripRecovery (now : Nat)
  /-- A core island sensor records a droop event for the HM. (R572) -/
  | droopEvent (half : Half) (now : Nat)
  /-- Every ms the power cap lowers or raises facet clk by 25 MHz. (R517) -/
  | capStep (power : Nat) (west : Nat) (east : Nat) (now : Nat)
  /-- Every ms the SC samples the telemetry items. (R516) -/
  | telemetrySample (stackW : Int) (stackE : Int) (now : Nat)
  /-- Patrol scrub reads the next block, correcting or poisoning it. (R247) -/
  | patrolScrub (addr : Nat) (dataErrs : List (Nat × BitVec 16)) (checkErrs : List (Nat × BitVec 16)) (now : Nat)
  /-- Piccolo starts a 40 µs slice on a facet predicted idle for 60 µs. (R535) -/
  | sliceStart (facet : Nat) (now : Nat)
  /-- A slice ends and its signature passes, quarantines or retires the facet. (R534) -/
  | sliceEnd (facet : Nat) (pass : Bool) (now : Nat)
  /-- An idle quarantined facet runs its forced rotation. (R536) -/
  | forcedRotation (facet : Nat) (now : Nat)
  /-- A period ends and facets without a rotation count as overdue. (R536) -/
  | piccoloPeriod (half : Half) (now : Nat)
  /-- Within 1 s the SC appends a retired facet to the flash list. (R537) -/
  | retirementListAppend (facet : Nat) (now : Nat)
  /-- 100 ms without a watchdog reset stops the device with SC_FAULT. (R543) -/
  | scWatchdog (half : Half) (now : Nat)
  /-- Every 24 h the module re-runs its known-answer tests. (R524) -/
  | selfTestPeriodic (half : Half) (pass : Bool) (now : Nat)
  /-- REFCLK_SYS stops for over 2 µs and the device stops with SC_FAULT. (R569) -/
  | refclkSysStop (now : Nat)
  /-- A SERDES_REFCLK loss takes its quarter's ports to RETRAINING. (R569) -/
  | serdesRefclkLoss (quarter : Nat) (now : Nat)
  /-- A PPS_IN edge on a MASTER device sets or slews device time. (R567) -/
  | ppsIn (now : Nat)
  /-- GET_IDENTITY returns identity and lifecycle. (R512) -/
  | getIdentity (req : Request)
  /-- TELEMETRY_READ returns the named items of one sample. (R516) -/
  | telemetryRead (req : Request) (payload : List Byte)
  /-- EVENT_LOG_READ returns the event or fatal log. (R544) -/
  | eventLogRead (req : Request) (payload : List Byte)
  /-- POWER_CEILING sets the BMC power ceiling. (R517) -/
  | powerCeiling (req : Request) (payload : List Byte)
  /-- LEAD_STATUS returns TOP_LEAD_STATUS and HEALTH. (R460) -/
  | leadStatus (req : Request)
  /-- MAINT_STOP fences every doorbell page before a full maintenance stop. (R507) -/
  | maintStop (req : Request)
  /-- STAGE_BEGIN erases a slot and marks it WRITING. (R532) -/
  | stageBegin (req : Request) (payload : List Byte)
  /-- STAGE_DATA writes the next bytes of the staged object. (R532) -/
  | stageData (req : Request) (payload : List Byte)
  /-- STAGE_COMMIT verifies the slot and marks it STAGED or INVALID. (R532) -/
  | stageCommit (req : Request) (ok : Bool) (info : StageInfo)
  /-- STAGE_STATUS returns the flash directory. (R532) -/
  | stageStatus (req : Request)
  /-- LIFECYCLE_CHALLENGE issues a fresh nonce. (R528) -/
  | lifecycleChallenge (req : Request)
  /-- LIFECYCLE_TOKEN checks a token and applies its lifecycle transition. (R528) -/
  | lifecycleToken (req : Request) (payload : List Byte) (ecdsaOk : Bool) (mldsaOk : Bool)
  /-- ZEROISE removes every job and zeroises keys. (R529) -/
  | zeroise (req : Request)
  /-- CLEAR_RETIRED empties the retirement list. (R537) -/
  | clearRetired (req : Request)
  /-- SELFTEST_RUN runs the on-demand tests. (R524) -/
  | selftestRun (req : Request) (pass : Bool)
  /-- Set Endpoint ID assigns the endpoint ID. (R510) -/
  | setEndpointId (half : Half) (path : MgmtPath) (eid : Nat) (now : Nat)
  /-- Get Endpoint ID returns the endpoint ID. (R510) -/
  | getEndpointId (half : Half) (path : MgmtPath) (now : Nat)
  /-- Get Endpoint UUID returns the endpoint UUID. (R510) -/
  | getEndpointUuid (half : Half) (path : MgmtPath) (now : Nat)
  /-- Get MCTP Version Support returns supported versions. (R510) -/
  | getMctpVersionSupport (half : Half) (path : MgmtPath) (now : Nat)
  /-- Get Message Type Support returns supported types. (R510) -/
  | getMessageTypeSupport (half : Half) (path : MgmtPath) (now : Nat)
  /-- An SPDM hybrid KEY_EXCHANGE forms a session, installing link or IDE keys. (R523) -/
  | keyExchange (half : Half) (use : SessionUse) (ok : Bool) (officer : Bool) (now : Nat)
  /-- An SPDM KEY_UPDATE rekeys at a tag-group boundary. (R355) -/
  | keyUpdate (session : Nat) (now : Nat)
  /-- ENTDAA assigns a dynamic I3C address. (R509) -/
  | entdaa (half : Half) (addr : Nat)
  /-- SETDASA assigns a dynamic address from the static one. (R509) -/
  | setdasa (half : Half) (static : Nat) (addr : Nat)
  /-- RSTDAA resets the dynamic address. (R509) -/
  | rstdaa (half : Half)
  /-- ENEC enables target events. (R509) -/
  | enec (half : Half) (mask : Nat)
  /-- DISEC disables target events. (R509) -/
  | disec (half : Half) (mask : Nat)
  /-- GETPID returns the provisioned ID. (R509) -/
  | getpid (half : Half)
  /-- GETBCR returns the bus characteristics register. (R509) -/
  | getbcr (half : Half)
  /-- GETDCR returns the device characteristics register. (R509) -/
  | getdcr (half : Half)
  /-- GETSTATUS returns target status. (R509) -/
  | getstatus (half : Half)
  /-- SETMRL sets the maximum read length. (R509) -/
  | setmrl (half : Half) (len : Nat)
  /-- GETMRL returns the maximum read length. (R509) -/
  | getmrl (half : Half)
  /-- SETMWL sets the maximum write length. (R509) -/
  | setmwl (half : Half) (len : Nat)
  /-- GETMWL returns the maximum write length. (R509) -/
  | getmwl (half : Half)
  /-- RSTACT resets only the I3C target logic. (R509) -/
  | rstact (half : Half)
  /-- JTAG BYPASS selects the bypass register. (R542) -/
  | bypass
  /-- JTAG IDCODE selects the identification register. (R542) -/
  | idcode
  /-- JTAG SAMPLE/PRELOAD samples or preloads the boundary register. (R542) -/
  | samplePreload (cells : List Bool)
  /-- JTAG EXTEST drives balls from the boundary register while RESET_N is asserted. (R542) -/
  | extest
  /-- JTAG CLAMP holds outputs while RESET_N is asserted. (R542) -/
  | clamp
  /-- JTAG HIGHZ floats outputs while RESET_N is asserted. (R542) -/
  | highz
  /-- A private JTAG instruction acts only in unlocked lifecycle states. (R542) -/
  | jtagPrivate (code : Nat)
  /-- TRST_N resets the test logic only. (R542) -/
  | trstN
  /-- A peer appears on the lanes of a DOWN port, or a retrain begins, and the port enters TRAINING. (R350) -/
  | portTrainingStart (port : Nat) (now : Nat)
  /-- Electrical training and FEC lock of a port complete and INIT flits are exchanged, or the training fails and after three failed retrains the port enters FAILED. (R350) -/
  | portTrainingEnd (port : Nat) (ok : Bool) (now : Nat)
  /-- A host port's PCIe link trains, retrains, changes width or speed, or goes down, changing HOST_LINK_STATUS. (R275) -/
  | pcieLinkState (half : Half) (speed : Nat) (width : Nat) (flit : Bool) (ide : Bool) (now : Nat)
  /-- Zeroing of a freed T1 buffer completes, the buffer returns to its bitmap and its charge is released. (R264) -/
  | t1BufferZeroed (base : Nat) (now : Nat)
  /-- An SPDM session ends by END_SESSION or heartbeat expiry, and its session secrets, link keys or IDE keys are zeroised. (R525) -/
  | spdmSessionEnd (session : Nat) (now : Nat)
  /-- A continuous entropy-source health test fails, the SC enters its error state and the device stops DEVICE_FATAL with cause SC_FAULT. (R524) -/
  | entropyHealthFail (half : Half) (now : Nat)
  /-- The host clears the mask of an MSI-X vector whose pending bit is set, and the vector sends its message. (R304) -/
  | msixVectorUnmask (fn : Nat) (vector : Nat) (now : Nat)
  deriving DecidableEq, Repr

end Sys2Proof
end

