-- ==== Sys2Proof/Decode.lean ====
section
/-! DEFINITION. The table of this block gives no command any bits (every row's "fields" is empty), so no word spells a
command. -/

namespace Sys2Proof

/-- The command that a word of the opcode table's bits spells: none, since no row gives bits. -/
def decodeTableWord (_nbits _w : Nat) : Option Instr := none

end Sys2Proof
end

