-- ==== Sys2Proof/Config.lean ====
section
/-! DEFINITION. What the spec leaves open. A constant without a body is a free value: no proof can see it, so a claim
holds whatever it is. Each is named in a log entry. -/

namespace Sys2Proof

/-- Free 64-bit values, drawn in order by the counter `Dev.free` (assumption 4). -/
opaque Config.freeWord : Nat → Word64
/-- Byte `k` of what AES-256-XTS under the key pair of one epoch makes of the ciphertext that the pair of another made of a
64-byte unit's data (R245, R264): by the epoch that encrypted, the epoch that decrypts, the tweak a[40:6], the data and `k`
(assumption 5). The keys are random and never leave the device. -/
opaque Config.wrongKeyByte : Nat → Nat → Nat → List Byte → Nat → Byte
/-- The 128-bit unique ID of the part (R512). -/
opaque Config.uniqueId : Nat
/-- A byte of the AES-256-GCM key stream of a link: by the keys in use, the tag group and the byte's place in the group's payloads
(R355, assumption 35). The keys never leave the FIPS boundary. -/
opaque Config.linkPad : Nat → Nat → Nat → Byte
/-- The 16-byte GCM tag of a tag group: by the keys in use, the group, its 256 link headers and its 256 payloads (R355). -/
opaque Config.linkTag : Nat → Nat → List Byte → List Byte → BitVec 128
/-- Aelum's PCI Vendor ID (R276, R511). -/
opaque Config.vendorId : BitVec 16
/-- Aelum's MIPI manufacturer ID (R509). -/
opaque Config.mipiId : BitVec 15
/-- Aelum's JEDEC manufacturer code in IDCODE (R542). -/
opaque Config.jedecId : BitVec 11
/-- The bus characteristics register of an I3C target (R509 lists GETBCR; its value is MIPI's). -/
opaque Config.bcr : Byte
/-- The device characteristics register of an I3C target. -/
opaque Config.dcr : Byte
/-- The UUID of an MCTP endpoint (R510), by half and by path (false I3C, true PCIe). -/
opaque Config.uuid : Half → Bool → Nat
/-- The MCTP version that Get MCTP Version Support reports (R510 gives none). -/
opaque Config.mctpVersion : Word32
/-- The ROM hash of the Aelum signing keys (R525), as a number. -/
opaque Config.romHash : Nat
/-- SHA-384 of a token's public keys (R528). The digest function is a published standard that this model does not
compute. -/
opaque Config.sha384 : List Byte → Nat

/-- Bytes of a slot-ring slot in which no tile stands (R146 states no contents), by a seed and a position. -/
opaque Config.slotByte : Nat → Nat → Byte

end Sys2Proof
end

