-- ==== Sys2Proof/Machine/Bits.lean ====
section
/-! DEFINITION. Bit fields, byte order and association lists: the helpers every block uses. All in-memory structures
are little-endian, and bit ranges are written [msb:lsb] (notation of 00_scope.md). -/

namespace Sys2Proof.Machine

open Sys2Proof

/-- Bits [lo+w-1:lo] of a natural number. -/
def bits (x lo w : Nat) : Nat := (x / 2 ^ lo) % 2 ^ w

/-- Bit `i` of a natural number. -/
def bit (x i : Nat) : Bool := (x / 2 ^ i) % 2 == 1

/-- 1 for true. -/
def b2n (b : Bool) : Nat := if b then 1 else 0

/-- `x` with bits [lo+w-1:lo] replaced by `v`. -/
def setBits (x lo w v : Nat) : Nat :=
  x - bits x lo w * 2 ^ lo + (v % 2 ^ w) * 2 ^ lo

/-- The `n` little-endian bytes of `x`. -/
def toBytes : Nat → Nat → List Byte
  | 0, _ => []
  | n + 1, x => BitVec.ofNat 8 x :: toBytes n (x / 256)

/-- The number that little-endian bytes spell. -/
def ofBytes : List Byte → Nat
  | [] => 0
  | b :: bs => b.toNat + 256 * ofBytes bs

/-- A natural number as a 32-bit register value. -/
def w32 (x : Nat) : Word32 := BitVec.ofNat 32 x

/-- A natural number as a 64-bit value. -/
def w64 (x : Nat) : Word64 := BitVec.ofNat 64 x

/-- `w`-bit two's complement of a natural number read as an integer. -/
def sext (x w : Nat) : Int :=
  let y := x % 2 ^ w
  if y < 2 ^ (w - 1) then (y : Int) else (y : Int) - (2 ^ w : Nat)

/-- An integer as a `w`-bit two's complement number. -/
def wrapInt (x : Int) (w : Nat) : Nat := (x % ((2 ^ w : Nat) : Int)).toNat

/-- Ceiling of a quotient. -/
def cdiv (a b : Nat) : Nat := (a + b - 1) / b

/-- Adds with saturation at a counter's width (R553). -/
def satAdd (x n w : Nat) : Nat := min (x + n) (2 ^ w - 1)

/-- The value of a key in an association list. -/
def aget {κ α : Type} [DecidableEq κ] (l : List (κ × α)) (k : κ) : Option α :=
  match l with
  | [] => none
  | (k', x) :: t => if k' = k then some x else aget t k

/-- Replaces the value of a key, or adds the key at the end. -/
def aput {κ α : Type} [DecidableEq κ] (l : List (κ × α)) (k : κ) (x : α) : List (κ × α) :=
  match l with
  | [] => [(k, x)]
  | (k', x') :: t => if k' = k then (k, x) :: t else (k', x') :: aput t k x

/-- Removes a key. -/
def adel {κ α : Type} [DecidableEq κ] (l : List (κ × α)) (k : κ) : List (κ × α) :=
  l.filter fun p => p.1 ≠ k

/-- Element `i` of a list with a default. -/
def nth {α : Type} (l : List α) (i : Nat) (d : α) : α := l.getD i d

/-- Replaces element `i` of a list. -/
def setNth {α : Type} (l : List α) (i : Nat) (x : α) : List α := l.set i x

/-- Sum of a function over a list. -/
def sumBy {α : Type} (l : List α) (f : α → Nat) : Nat := l.foldl (fun s x => s + f x) 0

/-- The numbers below `n` that satisfy a test. -/
def rangeFilter (n : Nat) (p : Nat → Bool) : List Nat := (List.range n).filter p

/-- Inserts into a list kept ascending by a key. -/
def insertBy {α : Type} (lt : α → α → Bool) (x : α) : List α → List α
  | [] => [x]
  | y :: t => if lt x y then x :: y :: t else y :: insertBy lt x t

/-- Stable insertion sort. -/
def sortBy {α : Type} (lt : α → α → Bool) (l : List α) : List α :=
  l.foldl (fun acc x => insertBy lt x acc) []

/-- Cuts a list into pieces of `n` elements; the last may be shorter. The first argument bounds the number of pieces. -/
def chunksAux {α : Type} (n : Nat) : Nat → List α → List (List α)
  | 0, _ => []
  | k + 1, l => if l.isEmpty then [] else l.take n :: chunksAux n k (l.drop n)

/-- Cuts a list into pieces of `n` elements. -/
def chunks {α : Type} (n : Nat) (l : List α) : List (List α) := chunksAux n l.length l

/-- One step of the reflected CRC-32C (R55): shifts out the low bit, which takes the polynomial with it when it is 1. -/
def crc32cBit (c : Nat) : Nat := (c / 2) ^^^ (c % 2 * 0x82F63B78)

/-- Folds one byte into a CRC-32C: eight steps, low bit first. -/
def crc32cByte (c : Nat) (b : Byte) : Nat :=
  crc32cBit (crc32cBit (crc32cBit (crc32cBit (crc32cBit (crc32cBit (crc32cBit (crc32cBit (c ^^^ b.toNat))))))))

/-- CRC-32C of bytes (R55). -/
def crc32c (bs : List Byte) : Nat := (bs.foldl crc32cByte 0xFFFFFFFF) ^^^ 0xFFFFFFFF

end Sys2Proof.Machine
end

