-- ==== Sys2Proof/Machine/StateFab.lean ====
section
/-! DEFINITION. State of the Solbite fabric unit (chapter 11). -/

namespace Sys2Proof.Machine

open Sys2Proof

/-- A transaction: its header of R359 and the data behind it. `word` is the 64-bit word at 0x08. -/
structure Txn where
  op : Nat
  tc : Nat
  path : Nat
  gateway : Bool
  ordered : Bool
  resent : Bool
  masked : Bool
  dest : Nat
  seq : Nat
  src : Nat
  word : Nat
  job : Nat
  len : Nat
  data : List Byte
  deriving DecidableEq, Repr

/-- Port states, the codes of R350. -/
inductive PortSt where
  | disabled | down | training | securing | up | retraining | refusedRevision | failed
  deriving DecidableEq, Repr

/-- A numbered flit kept for replay. -/
structure SentFlit where
  num : Nat
  bytes : List Byte        -- the flit as sent
  ends : List Txn          -- transactions whose last byte it carries
  deriving DecidableEq, Repr

/-- One Solbite port (R349 to R358). -/
structure FPort where
  st : PortSt
  peerDev : Nat
  peerPort : Nat
  peerKind : Nat
  peerEncrypt : Bool
  keyed : Bool               -- link keys are in use
  again : Bool               -- the training under way is a retrain
  retrains : Nat             -- failed retrains in a row
  upAt : Nat
  txNum : Nat                -- number of the next flit sent
  replay : List SentFlit     -- unacknowledged flits, oldest first
  owed : Nat                 -- zero bytes of a NULL word that the next payload still owes
  nakNum : Nat               -- flit named by the last NAK received
  nakCount : Nat             -- NAKs received that named it and that it has outlived
  nakOut : Nat               -- NAKs sent that named one flit, and which flit
  nakName : Nat
  txGroup : Nat              -- data flits sent in the current tag group
  txGroups : Nat             -- tag groups sent
  txOpen : List (List Byte)  -- header and payload of each data flit of the tag group under way, before encryption
  key : Nat                  -- names the keys in use
  queue : List Txn           -- transactions waiting to be sent, oldest first
  credits : List Nat         -- credits held: classes 0 to 6, request then response
  deficit : List Nat         -- deficit counters of classes 1 to 5
  groupTurn : Nat                     -- the group in turn within COLLECTIVE, by FID (R410)
  groupDef : List (Nat × Nat)         -- deficits of the groups that have frames ready
  turn : Nat                 -- class of 1 to 5 whose turn it is
  mgmtDebt : Nat             -- bytes still to be sent before MANAGEMENT has its priority in full again
  rxNum : Nat                -- number of the next flit accepted
  discarding : Bool          -- a NAK is out and nothing has been accepted since
  ackOwed : Nat              -- flits accepted and not yet reported
  ackHeld : Nat              -- flits accepted from the first of a tag group whose tag has not come
  redo : Nat                 -- flits still to come again that were accepted before a tag failed
  stream : List Byte         -- received bytes not yet parsed
  heldGroup : List (Nat × List Byte)   -- data flits of the tag group whose tag has not come: header and payload
  rxGroups : Nat             -- tag groups accepted
  arrived : List Txn         -- transactions that wait to be handled
  freed : List Nat           -- credits freed and not yet returned, by class and channel
  timeRecv : Option (Nat × Nat)  -- T_SEND of the last TIME flit received, and when it came
  refused : Bool             -- REFUSED_REVISION holds until a full maintenance stop
  deriving DecidableEq, Repr

/-- What a read or a probe is for. -/
inductive ReadFor where
  | probe (seq node attempt index rights : Nat) (half : Half)     -- and the half whose FU asks
  | load (facet seq node attempt id at_ skip want : Nat)   -- bytes of the remote load `id` of a facet (RLOAD, RLOADT)
  | expert (seq node expert at_ skip want : Nat) (half : Half)     -- a half's EFU under DIRECT: bytes at an offset of the expert
  | gone (half : Half) (efu : Bool)              -- a killed attempt's, its half, and whether an EFU sent it: its answer is dropped (R189)
  | piece (xfer at_ skip want : Nat)              -- GET of ASYNC_COPY_REMOTE: bytes at an offset of the transfer
  | startSector (start member skip : Nat)        -- start broadcast: a member's status sector
  | startTable (start at_ : Nat)                 -- bytes at an offset of the chunk table
  | startChunk (start chunk at_ : Nat)           -- bytes at an offset of a chunk
  | restore (at_ : Nat)
  deriving DecidableEq, Repr

/-- A start broadcast under way (R501 to R505). -/
structure JStart where
  id : Nat               -- which start it is
  job : Nat
  region : Nat
  base : Nat             -- LOCAL address of the start region
  members : List Nat     -- device IDs by member index
  me : Nat               -- own member index
  fan : Nat
  k : Nat                -- chunks
  parent : Nat           -- member index
  have_ : Nat            -- chunks held, counting from 0
  table : Bool           -- chunk table held
  tableLeft : Option Nat -- bytes of the table still to arrive
  out : List (Nat × Nat × Nat)   -- chunks outstanding: chunk, bytes still to arrive, failures before
  got : List Nat         -- checked chunks beyond HAVE
  seen : Option Nat      -- HAVE of the parent when it was last read
  seenTable : Bool
  movedAt : Nat          -- when the parent's HAVE last advanced
  asking : Bool          -- a read of the parent's sector is out
  children : List Nat
  lost : List Nat        -- children declared lost
  allAt : Option Nat     -- when every chunk was held
  deriving DecidableEq, Repr

/-- Why a request was released: who hears of a refusal. -/
inductive ReqFor where
  | node (job tag nodeId : Nat) (half : Half)   -- a command's released effect, and the half whose FU sends it
  | engine (half : Half)                        -- a device engine's own message
  | deliver (home member : Nat)                 -- an INVALIDATE delivered to a member for a held acknowledgement
  | gone (half : Half)                          -- a command of a job that has been removed
  deriving DecidableEq, Repr

/-- A released request that has not been acknowledged (R363). -/
structure HeldReq where
  seq : Nat
  txn : Txn
  slot : Option Nat       -- slot it was sent on; none while it waits
  at_ : Nat               -- when it was sent
  for_ : ReqFor
  deriving DecidableEq, Repr

/-- An outstanding read, probe or BULK GET. -/
structure OutRead where
  tag : Nat
  txn : Txn
  slot : Option Nat
  at_ : Nat
  for_ : ReadFor
  deriving DecidableEq, Repr

/-- A FENCE sent and not answered, or that waits for its MARK. -/
structure OutFence where
  seq : Nat
  node : Nat
  job : Nat
  mark : Nat
  ahead : Nat             -- stalled requests that it covers and that have no SEQ yet: MARK is the SEQ of the last of them
  slot : Option Nat
  at_ : Nat
  deriving DecidableEq, Repr

/-- What the source keeps for one destination (R363, R375). -/
structure Dest where
  nextSeq : Nat
  held : List HeldReq
  waiting : List (Txn × ReqFor)       -- released requests stalled for want of a SEQ, oldest first
  reads : List OutRead
  fences : List OutFence
  refused : List (Nat × Nat × Nat)    -- job, SEQ and status of refused requests
  dead : List (Nat × Nat)             -- slots declared dead, and when
  heard : Nat                         -- when the destination last answered, or when the oldest wait began
  deriving DecidableEq, Repr

/-- A run of consecutive SEQs applied with OK and not yet acknowledged (R365). -/
structure AckRun where
  first : Nat
  count : Nat
  at_ : Nat
  tc : Nat
  deriving DecidableEq, Repr

/-- What a receiver keeps for one source (R364). -/
structure Win where
  lowest : Nat                        -- lowest SEQ that is not known to have been applied
  newest : Nat
  marks : List (Nat × Nat)            -- SEQs applied, with their statuses
  refused : List (Nat × Nat × Nat)    -- SEQ, job and status of those refused
  runs : List AckRun
  fences : List Txn                   -- FENCEs held until their MARK is reached
  lastAt : Nat
  deriving DecidableEq, Repr

/-- A region entry (R367). -/
structure Region where
  base : Nat
  span : Nat
  mode : Nat
  a : Bool
  w : Bool
  r : Bool
  inv : Bool
  reach : Nat
  client : Nat
  owner : Nat
  job : Nat
  readers : Nat
  id : Nat
  deriving DecidableEq, Repr

/-- An entry of the ordered-add table (R362): the exact sum of each lane in units of 2^-149 for FP32 and 2^-133 for
BF16, and its special values. -/
structure OrdLane where
  sum : Int
  nan : Bool
  pinf : Bool
  ninf : Bool
  deriving DecidableEq, Repr

/-- An ordered-add entry. -/
structure OrdEntry where
  job : Nat
  addr : Nat
  bf16 : Bool
  lanes : List OrdLane
  region : Nat
  deriving DecidableEq, Repr

/-- An INVALIDATE at its home device that waits for its readers (R378). -/
structure HomeInv where
  id : Nat
  src : Nat
  seq : Nat
  tc : Nat
  job : Nat
  region : Nat
  waiting : List Nat              -- members whose acknowledgement is outstanding
  status : Nat
  deriving DecidableEq, Repr

/-- A region entry that has been removed while requests translated through it are still being applied (R369). -/
structure Leaving where
  entry : Region
  waits : List (Nat × Nat)        -- source and SEQ of the writes among them
  deriving DecidableEq, Repr

/-- A GET of ASYNC_COPY_REMOTE after its commit (R386). -/
structure GetXfer where
  id : Nat
  job : Nat
  tag : Nat
  nodeId : Nat
  dev : Nat
  region : Nat
  off : Nat
  local_ : Nat
  len : Nat
  counter : Nat
  next : Nat              -- bytes asked for
  got : Nat               -- bytes landed
  deriving DecidableEq, Repr

/-- The fabric unit. -/
structure Fab where
  ports : List (Nat × FPort)              -- ports that differ from a cold one
  loop : List Txn                         -- requests and responses of the device to itself
  routes : List (Nat × Nat)               -- destination, 64-bit entry
  regions : List Region
  readers : List ((Nat × Nat) × Nat)      -- (set, member), its 16 bytes as a number
  dests : List (Nat × Dest)
  wins : List (Nat × Win)
  ords : List ((Half) × OrdEntry)
  homes : List HomeInv
  leaving : List Leaving
  gets : List GetXfer
  nextId : Nat
  deriving DecidableEq, Repr

/-- A port that has never trained. -/
def FPort.cold : FPort :=
  { st := .down, peerDev := 0, peerPort := 0, peerKind := 0, peerEncrypt := false, keyed := false, again := false, retrains := 0, upAt := 0,
    txNum := 0, replay := [], owed := 0, nakNum := 0, nakCount := 0, nakOut := 0, nakName := 0, txGroup := 0, txGroups := 0, txOpen := [],
    key := 0, queue := [], credits := List.replicate 14 0, deficit := List.replicate 5 0, turn := 1, groupTurn := 0, groupDef := [], mgmtDebt := 0, rxNum := 0,
    discarding := false, ackOwed := 0, ackHeld := 0, redo := 0, stream := [], heldGroup := [], rxGroups := 0, arrived := [],
    freed := List.replicate 14 0, timeRecv := none, refused := false }

/-- A destination that nothing has been sent to. -/
def Dest.cold : Dest :=
  { nextSeq := 0, held := [], waiting := [], reads := [], fences := [], refused := [], dead := [], heard := 0 }

/-- The fabric unit at reset. -/
def Fab.cold : Fab :=
  { ports := [], loop := [], routes := [], regions := [], readers := [], dests := [],
    wins := [], ords := [], homes := [], leaving := [], gets := [], nextId := 0 }

end Sys2Proof.Machine
end

