-- ==== Sys2Proof/Machine/StateCe.lean ====
section
/-! DEFINITION. State of the collective engines (chapter 12). -/

namespace Sys2Proof.Machine

open Sys2Proof

/-- An installed group (R396). Its members are device IDs, in member order. -/
structure Group64 where
  fid : Nat
  job : Nat
  epoch : Nat
  me : Nat               -- SELF
  tapMember : Nat
  tapOn : Bool
  fan : Nat              -- F, 2 to 16
  weight : Nat
  members : List Nat
  nextSeq : Nat          -- the COLL_SEQ counter
  deriving DecidableEq, Repr

/-- An arrival bitmap (R414). -/
structure Bitmap where
  id : Nat               -- the operation it belongs to
  job : Nat
  tag : Nat
  inst : Nat
  half : Half
  pieces : Nat
  done : List Nat
  verified : Bool
  deriving DecidableEq, Repr

/-- A frame that has arrived (R398). -/
structure CeFrame where
  epoch : Nat
  seq : Nat
  kind : Nat
  parts : Nat            -- 1 or 2
  part : Nat
  src : Nat              -- sender's member index
  index : Nat
  body : List Byte
  deriving DecidableEq, Repr

/-- A VOTE of a subtree (R417). -/
structure CeVote where
  member : Nat
  ok : Bool
  mismatch : Bool
  digest : Nat
  bad : List Nat
  deriving DecidableEq, Repr

/-- One operation of a group: a COLLECTIVE, or the exchange of a FETCH_EXPERTS. -/
structure CeOp where
  id : Nat
  group : Nat
  inst : Nat
  node : Nat
  exch : Bool
  seq : Nat              -- its COLL_SEQ
  half : Half
  nb : List Byte         -- the node's 128 bytes
  strict : Bool
  size : Nat             -- S, or 0 while a BROADCAST member does not know it
  list : Option (List Nat)          -- the tile list, once it is known (R418)
  experts : Nat                     -- E under EXPERT_SET
  absent : Nat                      -- experts the union leaves out
  presence : List (Nat × List Byte) -- PRESENCE bitmaps of children
  raised : Bool                     -- this member's own PRESENCE has gone up, or its UNION down
  union : List Byte
  touched : Nat                     -- TOUCHED_BASE of the entry that the dispatch read (R222, R232)
  ready : List Nat                  -- members whose READY has arrived
  done : List Nat                   -- DST tiles that stand whole
  bad : List Nat                    -- tile indices this member votes bad
  first : List CeFrame              -- parts whose other part has not come
  inbox : List (Nat × Nat × List Byte)   -- PARTIAL tiles that have come: source, index, stored bytes
  early : List CeFrame              -- whole frames of the round after this one
  sent : List (Nat × Nat × Nat)     -- data frames sent: kind, member, index
  asked : List (Nat × Nat × Nat)    -- RESEND requests made: source, index, how many
  round : Nat
  votes : List CeVote
  voted : Bool
  heard : Nat                       -- when it last received a frame
  orders : List (Nat × List Nat)    -- order in which children were added, by tile index (R408)
  told : List Nat                   -- members whose loss has been reported
  tapped : Nat                      -- tiles tapped as partner
  tapFull : Bool                    -- a TAP record found the tap ring full
  faults : List (Nat × Nat)         -- parity errors inside the CE, by tile index (R416)
  left : Bool                       -- its node was killed here: it only hands the verdict on to its children (R421)
  verified : Bool
  deriving DecidableEq, Repr

/-- A frame that met a member of an older epoch, to be sent again (R399). -/
structure CeRetry where
  group : Nat
  op : Nat
  dest : Nat
  data : List Byte
  tc : Nat
  due : Nat
  deriving DecidableEq, Repr

/-- The collective engines. -/
structure Ce where
  groups : List (Nat × Group64)
  spare : List ((Nat × Nat) × Nat)      -- member words of a group index that is not VALID
  ops : List CeOp
  past : List CeOp                      -- exchanges that have ended, whose owner still answers a REPAIR (R122)
  nextOp : Nat
  bitmaps : List Bitmap
  held : List (Nat × CeFrame)           -- frames of operations that have not begun here, by group
  retries : List CeRetry
  deriving DecidableEq, Repr

/-- The collective engines at reset. -/
def Ce.cold : Ce := { groups := [], spare := [], ops := [], past := [], nextOp := 0, bitmaps := [], held := [], retries := [] }

end Sys2Proof.Machine
end

