-- ==== Sys2Proof/Machine/StateTgu.lean ====
section
/-! DEFINITION. State of the Task Graph Unit (chapter 10): instances, nodes, attempts, frame-locked graphs. -/

namespace Sys2Proof.Machine

open Sys2Proof

/-- Node states of R311. -/
inductive NodeSt where
  | waiting | ready | running | committing | done
  deriving DecidableEq, Repr

/-- A run of bytes written from an address on. -/
structure Run where
  addr : Nat
  bytes : List Byte
  deriving DecidableEq, Repr

/-- An expert retained on a facet, or captured for one (R148). `used` is the time of its last use. -/
structure Retained where
  job : Nat
  table : Nat
  expert : Nat
  crc : Nat
  sectors : Nat                 -- DENSE_SECTORS
  tiles : List (List Byte)      -- uncompressed tiles in stored order
  used : Nat
  deriving DecidableEq, Repr

/-- What a commit-log entry or a commit effect does when it is released after step 3 (R188, R325). -/
inductive LogEntry where
  | write (dev region off : Nat) (bytes : List Byte)
  | atomic (dev region off op : Nat) (bytes : List Byte)
  | notice (bytes : List Byte)
  | put (dev region off local_ len counter : Nat)
  | get (dev region off local_ len counter : Nat)
  | invalidate (dev region : Nat) (newOwner : Option Nat)
  | hostWrite (addr : Nat) (bytes : List Byte)
  | irq (vector : Nat)
  deriving DecidableEq, Repr

/-- A local effect that step 3 of a commit takes besides the staged writes (R325). -/
inductive CommitAct where
  | alloc (half : Half) (pool idx : Nat) (flags : Nat)
  | bpm (op : Nat) (handle grantee owner : Nat) (onRefuse : Bool)
  | add64 (addr : Nat) (value : Nat)
  | count (half : Half) (off : Nat) (n : Nat)       -- a counter that advances at commit
  | presence (base expert : Nat) (value : Bool)     -- one bit of a presence bitmap (R231)
  | presenceClear (base bytes : Nat)                -- a whole presence bitmap cleared by CONSUME_SET
  | genLive (job gen : Nat)
  | retain (facet : Nat) (entry : Retained)
  | window (job param : Nat) (expert : Option Nat) (ring : Option (Nat × Nat))   -- a gradient window opens or closes (R225)
  | tapDone (dest fid seq status : Nat)             -- TAP_RESULT of a tapped collective (R477)
  deriving DecidableEq, Repr

/-- A probe of R370: logical index, device, region, rights, and whether it has returned OK. -/
structure Probe where
  index : Nat
  dev : Nat
  region : Nat
  rights : Nat
  ok : Bool
  deriving DecidableEq, Repr

/-- Why an attempt waits although its engine has nothing left to do. -/
inductive EngSt where
  | idle
  | working                  -- the engine has not finished
  | complete                 -- the engine reports its work complete
  | polling (next addr value cond poll timeout : Nat)   -- HOST_WAIT: time of the next poll, and its operands
  | fencing (marks : List (Nat × Nat))         -- FENCE: destination and MARK
  | cutting                                    -- SNAPSHOT
  | probing (tag : Nat)                        -- ASYNC_COPY_REMOTE, OWN_TRANSFER, INVALIDATE
  | transferring (left : Nat)                  -- remote copy still to arrive
  deriving DecidableEq, Repr

/-- One node of an instance (R296, R311). -/
structure Node where
  st : NodeSt
  released : Nat
  pred : Nat
  succ : List Nat            -- successor list read at dispatch
  succCount : Nat
  succOff : Nat
  opcode : Nat
  notify : Bool
  id : Nat
  affinity : Nat
  shapeRef : Nat
  shape : Option Nat         -- resolved value v (R316)
  status : Nat
  reruns : Nat
  contained : Nat            -- CONTAINED re-runs, counted toward the limit
  attempt : Nat              -- attempts started
  tdc : Nat
  start : Nat                -- start time of the last attempt, 0 when never
  readyAt : Nat
  dispOrd : Nat              -- order of dispatch
  readyOrd : Option Nat      -- order in which the node became ready to commit
  acked : Bool               -- the shadow has acknowledged the commit
  taint : Option Nat         -- status of the first detector (R446)
  given : List Nat           -- positions of its successor list that have been released early (R312, R415)
  heldNs : Nat               -- facet-ns of facets it has given back (R342)
  gates : List Nat           -- collectives that released it early (R415)
  eng : EngSt
  staged : List Run          -- staged local writes, in order
  held : List Run            -- local writes that wait for a shadow frame (R327, R328)
  log : List (Nat × LogEntry)   -- with the logical index of its instance
  acts : List CommitAct
  facets : List Nat          -- facets held
  avoid : List Nat           -- facets a re-run avoids (R446)
  nextIndex : Nat            -- next logical index to hand out
  ended : Nat                -- instances ended
  logBy : List (Nat × Nat × Nat)   -- commit logs of ended instances: facet, bytes and instance (R188)
  count : Nat                -- instances of the command
  waitsOn : List Nat         -- collectives waited on that are not verified yet
  probes : List Probe
  tiles : Bool               -- a stream consumer still waits for tiles of its expert (R113)
  sfod : Option Bool         -- FAULT_ON_DROP of TGU_SPARSE_CFG at the first dispatch (R209)
  remoteOff : Bool           -- the re-run waits for remote access (R186)
  gen : Nat                  -- routing generation
  stalled : Bool             -- waits for a shadow frame (R327, R328)
  passed : Bool              -- it has passed a lower key of its chain (R227)
  pinned : Bool              -- never pre-empted by its operands (EXCHANGE, R334)
  result : Nat               -- status with which a refusal under RECORD commits
  deriving DecidableEq, Repr

/-- One graph instance in flight (R309). -/
structure Inst where
  fn : Nat
  ring : Nat
  job : Nat
  client : Nat
  gsd : List Byte            -- its 64-byte descriptor
  base : Nat                 -- GRAPH_BASE
  tag : Nat
  setupHash : Nat
  recBase : Nat
  recDepth : Nat
  report : Bool              -- REPORT GRAPH
  irq : Bool                 -- INTERRUPT
  lane : Nat
  prio : Nat
  policy : Nat
  frameId : Option Nat       -- frame-locked graph it belongs to
  number : Nat               -- instance number
  tick : Nat                 -- TGU_TICK_COUNT of the arming tick
  deadline : Option Nat
  admitted : Nat             -- device time of creation
  strict : Bool
  nodes : List Node
  firstBad : Option (Nat × Nat)   -- NODE_ID and status of the first node neither OK nor NULL_COMPLETED
  tdc : Nat
  reruns : Nat
  aborting : Bool
  deriving DecidableEq, Repr

/-- One frame-locked graph (R337 to R339). -/
structure FrameGraph where
  fn : Nat
  ring : Nat
  job : Nat
  gsd : List Byte            -- its 64-byte descriptor
  seq : Nat                  -- admission sequence for arming order
  armed : Bool
  given : Nat                -- instance numbers given
  ticks : Nat                -- ticks until the next arming
  waiting : List (Nat × Nat × Nat) -- armings waiting for space: instance number, tick count, tick time
  deriving DecidableEq, Repr

/-- A grace timer of R333 for a READY node. -/
structure Grace where
  inst : Nat
  node : Nat
  due : Nat
  dropped : Option Nat       -- set when it expired with nothing to kill: a new one starts no earlier
  deriving DecidableEq, Repr

/-- A committed shadow frame waiting for copy-back (R327). -/
structure FrameOut where
  half : Half
  page : Nat                 -- LOCAL address of the page
  size : Nat
  deriving DecidableEq, Repr

/-- A write to a lead-only register waiting for its shadow batch (R548). -/
structure LWrite where
  fn : Nat
  half : Half
  off : Nat
  value : Word32
  sent : Bool                -- its batch has been sent
  deriving DecidableEq, Repr

/-- The Task Graph Unit in charge, and what its shadow holds (R458). -/
structure Tgu where
  insts : List (Nat × Inst)  -- key admission sequence
  nextSeq : Nat
  frames : List (Nat × FrameGraph)
  nextFrame : Nat
  ord : Nat                  -- counts dispatches and step 3s
  readyNext : Nat            -- next commit-readiness order
  blockOrd : List (Nat × Nat)   -- 64-byte block, order of its last step 3 (R329)
  graces : List Grace
  outFrames : List FrameOut
  frozen : List (Nat × Nat)         -- job and parameter of the entries that were FROZEN when a gradient-kind node last read them
  windows : List ((Nat × Nat × Nat) × (Nat × Nat))   -- open gradient windows: job, parameter, expert; function and ring
  lwrites : List LWrite
  batchOut : List (Nat × Nat)    -- commits sent in the batch under way
  batchSeen : List (Nat × Nat)   -- commits the shadow has recorded, not yet acknowledged
  shadowAcked : List (Nat × Nat) -- commits acknowledged whose completion has not been reported
  commits : Nat              -- commits that have completed step 6
  ackedCommits : Nat         -- commits acknowledged by the shadow
  tickCount : Nat
  tickTime : Nat
  tickGap : Nat              -- interval between the last two accepted ticks
  lastTick : Option Nat
  deriving DecidableEq, Repr

end Sys2Proof.Machine
end

