-- ==== Sys2Proof/Machine/StateEfu.lean ====
section
/-! DEFINITION. State of the expert fetch units (chapter 04). -/

namespace Sys2Proof.Machine

open Sys2Proof

/-- An expert-table entry (R60). -/
structure Entry where
  loc : Nat
  secs : Nat           -- STORED_SECTORS
  ty : Nat
  tiles : Nat
  dense : Nat          -- DENSE_SECTORS
  sparsity : Nat
  mats : Nat
  dev : Nat
  crc : Nat
  deriving DecidableEq, Repr

/-- A resident copy (R116). `used` is the time of its last use. -/
structure Resident where
  job : Nat
  base : Nat
  expert : Nat
  crc : Nat
  tiles : List (List Byte)     -- uncompressed tiles in stored order
  bytes : Nat
  client : Nat
  used : Nat
  deriving DecidableEq, Repr

/-- One expert that streams to consumers (R105, R109). -/
structure Stream where
  expert : Nat
  entry : Entry
  users : List (Nat × Nat)     -- consumer node and facet
  half : Half                  -- EFU that reads it (R106)
  source : Nat                 -- orders 1 to 6 of R107
  tile : Nat                   -- next tile
  off : Nat                    -- stored bytes already read
  todo : List (Nat × Nat)      -- pieces of a peer's bytes not asked for yet: offset and length
  mats : Nat                   -- matrices begun
  data : List (Nat × List Byte)    -- stored bytes that have come from elsewhere, by offset
  dense : List (List Byte)     -- uncompressed tiles: a resident copy read, or a copy being made
  rereads : Nat                -- re-reads, or REPAIRs, of the tile under way
  again : Bool                 -- a redelivery (R115)
  ended : Bool
  deriving DecidableEq, Repr

/-- An expert staged by the predictor (R118): its stored bytes that have come, by offset, and the pieces of a peer's
bytes that have not been asked for yet. -/
structure Staged where
  expert : Nat
  half : Half
  entry : Entry
  data : List (Nat × List Byte)
  todo : List (Nat × Nat)
  deriving DecidableEq, Repr

/-- An expert that arrives by exchange (R122): its owner's member index, its TILE_COUNT, and by tile number the parts, the
checked tiles that staging holds and those that wait for space in it (R239). -/
structure ExchIn where
  expert : Nat
  owner : Nat
  want : Nat
  parts : List ((Nat × Nat) × List Byte)       -- by tile and part
  tiles : List (Nat × List Byte)
  parked : List (Nat × List Byte)
  repairs : Nat
  deriving DecidableEq, Repr

/-- Life of a FETCH_EXPERTS in the EFU. -/
inductive FetchSt where
  | prefetch      -- the prefetch state of R118
  | running
  | waiting       -- killed: it waits for its re-run
  | ended         -- committed, or NULL_COMPLETED: kept for its consumers
  deriving DecidableEq, Repr

/-- One FETCH_EXPERTS (R101). -/
structure Fetch where
  seq : Nat
  node : Nat
  st : FetchSt
  isNull : Bool
  job : Nat
  fn : Nat
  client : Nat
  base : Nat
  areas : List Nat
  e : Nat
  slot : Nat
  prefetch : Bool
  keep : Bool
  mode : Nat
  first : Nat
  last : Nat
  tiles : Nat                  -- SLOT_TILES
  group : Nat
  entries : List (Nat × Entry)     -- entries read, one read each (R62)
  predicted : List Nat
  staged : List Staged
  demand : List Nat
  passed : Nat                 -- experts below have been passed or started
  freed : List (Nat × Nat)     -- consumers released: node index and successor position
  begun : List Nat             -- experts started in this attempt
  streams : List Stream
  made : List (Half × Resident)    -- resident copies that become usable at commit
  op : Option Nat              -- the exchange's operation of its group
  demands : List (Nat × List Byte)     -- DEMAND bitmaps by member
  served : Bool                -- own experts have been sent to peers
  exch : List ExchIn
  deriving DecidableEq, Repr

/-- A predictor slot (R117). -/
structure Pred where
  job : Nat
  base : Nat
  bits : List Nat
  deriving DecidableEq, Repr

/-- The expert fetch units. -/
structure Efu where
  fetches : List Fetch
  residents : Both (List Resident)
  preds : Both (List (Nat × Pred))
  deriving DecidableEq, Repr

/-- The EFUs at reset. -/
def Efu.cold : Efu := { fetches := [], residents := ⟨[], []⟩, preds := ⟨[], []⟩ }

end Sys2Proof.Machine
end

