-- ==== Sys2Proof/Machine/StateFacet.lean ====
section
/-! DEFINITION. State of the facets (chapter 05). -/

namespace Sys2Proof.Machine

open Sys2Proof

/-- A WAIT_ANY window (R182): bitmap handle, first piece, pieces, and those already returned. -/
structure AnyWin where
  handle : Nat
  base : Nat
  count : Nat
  returned : List Nat
  deriving DecidableEq, Repr

/-- A remote load that has not arrived whole (R184): its group, the sector it goes to, and the bytes that have come. An
RLOADT (`tile`) first awaits its header, then the whole stored tile. -/
structure Incoming where
  id : Nat
  group : Nat
  sector : Nat
  tile : Bool
  len : Nat                  -- bytes expected
  loads : Nat                -- loads it counts in its group
  dev : Nat
  region : Nat
  off : Nat
  parts : List (Nat × List Byte)
  deriving DecidableEq, Repr

/-- One facet running instances of a command (R143, R146, R151). -/
structure FacetRun where
  seq : Nat
  node : Nat
  attempt : Nat
  index : Nat                 -- logical index of the instance
  count : Nat                 -- instances of the command
  job : Nat
  strict : Bool
  nb : List Byte              -- the node's 128 bytes
  loaded : Bool               -- code is in instruction memory
  code : List Word64
  pc : Int                    -- instruction index, relative to CODE_BASE
  s : List Word64             -- S0 to S31
  tp : List Nat               -- TP0 to TP63, 16 bits
  v : List (Nat × List Word32)       -- vector registers that have been written
  acc : List (Nat × List Word32)     -- accumulator slots that have been written
  scratch : List (Nat × List Byte)   -- sectors that have been written
  calls : List Int            -- return addresses, newest first
  logUsed : Nat               -- commit-log bytes of this instance
  logAll : Nat                -- commit-log bytes of every instance on this facet
  groups : List Nat           -- outstanding remote loads by group
  incoming : List Incoming
  nextLoad : Nat              -- identifies remote loads on this facet
  window : Option AnyWin
  waiting : Option Nat        -- time at which a wait began
  steps : Nat                 -- instructions issued by this instance
  scratchSec : Nat            -- SCRATCH_SECTORS
  slotBase : Nat
  slotSec : Nat               -- SLOT_SECTORS
  slotTiles : Nat             -- SLOT_TILES
  ring : List (Option (List Byte))   -- the slot ring: uncompressed tiles that have arrived
  delivered : Nat             -- tiles written into the ring so far
  drain : Bool                -- the instance has ended and its ring is released
  expert : Option (Nat × Nat × Nat)  -- stream consumer: TABLE_BASE, expert and entry CRC once known
  capture : Bool              -- RETAIN is set and the expert is not already retained
  caught : List (List Byte)   -- tiles captured so far
  replay : Bool               -- the expert is retained here: no delivery is made
  fod : Bool                  -- FAULT_ON_DROP of the node
  sfod : Bool                 -- FAULT_ON_DROP of TGU_SPARSE_CFG at dispatch
  started : Nat               -- start of the instance
  takenAt : Nat               -- when the command took the facet
  lent : Bool                 -- it runs the other lane's node
  lane : Option Nat           -- lane of the facet until its node ends (R234)
  deriving DecidableEq, Repr

/-- The facets: those that hold a command, and what each retains (R148). -/
structure Facets where
  runs : List (Nat × FacetRun)
  retained : List (Nat × Retained)
  deriving DecidableEq, Repr

/-- Facets with nothing loaded. -/
def Facets.cold : Facets := { runs := [], retained := [] }

end Sys2Proof.Machine
end

