-- ==== Sys2Proof/Machine/StateHost.lean ====
section
/-! DEFINITION. State of the host ports, rings, jobs and interrupts (chapter 09), and of buffers (chapter 08). -/

namespace Sys2Proof.Machine

open Sys2Proof

/-- Ring states, the STATE codes of HOST_RING_STATUS (R305). FENCED is not stored: it is how an enabled or draining
ring reads while its pages are fenced (R285). -/
inductive RingSt where
  | disabled | enabled | draining | halted | refused
  deriving DecidableEq, Repr

/-- A Completion Record handed to the write-back unit (R288): its 32 bytes without PHASE, and whether it signals. -/
structure HeldRec where
  bytes : List Byte
  signal : Bool
  at_ : Option Nat     -- address in a node-record array, or none for the CQ
  deriving DecidableEq, Repr

/-- One ring pair (R283 to R288). -/
structure Ring where
  st : RingSt
  halt : Nat           -- HALT_STATUS
  sqTail : Nat
  sqHead : Nat
  cqHead : Nat
  cqTail : Nat
  held : List HeldRec
  broken : Bool        -- a record write ended in error (R306)
  wbDue : Bool         -- an SQ_HEAD write-back is owed
  wbLast : Option Nat  -- time of the last SQ_HEAD write-back
  abortLo : Option Word32   -- holding register of HOST_DB_ABORT_TAG
  skip : List Nat      -- unadmitted descriptors already completed ABORTED
  failed : List Nat    -- descriptors whose host read ended in error
  deriving DecidableEq, Repr

/-- One event ring (R289). -/
structure EvtRing where
  on : Bool
  head : Nat
  tail : Nat
  seq : Nat
  lost : Nat           -- dropped since enable, saturating at 65,535
  lostSince : Nat      -- dropped since the last EVENT_LOST
  deriving DecidableEq, Repr

/-- One cause held for an MSI-X vector (R304). -/
structure IrqCause where
  modUs : Nat
  deriving DecidableEq, Repr

/-- One MSI-X vector. -/
structure Vec where
  addr : Nat
  data : Nat
  masked : Bool
  pend : Bool
  last : Option Nat        -- time of the last message
  causes : List IrqCause
  deriving DecidableEq, Repr

/-- State of one PCIe function. -/
structure Func where
  pagesOn : Bool           -- doorbell pages enabled
  payload : Nat            -- maximum payload size, code 0 to 2
  readReq : Nat            -- maximum read request size, code 0 to 5
  d3hot : Bool             -- power state D3hot
  evt : EvtRing
  vecs : List (Nat × Vec)
  deriving DecidableEq, Repr

/-- State of one host port (R275, R277). -/
structure Port where
  perst : Bool             -- PERST_N deasserted
  cfgReady : Bool          -- configuration space ready
  speed : Nat
  width : Nat
  flit : Bool
  ide : Bool               -- the link IDE stream is active
  ideStopped : Bool        -- an IDE stream has stopped and no new session keys it (R529)
  vfEnable : Bool
  numVfs : Nat             -- NumVFs of the SR-IOV capability
  deriving DecidableEq, Repr

/-- A resident job (R282). -/
structure Job where
  client : Nat
  fn : Nat                 -- creating function
  seed : Nat
  slot : Nat               -- key slot
  keyEpoch : Nat           -- which key pair the slot holds
  genNext : Nat            -- next value of the generation counter (R92)
  remote : Bool            -- remote access enabled (R387)
  guarded : Bool           -- under Mirror protection (R475)
  trainOn : Bool           -- training set-up declared (R220)
  trainTied : Nat
  trainBase : Nat
  trainCount : Nat
  deriving DecidableEq, Repr

/-- Life of a buffer between its bitmap and its holders (R262, R264). -/
inductive BufSt where
  | taken      -- taken by an ALLOC that has not committed
  | held
  | freeing    -- freed, but not yet back in its bitmap
  deriving DecidableEq, Repr

/-- One buffer outside its bitmap (R255 to R264). -/
structure Buf where
  half : Half
  pool : Nat
  idx : Nat
  base : Nat               -- LOCAL handle
  size : Nat               -- bytes
  st : BufSt
  holders : List Nat       -- job IDs
  owner : Nat              -- last owner
  client : Nat             -- client charged
  flags : Nat              -- allocation flags (R248)
  isSealed : Bool
  keyEpoch : Nat
  deriving DecidableEq, Repr

/-- A 64-byte unit of a stack whose ciphertext another key made than the one its page now records (R245, R264): the unit
a[40:6], the epoch of the key that made it, and the data that key gives. -/
structure Cipher where
  unit : Nat
  epoch : Nat
  data : List Byte
  deriving DecidableEq, Repr

/-- The host side of the device. -/
structure HostSt where
  ports : Both Port
  funcs : List (Nat × Func)
  rings : List (Nat × Ring)          -- key 16 * function + ring
  jobs : List (Nat × Job)            -- key job ID
  goneSlots : List (Nat × Nat)       -- key slots of removed jobs still recorded by pages: slot, key epoch
  nextEpoch : Nat
  bufs : List Buf
  pageKey : List (Nat × Nat)         -- 64 KiB stack page, key epoch that its protection entry records
  ciphers : List Cipher              -- units that another key made
  poison : List Nat                  -- poisoned 64-byte blocks of device memory
  scrub : List (Nat × Nat)           -- stack, next block of the patrol scrub
  deriving DecidableEq, Repr

end Sys2Proof.Machine
end

