-- ==== Sys2Proof/Machine/StateTop.lean ====
section
/-! DEFINITION. State of the package as a whole: pins, fuses, start-up, lead control, time, power and the Secure
Controllers (chapters 00, 13, 14, 16, 17, 19). -/

namespace Sys2Proof.Machine

open Sys2Proof

/-- Lead state of a half, the STATE codes of TOP_LEAD_STATUS (R464). -/
inductive LeadSt where
  | electing | normal | lapsed | confirming | degraded | splitHalt | fenced
  deriving DecidableEq, Repr

/-- Start-up stage, the STAGE codes of TOP_DEVICE_STATUS (R493). -/
inductive Stage where
  | boot | election | training | baseline | ready | stopped
  deriving DecidableEq, Repr

/-- State of a Secure Controller (R495, R524). -/
inductive ScSt where
  | off        -- before RESET_N is deasserted
  | starting   -- in ROM, reading and verifying images
  | recovery   -- ROM recovery: no image verified
  | booted     -- an image runs
  | error      -- error state after a failed self-test
  deriving DecidableEq, Repr

/-- One half's own view of lead control and its lease (R457 to R464, R496). -/
structure LeadView where
  st : LeadSt
  lead : Half
  pref : Half
  bmc : Nat              -- BMC_RESULT: 0 none, 1 GRANT, 2 FENCE, 3 no reply
  term : Nat
  peerElect : Option (Nat × Nat)   -- HEALTH and DIGEST of the peer's ELECT
  electAt : Option Nat   -- device time of this half's first ELECT
  health : Nat           -- this half's HEALTH: 0 good, 1 bad
  lastValid : Nat        -- time of the last valid lease message
  leaseSeq : Nat         -- next SEQ of a LEASE
  seenSeq : Nat          -- SEQ of the last LEASE or LEASE_ECHO received
  seenMark : Nat         -- COMMIT_MARK of the last lease message received
  lapseAt : Option Nat   -- time of the lapse or of the ELECT timeout
  reqAt : Option Nat     -- time of the last LEAD_REQUEST
  reqKind : Nat          -- KIND of the outstanding LEAD_REQUEST, 0 none
  granted : Bool         -- this half has been granted in this power cycle
  leaseAt : Option Nat   -- time of the last LEASE sent
  deriving DecidableEq, Repr

/-- TOP_FATAL_STATUS (R464). -/
structure FatalStatus where
  valid : Bool
  status : Nat
  cause : Nat
  island : Nat
  deriving DecidableEq, Repr

/-- Lifecycle states (R526, DBG_LOCK_STATUS codes of R539). -/
inductive Lifecycle where
  | manufacture | provisioned | deployed | debugUnlocked | decommissioned
  deriving DecidableEq, Repr

/-- Flash slot states (R530). -/
inductive SlotSt where
  | empty | writing | staged | active | previous | invalid
  deriving DecidableEq, Repr

/-- One image or record slot of the boot flash (R530). `body` is what has been staged. -/
structure FlashSlot where
  st : SlotSt
  body : List Byte
  len : Nat
  digest : Nat
  version : Nat
  svn : Nat
  revision : Nat
  raise : Bool       -- the header asks to raise the minimum SVN
  tried : Bool       -- a staged image that has had its first boot
  devId : Nat        -- a record's FAB_DEVICE_ID
  memClk : Nat       -- a record's mem clk, MHz
  portCfg : List Word32   -- a record's FAB_PORT_CFG of blocks 0 to 31
  deriving DecidableEq, Repr

/-- The boot flash (R530, R544). -/
structure Flash where
  images : Both FlashSlot        -- slots A and B
  records : Both FlashSlot
  retired : List Nat             -- retirement list: facets 0 to 319
  fatalLog : List (List Byte)    -- 64-byte records, oldest first
  fatalBase : Nat                -- records the ring has dropped
  dirGen : Nat                   -- generation of the newer directory copy
  dirCopy : Bool                 -- which copy holds it
  deriving DecidableEq, Repr

/-- One I3C target with its MCTP endpoint (R509, R510). -/
structure I3c where
  addr : Option Nat
  rand : Word32          -- bits [31:0] of the Provisioned ID
  events : Bool          -- in-band interrupts enabled
  mrl : Nat
  mwl : Nat
  ibi : List Nat         -- mandatory data bytes waiting
  eid : Option Nat       -- endpoint ID of the I3C endpoint
  pcieEid : Option Nat   -- endpoint ID of the host port's endpoint
  outbox : List (List Byte)   -- messages waiting to be read by the BMC
  deriving DecidableEq, Repr

/-- Roles of R521. -/
inductive Role where
  | officer | operator | anyone
  deriving DecidableEq, Repr

/-- One SPDM session. -/
structure Session where
  id : Nat
  half : Half
  use : SessionUse
  role : Role
  updates : Nat          -- KEY_UPDATEs so far
  deriving DecidableEq, Repr

/-- A staging sequence in progress (R532). -/
structure Staging where
  image : Bool      -- true for an image, false for a record
  slot : Half       -- slot A as west, slot B as east
  len : Nat
  got : Nat
  deriving DecidableEq, Repr

/-- One telemetry sample (R516), as code and value bytes. -/
structure Telemetry where
  time : Nat
  items : List (Nat × List Byte)
  deriving DecidableEq, Repr

/-- One Secure Controller and the state the management plane keeps for its half. -/
structure Sc where
  st : ScSt
  slot : Half                   -- image slot booted
  digest : Nat                  -- bits [31:0] of the booted image's digest
  watchdog : Nat                -- time of the last watchdog reset
  selfTest : Nat                -- time of the last periodic self-test
  log : List (List Byte)        -- last 1,024 events (R544)
  logBase : Nat                 -- sequence of the oldest kept event
  mailBusy : Bool
  mailLen : Nat                 -- LENGTH_M1 of the response
  clk : Nat                     -- running facet clk in MHz
  temps : List Int              -- junction sensors, 1/256 degree, 16 per half
  stackTemp : Int               -- highest stack temperature, 1/256 degree
  droops : Nat                  -- droop events of this ms
  deriving DecidableEq, Repr

/-- One half's Health Monitor (R465 to R468). -/
structure Hm where
  e : List Nat           -- rates E_0 to E_4
  seen : List Nat        -- counter values at the last sample, inputs 0 to 4
  parity : Nat           -- CONTAINED reports with PARITY or TILE_CRC in this ms
  sram : Nat             -- single-bit corrections on die in this ms
  floor : Nat
  floorAt : Nat          -- time the decay started
  level : Nat            -- risk level
  prior : Nat            -- PRIOR, acting at the next reset
  deriving DecidableEq, Repr

/-- Piccolo's state of one facet (R534 to R537). -/
structure Pic where
  retired : Bool
  quar : Bool
  slice : Option (Nat × Bool)   -- slice under way, and whether it is forced
  sliceAt : Nat                 -- start of the slice under way
  next : Nat                    -- next slice of the rotation, 64 when it is complete
  rotated : Bool                -- a rotation was completed in this period
  overdue : Nat                 -- consecutive periods without a rotation
  errs : List Nat               -- times of CONTAINED errors within the last second
  redo : Option Nat             -- failed slice to repeat
  idleAt : Nat                  -- when the facet last fell idle
  deriving DecidableEq, Repr

/-- JTAG test logic (R542). -/
structure Jtag where
  ir : Nat                   -- instruction register
  boundary : List Bool       -- boundary register
  deriving DecidableEq, Repr

/-- The package as a whole. -/
structure Top where
  pwrGood : Bool
  resetN : Bool              -- level of RESET_N: true deasserted
  faultN : Bool              -- FAULT_N asserted
  thermAlert : Bool          -- THERM_ALERT_N asserted
  tickOut : Option Nat       -- time of the last FRAME_TICK_OUT pulse
  xspiReset : Bool           -- XSPI_RESET_N holds the flash in reset
  refclkOk : Bool            -- REFCLK_SYS runs
  grade : Nat                -- GRADE fuse: 1 CX-40A, 2 CX-40B
  stepping : Nat             -- STEPPING fuse
  fusedOff : List Nat        -- facets not enabled at manufacture, 0 to 319
  lifecycle : Lifecycle
  ownerHash : Option Nat     -- owner hash fuse
  minSvn : Nat               -- fused minimum SVN
  stage : Stage
  ready : Bool
  degraded : Bool
  stackUp : Nat              -- 16 bits
  baselineDone : Bool
  fatal : FatalStatus
  strictReq : Bool           -- TOP_DEVICE_MODE.STRICT
  strict : Bool              -- TOP_DEVICE_MODE.ACTIVE
  dispatchOff : Bool         -- the SCs have stopped admission and dispatch
  stopped : Bool             -- DEVICE_FATAL stop or SPLIT_HALT, until RESET_N
  maintStop : Bool           -- a MAINT_STOP has been accepted since RESET_N
  maintBoot : Bool           -- this start-up follows a full maintenance stop
  bootRetired : List Nat     -- facets on the retirement list at this boot
  lead : Both LeadView
  portLead : Option Half     -- half whose port carries the PF and VFs
  portLost : Both Bool       -- host port lost at a takeover
  timeSet : Bool             -- device time has been set by a source
  slew : Int                 -- ns of offset still to slew out
  ppsLast : Option Nat       -- time of the last accepted PPS edge
  sc : Both Sc
  flash : Flash
  i3c : Both I3c
  sessions : List Session
  nextSession : Nat
  nonce : Option (Nat × Nat) -- outstanding nonce and its issue time
  staging : Option Staging
  telemetry : Option Telemetry
  power : Nat                -- mean power over 10 ms, W
  halfPower : Both Nat
  ceiling : Nat              -- BMC ceiling, W
  capBelow : Nat             -- the counter `below` of R517
  tripped : Bool
  recovering : Bool          -- facet clk climbs after a trip, even while HELD (R519)
  coolSince : Option Nat     -- time from which every sensor has been below TRIP_C - 10
  capTime : Nat              -- time of the last cap step
  memClk : Nat               -- mem clk in MHz
  approved : Bool            -- approved mode of the module
  identityKey : Bool         -- the device identity key exists
  jtag : Jtag
  deriving DecidableEq, Repr

end Sys2Proof.Machine
end

