-- ==== Sys2Proof/Machine/StateLens.lean ====
section
/-! DEFINITION. State of the Lenses (chapter 04). -/

namespace Sys2Proof.Machine

open Sys2Proof

/-- A result notice (R129). -/
structure Notice where
  job : Nat
  gen : Nat
  expert : Nat
  first : Nat
  count : Nat
  rowBase : Nat
  buffer : Nat
  deriving DecidableEq, Repr

/-- What the Lens keeps for a COMBINE that has dispatched, and for its batch (R132). -/
structure Comb where
  seq : Nat
  node : Nat
  job : Nat
  gen : Nat
  nb : List Byte
  halves : List Half         -- halves that routed tokens of the batch
  budget : Nat               -- slots reserved in each of them
  used : Both Nat            -- slots taken
  got : List Notice          -- accepted notices, oldest first
  running : Bool             -- an attempt runs
  deriving DecidableEq, Repr

/-- The Lenses: COMBINEs, notices held for one not yet dispatched with the halves that hold them, and notices released by
commits that have not been handled. -/
structure Lens where
  combs : List Comb
  pending : List (List Half × Notice)
  transit : List Notice
  deriving DecidableEq, Repr

/-- The Lenses at reset. -/
def Lens.cold : Lens := { combs := [], pending := [], transit := [] }

end Sys2Proof.Machine
end

