-- ==== Sys2Proof/Machine/StateMir.lean ====
section
/-! DEFINITION. State of the Mirror (chapter 15). -/

namespace Sys2Proof.Machine

open Sys2Proof

/-- A tap plan of the protected device (R477). -/
structure MirPlan where
  fid : Nat
  seq : Nat              -- COLL_SEQ
  op : Nat               -- its own operation
  pages : List Nat       -- pages still TAP_PENDING
  bytes : Nat
  deriving DecidableEq, Repr

/-- A cut that drains (R472). -/
structure MirCut where
  n : Nat
  cause : Nat
  time : Nat
  pages : List Nat       -- frozen pages not yet pushed, ascending
  all : List Nat         -- every frozen page
  record : List Byte
  sent : Nat             -- record bytes sent
  closing : Bool         -- CUT_CLOSE has been sent
  rings : List (Nat × Nat × Nat)   -- ring key, SQ_HEAD, CQ_TAIL
  deriving DecidableEq, Repr

/-- A SNAPSHOT that waits for its cut (R480). -/
structure MirWait where
  inst : Nat
  node : Nat
  cut : Nat              -- cut it waits for
  addr : Nat             -- RESULT_ADDR
  guarded : Bool         -- its job is protected
  deriving DecidableEq, Repr

/-- A tap plan that a partner keeps (R477, R478). -/
structure HostPlan where
  fid : Nat
  seq : Nat              -- COLL_SEQ
  src : Nat              -- SRC
  size : Nat             -- S
  state : Nat            -- 0 open, 1 accepted, 2 dropped, 3 applied
  deriving DecidableEq, Repr

/-- A hosted copy, one for each half (R474). -/
structure MirHost where
  on : Bool
  device : Nat
  base : Nat
  slots : Nat
  gib : Nat
  read : Nat             -- bytes of the remote ring applied, counted on
  wrote : Nat            -- bytes of the remote ring that hold records, counted on
  tapRead : Nat
  tapWrote : Nat
  closed : Nat           -- last cut applied
  plans : List HostPlan
  deriving DecidableEq, Repr

/-- A restore under way (R481). -/
structure MirRestore where
  src : Nat
  job : Nat
  region : Nat           -- region of the copy area at the partner
  step : Nat             -- 0 area header, 1 record header, 2 record, 3 page map, 4 image, 5 complete
  slots : Nat
  cut : Nat              -- last closed cut of the copy
  buf : List Byte        -- what has arrived of the header, record or map being read
  record : List Byte
  map : List Byte
  wanted : Nat           -- bytes still to arrive of what has been asked for
  deriving DecidableEq, Repr

/-- The Mirror. -/
structure Mir where
  st : Nat               -- STATE codes of R479
  valid : Bool
  partner : Nat
  slots : Nat            -- SLOTS of the partner
  ring : Nat             -- bytes of the partner's remote ring
  area : Nat             -- region of the partner's copy area: its half code
  map : List (Nat × Nat × Nat)     -- slot, source page, job
  dirty : List Nat       -- the open dirty set
  plans : List MirPlan
  openCut : Nat          -- number of the open cut
  cut : Option MirCut
  asked : Option Nat     -- cause of a cut to take at the next commit boundary
  merged : Option Nat    -- cause of the cut to take after the one that drains
  lastCause : Nat
  lastResult : Nat
  closed : Nat
  closedAt : Nat         -- when it closed
  closedTime : Nat       -- device time of its boundary
  closedRings : List (Nat × Nat × Nat)
  openBytes : Nat        -- bytes of records tagged with the open cut
  openAt : Option Nat    -- position of the first of them
  syncCut : Nat          -- first cut that completes the full copy under way
  tail : Nat             -- position of the oldest record not yet freed at the partner, counted on
  pos : Nat              -- write position in the remote ring, counted on
  waits : List MirWait
  host : Both MirHost
  restore : Option MirRestore
  deriving DecidableEq, Repr

/-- A half that hosts nothing. -/
def MirHost.cold : MirHost :=
  { on := false, device := 0, base := 0, slots := 0, gib := 0, read := 0, wrote := 0, tapRead := 0, tapWrote := 0, closed := 0, plans := [] }

/-- The Mirror at reset. -/
def Mir.cold : Mir :=
  { st := 0, valid := false, partner := 0, slots := 0, ring := 0, area := 0, map := [], dirty := [], plans := [], openCut := 1,
    cut := none, asked := none, merged := none, lastCause := 0, lastResult := 0, closed := 0, closedAt := 0, closedTime := 0,
    closedRings := [], openBytes := 0, openAt := none, syncCut := 0, tail := 0, pos := 0, waits := [], host := ⟨.cold, .cold⟩, restore := none }

end Sys2Proof.Machine
end

