-- ==== Sys2Proof/Machine/StatePrism.lean ====
section
/-! DEFINITION. State of the Prisms (chapter 03). -/

namespace Sys2Proof.Machine

open Sys2Proof

/-- A token context (R87). The Prism writes K and PAIR_OFFSET once the token's experts are known. -/
structure Ctx where
  half : Half
  token : Nat
  k : Nat
  off : Nat              -- PAIR_OFFSET
  arrived : Nat
  deriving DecidableEq, Repr

/-- The contexts of one batch, which carry its generation (R88, R92). -/
structure Batch where
  seq : Nat              -- route node
  node : Nat
  job : Nat
  client : Nat
  gen : Nat
  area : Nat             -- OUT_BASE
  live : Bool
  rows : List Nat        -- X row of each token
  ctxs : List Ctx
  deriving DecidableEq, Repr

/-- A route node that a Prism holds (R90). -/
structure Route where
  seq : Nat
  node : Nat
  job : Nat
  client : Nat
  scored : Bool          -- ROUTE_SCORED
  nb : List Byte
  t : Nat                -- TOKEN_COUNT
  cut : Nat              -- tokens below go to the west Prism
  gen : Option Nat
  admitted : Both Nat    -- tokens admitted
  aside : Both Bool      -- set aside
  stallAt : Both (Option Nat)    -- when the stall under way began
  stall : Both Nat       -- ns stalled before it
  ord : Nat              -- order of dispatch
  deriving DecidableEq, Repr

/-- A generation held back (R92): job, value, and the commands of the job that were dispatched before it was retired and have
not completed. -/
structure HeldGen where
  job : Nat
  gen : Nat
  waits : List (Nat × Nat)
  deriving DecidableEq, Repr

/-- The X row of each token of the batch that a committed route node left in an area of its job (R83): a COMBINE in GRID mode
needs it after the batch is released. -/
structure AreaRows where
  job : Nat
  area : Nat             -- OUT_BASE
  rows : List Nat
  deriving DecidableEq, Repr

/-- The Prisms. -/
structure Prism where
  routes : List Route
  batches : List Batch
  back : List HeldGen
  areas : List AreaRows  -- of the last route node that committed in each area
  deriving DecidableEq, Repr

/-- The Prisms at reset. -/
def Prism.cold : Prism := { routes := [], batches := [], back := [], areas := [] }

end Sys2Proof.Machine
end

