-- ==== Sys2Proof/Machine/State.lean ====
section
/-! DEFINITION. The state of the block: device, device memory, host memory and the queue of waiting commands. -/

namespace Sys2Proof.Machine

open Sys2Proof

/-- Bytes by address in one canonical form: addresses strictly rising, and no listed byte equal to 0, which is what
an unlisted address reads as (assumption 3). -/
abbrev Memory := List Host.Cell

/-- The answer to the last command that reads: a register word, bytes, or how a request completed. -/
inductive Resp where
  | none
  | word (w : Word32)
  | bytes (bs : List Byte)
  | completerAbort
  | unsupported
  | retryStatus
  | ok
  deriving DecidableEq, Repr

/-- What the device has sent out of the package or over the half bridge, oldest first. -/
inductive Out where
  | msix (fn vector addr data : Nat)
  | bmc (half : Half) (bytes : List Byte)
  | bridge (sender : Half) (bytes : List Byte)
  | flit (port : Nat) (bytes : List Byte)
  | report (half : Half) (what : Nat)     -- an SC's report to the BMC whose format the spec does not give
  deriving DecidableEq, Repr

/-- The device. -/
structure Dev where
  time : Nat                               -- device time, ns
  free : Nat                               -- the model's own: counts free values drawn
  regs : List (Nat × Word32)               -- registers that differ from their reset value
  hold : List (Nat × Word32)               -- holding registers of 64-bit pairs (R8, R552)
  capt : List ((Nat × Nat) × Word32)       -- captured high words per function and pair (R8, R552)
  resp : Resp
  out : List Out
  top : Top
  hm : Both Hm
  hmBase : Nat                             -- BASE of R468
  pic : List (Nat × Pic)                   -- Piccolo's state of facets 0 to 319
  picAt : Both Nat                         -- start of each half's self-test period
  host : HostSt
  tgu : Tgu
  fab : Fab
  fac : Facets
  ce : Ce
  efu : Efu
  prism : Prism
  lens : Lens
  mir : Mir
  start : Option JStart
  startNext : Nat                          -- starts begun
  deriving DecidableEq, Repr

/-- The state. -/
structure State where
  pending : List Instr
  mem : Memory         -- device memory, by LOCAL address
  host : Memory        -- host memory, by bus address: the environment's, held so that a run has one
  dev : Dev
  deriving DecidableEq, Repr

/-- Reasons the machine stops with a fault. Every access that the spec refuses has an effect there (a status, a
dropped write, a Completer Abort), so no command of this model raises a fault. -/
inductive Fault where
  /-- Raised by no command. Were one to raise it, the machine would stop: safe. -/
  | unreachable
  deriving DecidableEq, Repr

/-- Reasons a command has no meaning. -/
inductive Refusal where
  /-- Raised by Dispatch.lean for a command whose meaning is not written yet: safe, the run stops. -/
  | notModelled (mnemonic : String)
  deriving DecidableEq, Repr

/-- A lead view at reset: electing, no term, no messages (R464). -/
def LeadView.cold (pref : Half) : LeadView :=
  { st := .electing, lead := .west, pref := pref, bmc := 0, term := 0, peerElect := none, electAt := none, health := 0,
    lastValid := 0, leaseSeq := 0, seenSeq := 0, seenMark := 0, lapseAt := none, reqAt := none, reqKind := 0,
    granted := false, leaseAt := none }

/-- A Secure Controller that has just started from ROM. -/
def Sc.cold : Sc :=
  { st := .starting, slot := .west, digest := 0, watchdog := 0, selfTest := 0, log := [], logBase := 0,
    mailBusy := false, mailLen := 0, clk := 1600, temps := List.replicate 16 0, stackTemp := 0, droops := 0 }

/-- An I3C target at reset, with no dynamic address. -/
def I3c.cold (rand : Word32) : I3c :=
  { addr := none, rand := rand, events := true, mrl := 256, mwl := 256, ibi := [], eid := none, pcieEid := none,
    outbox := [] }

/-- A host port whose link is down. -/
def Port.cold : Port :=
  { perst := false, cfgReady := false, speed := 0, width := 0, flit := false, ide := false, ideStopped := false, vfEnable := false, numVfs := 0 }

/-- A flash slot that holds an active, empty image. -/
def FlashSlot.blank (st : SlotSt) : FlashSlot :=
  { st := st, body := [], len := 0, digest := 0, version := 0, svn := 0, revision := 0x0100, raise := false,
    tried := false, devId := 0, memClk := 1200, portCfg := List.replicate 32 (BitVec.ofNat 32 0xA0000000) }

/-- The flash as shipped: slot A of each kind active, nothing retired. -/
def Flash.shipped : Flash :=
  { images := ⟨.blank .active, .blank .empty⟩, records := ⟨.blank .active, .blank .empty⟩, retired := [],
    fatalLog := [], fatalBase := 0, dirGen := 1, dirCopy := false }

/-- The package at the deassertion of RESET_N, with its fuses, flash and fatal record as given (R491, R499, R551). -/
def Top.cold (grade stepping : Nat) (fusedOff : List Nat) (lc : Lifecycle) (owner : Option Nat) (minSvn : Nat)
    (fatal : FatalStatus) (flash : Flash) (pref : Half) (rw re : Word32) : Top :=
  { pwrGood := true, resetN := true, faultN := false, thermAlert := false, tickOut := none, xspiReset := false,
    refclkOk := true, grade := grade, stepping := stepping,
    fusedOff := fusedOff, lifecycle := lc, ownerHash := owner, minSvn := minSvn, stage := .boot, ready := false,
    degraded := false, stackUp := 0, baselineDone := false, fatal := fatal, strictReq := false, strict := false,
    dispatchOff := false, stopped := false, maintStop := false, maintBoot := false,
    bootRetired := flash.retired, lead := ⟨.cold pref, .cold pref⟩, portLead := none,
    portLost := ⟨false, false⟩, timeSet := false, slew := 0, ppsLast := none, sc := ⟨.cold, .cold⟩, flash := flash,
    i3c := ⟨.cold rw, .cold re⟩, sessions := [], nextSession := 1, nonce := none, staging := none, telemetry := none,
    power := 0, halfPower := ⟨0, 0⟩, ceiling := if grade = 2 then 1800 else 2000, capBelow := 0, tripped := false,
    recovering := false, coolSince := none, capTime := 0, memClk := 1200, approved := true, identityKey := true,
    jtag := { ir := 1, boundary := [] } }

/-- A Health Monitor at reset: its floor is PRIOR (R467). -/
def Hm.cold (prior : Nat) : Hm :=
  { e := [0, 0, 0, 0, 0], seen := [0, 0, 0, 0, 0], parity := 0, sram := 0, floor := prior, floorAt := 0, level := prior,
    prior := prior }

/-- The host side with nothing configured (R499). -/
def HostSt.cold : HostSt :=
  { ports := ⟨.cold, .cold⟩, funcs := [], rings := [], jobs := [], goneSlots := [], nextEpoch := 1, bufs := [],
    pageKey := [], ciphers := [], poison := [], scrub := [] }

/-- The Task Graph Unit with no instance (R499). -/
def Tgu.cold : Tgu :=
  { insts := [], nextSeq := 0, frames := [], nextFrame := 0, ord := 0, readyNext := 0, blockOrd := [], graces := [],
    outFrames := [], frozen := [], windows := [], lwrites := [], batchOut := [], batchSeen := [], shadowAcked := [], commits := 0,
    ackedCommits := 0, tickCount := 0, tickTime := 0, tickGap := 0, lastTick := none }

/-- Facets not enabled on a part of a grade as this model fuses it: the last 16 (grade A) or 32 (grade B) of each half
(DESIGN CHOICE, assumption 2). -/
def fusedOffOf (grade : Nat) : List Nat :=
  let n := if grade = 2 then 32 else 16
  (List.range n).map (fun i => 159 - i) ++ (List.range n).map (fun i => 319 - i)

/-- The device at the deassertion of RESET_N around a package state. -/
def Dev.cold (top : Top) (prior : Both Nat) (free : Nat) : Dev :=
  { time := 0, free := free, regs := [], hold := [], capt := [], resp := .none, out := [], top := top,
    hm := ⟨.cold prior.w, .cold prior.e⟩, hmBase := max prior.w prior.e, pic := [], picAt := ⟨0, 0⟩, host := .cold, tgu := .cold,
    fab := .cold, fac := .cold, ce := .cold, efu := .cold, prism := .cold, lens := .cold, mir := .cold,
    start := none, startNext := 0 }

/-- The machine right after reset: a grade A part of stepping 1, in DEPLOYED, at the deassertion of RESET_N with
LEAD_PREF low (assumptions 1 and 2). -/
def State.reset : State :=
  { pending := [], mem := [], host := [],
    dev := .cold (.cold 1 1 (fusedOffOf 1) .deployed (some 0) 0 ⟨false, 0, 0, 0⟩ .shipped .west 0 0) ⟨4, 4⟩ 0 }

end Sys2Proof.Machine
end

