-- ==== Sys2Proof/Machine/Mem.lean ====
section
/-! DEFINITION. Memory as sparse bytes in one canonical form: addresses strictly rising and no listed byte 0, which is
what an unlisted address reads as. -/

namespace Sys2Proof.Machine

open Sys2Proof

/-- The byte at an address. -/
def Memory.get : Memory → Nat → Byte
  | [], _ => 0
  | (k, b) :: t, a => if k = a then b else Memory.get t a

/-- Stores one byte and keeps the canonical form: storing 0 unlists the address. -/
def Memory.set : Memory → Nat → Byte → Memory
  | [], a, b => if b = 0 then [] else [(a, b)]
  | (k, c) :: t, a, b =>
    if a < k then (if b = 0 then (k, c) :: t else (a, b) :: (k, c) :: t)
    else if a = k then (if b = 0 then t else (k, b) :: t)
    else (k, c) :: Memory.set t a b

/-- Stores bytes from an address on. -/
def Memory.setBytes : Memory → Nat → List Byte → Memory
  | m, _, [] => m
  | m, a, b :: bs => Memory.setBytes (m.set a b) (a + 1) bs

/-- Stores runs, the first one first. -/
def Memory.setRuns : Memory → List Run → Memory
  | m, [] => m
  | m, r :: rs => Memory.setRuns (m.setBytes r.addr r.bytes) rs

/-- The bytes of `n` addresses from `a` on. -/
def Memory.getBytes (m : Memory) (a n : Nat) : List Byte := (List.range n).map fun i => m.get (a + i)

/-- Addresses strictly rising from above `lo`, no byte 0. -/
def Memory.wfFrom : Option Nat → Memory → Bool
  | _, [] => true
  | lo, (k, b) :: t => (match lo with | none => true | some l => decide (l < k)) && b != 0 && Memory.wfFrom (some k) t

/-- The canonical form. -/
def Memory.wf (m : Memory) : Bool := Memory.wfFrom none m

/-- The byte that the newest of some runs (newest first) puts at an address. -/
def runsGet : List Run → Nat → Option Byte
  | [], _ => none
  | r :: rs, a => if r.addr ≤ a ∧ a < r.addr + r.bytes.length then r.bytes[a - r.addr]? else runsGet rs a

end Sys2Proof.Machine
end

