-- ==== Sys2Proof/Machine/RegTable.lean ====
section
/-! DEFINITION. The set-up registers (R545 to R558): one row per register or array of registers, with its offset in a
half window, its access code (R4), reset value, writable bits, scope (R547) and value limits, from the register tables
of R98, R140, R141, R191, R210, R235, R271, R272, R273, R305, R344, R345, R346, R393, R394, R425, R426, R486, R487,
R515, R539 and R554. -/

namespace Sys2Proof.Machine

open Sys2Proof

/-- Access codes of R4 that occur on a whole register. -/
inductive Acc where
  | rw | ro | wo | w1c
  deriving DecidableEq, Repr

/-- Scopes of R547. -/
inductive Scope where
  | perHalf | device | lead
  deriving DecidableEq, Repr

/-- A register alone, or one word of a 64-bit pair (R8). -/
inductive PairPart where
  | plain | lo | hi
  deriving DecidableEq, Repr

/-- A field at `lo` of `w` bits whose written value is limited to [min, max]. -/
structure Limit where
  lo : Nat
  w : Nat
  min : Nat
  max : Nat
  deriving DecidableEq, Repr

/-- One row: registers stand at `off + i * s1 + j * s2` for i below n1 and j below n2. -/
structure RegRow where
  off : Nat
  acc : Acc
  reset : Nat
  mask : Nat
  scope : Scope
  part : PairPart
  n1 : Nat := 1
  s1 : Nat := 1
  n2 : Nat := 1
  s2 : Nat := 1
  limits : List Limit := []
  deriving DecidableEq, Repr

/-! ### TOP block (R554) -/

/-- Offset of TOP_ID in a half window. -/
def Reg.TOP_ID : Nat := 0x0
/-- Offset of TOP_DEVICE_STATUS in a half window. -/
def Reg.TOP_DEVICE_STATUS : Nat := 0x4
/-- Offset of TOP_DEVICE_MODE in a half window. -/
def Reg.TOP_DEVICE_MODE : Nat := 0x8
/-- Offset of TOP_LEAD_STATUS in a half window. -/
def Reg.TOP_LEAD_STATUS : Nat := 0xc
/-- Offset of TOP_TDC_COUNT_LO in a half window. -/
def Reg.TOP_TDC_COUNT_LO : Nat := 0x10
/-- Offset of TOP_TDC_COUNT_HI in a half window. -/
def Reg.TOP_TDC_COUNT_HI : Nat := 0x14
/-- Offset of TOP_FATAL_STATUS in a half window. -/
def Reg.TOP_FATAL_STATUS : Nat := 0x18
/-- Offset of TOP_FACET_CLK in a half window. -/
def Reg.TOP_FACET_CLK : Nat := 0x20
/-- Offset of TOP_POWER_CAP in a half window. -/
def Reg.TOP_POWER_CAP : Nat := 0x24
/-- Offset of TOP_POWER_CEILING in a half window. -/
def Reg.TOP_POWER_CEILING : Nat := 0x28
/-- Offset of TOP_POWER_STATUS in a half window. -/
def Reg.TOP_POWER_STATUS : Nat := 0x2c
/-- Offset of TOP_THERM_CFG in a half window. -/
def Reg.TOP_THERM_CFG : Nat := 0x30
/-- Offset of TOP_POWER_OVER_NS_LO in a half window. -/
def Reg.TOP_POWER_OVER_NS_LO : Nat := 0x38
/-- Offset of TOP_POWER_OVER_NS_HI in a half window. -/
def Reg.TOP_POWER_OVER_NS_HI : Nat := 0x3c
/-- Offset of TOP_DEVICE_TIME_LO in a half window. -/
def Reg.TOP_DEVICE_TIME_LO : Nat := 0x40
/-- Offset of TOP_DEVICE_TIME_HI in a half window. -/
def Reg.TOP_DEVICE_TIME_HI : Nat := 0x44
/-- Offset of TOP_JSTART_JOB in a half window. -/
def Reg.TOP_JSTART_JOB : Nat := 0x100
/-- Offset of TOP_JSTART_REGION in a half window. -/
def Reg.TOP_JSTART_REGION : Nat := 0x104
/-- Offset of TOP_JSTART_LIST_LO in a half window. -/
def Reg.TOP_JSTART_LIST_LO : Nat := 0x108
/-- Offset of TOP_JSTART_LIST_HI in a half window. -/
def Reg.TOP_JSTART_LIST_HI : Nat := 0x10c
/-- Offset of TOP_JSTART_CFG in a half window. -/
def Reg.TOP_JSTART_CFG : Nat := 0x110
/-- Offset of TOP_JSTART_LENGTH in a half window. -/
def Reg.TOP_JSTART_LENGTH : Nat := 0x114
/-- Offset of TOP_JSTART_TIMEOUT in a half window. -/
def Reg.TOP_JSTART_TIMEOUT : Nat := 0x118
/-- Offset of TOP_JSTART_CTL in a half window. -/
def Reg.TOP_JSTART_CTL : Nat := 0x11c
/-- Offset of TOP_JSTART_STATUS in a half window. -/
def Reg.TOP_JSTART_STATUS : Nat := 0x120
/-- Offset of TOP_JSTART_MISSING in a half window. -/
def Reg.TOP_JSTART_MISSING : Nat := 0x124
/-- Offset of TOP_ERR_CORRECTED_LO in a half window. -/
def Reg.TOP_ERR_CORRECTED_LO : Nat := 0x400
/-- Offset of TOP_ERR_CORRECTED_HI in a half window. -/
def Reg.TOP_ERR_CORRECTED_HI : Nat := 0x404
/-- Offset of TOP_ERR_CONTAINED_LO in a half window. -/
def Reg.TOP_ERR_CONTAINED_LO : Nat := 0x408
/-- Offset of TOP_ERR_CONTAINED_HI in a half window. -/
def Reg.TOP_ERR_CONTAINED_HI : Nat := 0x40c
/-- Offset of TOP_ERR_JOB_FATAL_LO in a half window. -/
def Reg.TOP_ERR_JOB_FATAL_LO : Nat := 0x410
/-- Offset of TOP_ERR_JOB_FATAL_HI in a half window. -/
def Reg.TOP_ERR_JOB_FATAL_HI : Nat := 0x414

/-- Registers of the TOP block (R554). -/
def regsTop : List RegRow :=
  [ { off := Reg.TOP_ID, acc := .ro, reset := 0x0, mask := 0x0, scope := .device, part := .plain },
    { off := Reg.TOP_DEVICE_STATUS, acc := .ro, reset := 0x0, mask := 0x0, scope := .device, part := .plain },
    { off := Reg.TOP_DEVICE_MODE, acc := .rw, reset := 0x0, mask := 0x1, scope := .device, part := .plain },
    { off := Reg.TOP_LEAD_STATUS, acc := .ro, reset := 0x0, mask := 0x0, scope := .perHalf, part := .plain },
    { off := Reg.TOP_TDC_COUNT_LO, acc := .rw, reset := 0x0, mask := 0xffffffff, scope := .device, part := .lo },
    { off := Reg.TOP_TDC_COUNT_HI, acc := .rw, reset := 0x0, mask := 0xffffffff, scope := .device, part := .hi },
    { off := Reg.TOP_FATAL_STATUS, acc := .w1c, reset := 0x0, mask := 0x80000000, scope := .device, part := .plain },
    { off := Reg.TOP_FACET_CLK, acc := .rw, reset := 0x6400640, mask := 0xffffffff, scope := .device, part := .plain },
    { off := Reg.TOP_POWER_CAP, acc := .rw, reset := 0x800007d0, mask := 0x8000ffff, scope := .device, part := .plain },
    { off := Reg.TOP_POWER_CEILING, acc := .ro, reset := 0x0, mask := 0x0, scope := .device, part := .plain },
    { off := Reg.TOP_POWER_STATUS, acc := .ro, reset := 0x0, mask := 0x0, scope := .device, part := .plain },
    { off := Reg.TOP_THERM_CFG, acc := .rw, reset := 0x695f, mask := 0xffff, scope := .device, part := .plain },
    { off := Reg.TOP_POWER_OVER_NS_LO, acc := .rw, reset := 0x0, mask := 0xffffffff, scope := .device, part := .lo },
    { off := Reg.TOP_POWER_OVER_NS_HI, acc := .rw, reset := 0x0, mask := 0xffff, scope := .device, part := .hi },
    { off := Reg.TOP_DEVICE_TIME_LO, acc := .ro, reset := 0x0, mask := 0x0, scope := .device, part := .lo },
    { off := Reg.TOP_DEVICE_TIME_HI, acc := .ro, reset := 0x0, mask := 0x0, scope := .device, part := .hi },
    { off := Reg.TOP_JSTART_JOB, acc := .rw, reset := 0x0, mask := 0xfffff, scope := .device, part := .plain },
    { off := Reg.TOP_JSTART_REGION, acc := .rw, reset := 0x0, mask := 0x3ffff, scope := .device, part := .plain },
    { off := Reg.TOP_JSTART_LIST_LO, acc := .rw, reset := 0x0, mask := 0xffffffff, scope := .device, part := .lo },
    { off := Reg.TOP_JSTART_LIST_HI, acc := .rw, reset := 0x0, mask := 0xffffffff, scope := .device, part := .hi },
    { off := Reg.TOP_JSTART_CFG, acc := .rw, reset := 0x60000000, mask := 0xf000ffff, scope := .device, part := .plain },
    { off := Reg.TOP_JSTART_LENGTH, acc := .rw, reset := 0x0, mask := 0xffff, scope := .device, part := .plain },
    { off := Reg.TOP_JSTART_TIMEOUT, acc := .rw, reset := 0x3e8, mask := 0xffff, scope := .device, part := .plain, limits := [⟨0, 16, 1, 65535⟩] },
    { off := Reg.TOP_JSTART_CTL, acc := .wo, reset := 0x0, mask := 0x3, scope := .device, part := .plain },
    { off := Reg.TOP_JSTART_STATUS, acc := .ro, reset := 0x0, mask := 0x0, scope := .device, part := .plain },
    { off := Reg.TOP_JSTART_MISSING, acc := .ro, reset := 0x0, mask := 0x0, scope := .device, part := .plain },
    { off := Reg.TOP_ERR_CORRECTED_LO, acc := .rw, reset := 0x0, mask := 0xffffffff, scope := .device, part := .lo },
    { off := Reg.TOP_ERR_CORRECTED_HI, acc := .rw, reset := 0x0, mask := 0xffff, scope := .device, part := .hi },
    { off := Reg.TOP_ERR_CONTAINED_LO, acc := .rw, reset := 0x0, mask := 0xffffffff, scope := .device, part := .lo },
    { off := Reg.TOP_ERR_CONTAINED_HI, acc := .rw, reset := 0x0, mask := 0xffff, scope := .device, part := .hi },
    { off := Reg.TOP_ERR_JOB_FATAL_LO, acc := .rw, reset := 0x0, mask := 0xffffffff, scope := .device, part := .lo },
    { off := Reg.TOP_ERR_JOB_FATAL_HI, acc := .rw, reset := 0x0, mask := 0xffff, scope := .device, part := .hi } ]

/-! ### HOST block (R305, R346) -/

/-- Offset of HOST_LINK_STATUS in a half window. -/
def Reg.HOST_LINK_STATUS : Nat := 0x10000
/-- Offset of HOST_BAR4_BASE_LO in a half window. -/
def Reg.HOST_BAR4_BASE_LO : Nat := 0x10010
/-- Offset of HOST_BAR4_BASE_HI in a half window. -/
def Reg.HOST_BAR4_BASE_HI : Nat := 0x10014
/-- Offset of HOST_BAR4_JOB in a half window. -/
def Reg.HOST_BAR4_JOB : Nat := 0x10018
/-- Offset of HOST_DB_FENCE_LO in a half window. -/
def Reg.HOST_DB_FENCE_LO : Nat := 0x10020
/-- Offset of HOST_DB_FENCE_HI in a half window. -/
def Reg.HOST_DB_FENCE_HI : Nat := 0x10024
/-- Offset of HOST_GRAPHS_ADMITTED_LO in a half window. -/
def Reg.HOST_GRAPHS_ADMITTED_LO : Nat := 0x10400
/-- Offset of HOST_GRAPHS_ADMITTED_HI in a half window. -/
def Reg.HOST_GRAPHS_ADMITTED_HI : Nat := 0x10404
/-- Offset of HOST_RECORDS_WRITTEN_LO in a half window. -/
def Reg.HOST_RECORDS_WRITTEN_LO : Nat := 0x10408
/-- Offset of HOST_RECORDS_WRITTEN_HI in a half window. -/
def Reg.HOST_RECORDS_WRITTEN_HI : Nat := 0x1040c
/-- Offset of HOST_EVENTS_LOST_LO in a half window. -/
def Reg.HOST_EVENTS_LOST_LO : Nat := 0x10410
/-- Offset of HOST_EVENTS_LOST_HI in a half window. -/
def Reg.HOST_EVENTS_LOST_HI : Nat := 0x10414
/-- Offset of HOST_DB_DROPPED_LO in a half window. -/
def Reg.HOST_DB_DROPPED_LO : Nat := 0x10418
/-- Offset of HOST_DB_DROPPED_HI in a half window. -/
def Reg.HOST_DB_DROPPED_HI : Nat := 0x1041c
/-- Offset of HOST_BAR4_REFUSED_LO in a half window. -/
def Reg.HOST_BAR4_REFUSED_LO : Nat := 0x10420
/-- Offset of HOST_BAR4_REFUSED_HI in a half window. -/
def Reg.HOST_BAR4_REFUSED_HI : Nat := 0x10424
/-- Offset of HOST_RING_SQ_BASE_LO in a half window. -/
def Reg.HOST_RING_SQ_BASE_LO : Nat := 0x20000
/-- Offset of HOST_RING_SQ_BASE_HI in a half window. -/
def Reg.HOST_RING_SQ_BASE_HI : Nat := 0x20004
/-- Offset of HOST_RING_CQ_BASE_LO in a half window. -/
def Reg.HOST_RING_CQ_BASE_LO : Nat := 0x20008
/-- Offset of HOST_RING_CQ_BASE_HI in a half window. -/
def Reg.HOST_RING_CQ_BASE_HI : Nat := 0x2000c
/-- Offset of HOST_RING_HEADWB_LO in a half window. -/
def Reg.HOST_RING_HEADWB_LO : Nat := 0x20010
/-- Offset of HOST_RING_HEADWB_HI in a half window. -/
def Reg.HOST_RING_HEADWB_HI : Nat := 0x20014
/-- Offset of HOST_RING_CFG in a half window. -/
def Reg.HOST_RING_CFG : Nat := 0x20018
/-- Offset of HOST_RING_JOB in a half window. -/
def Reg.HOST_RING_JOB : Nat := 0x2001c
/-- Offset of HOST_RING_IRQ in a half window. -/
def Reg.HOST_RING_IRQ : Nat := 0x20020
/-- Offset of HOST_RING_STATUS in a half window. -/
def Reg.HOST_RING_STATUS : Nat := 0x20024
/-- Offset of HOST_EVT_BASE_LO in a half window. -/
def Reg.HOST_EVT_BASE_LO : Nat := 0x20400
/-- Offset of HOST_EVT_BASE_HI in a half window. -/
def Reg.HOST_EVT_BASE_HI : Nat := 0x20404
/-- Offset of HOST_EVT_CFG in a half window. -/
def Reg.HOST_EVT_CFG : Nat := 0x20408
/-- Offset of HOST_EVT_STATUS in a half window. -/
def Reg.HOST_EVT_STATUS : Nat := 0x2040c
/-- Offset of HOST_JOB_ID in a half window. -/
def Reg.HOST_JOB_ID : Nat := 0x20500
/-- Offset of HOST_JOB_SEED_LO in a half window. -/
def Reg.HOST_JOB_SEED_LO : Nat := 0x20504
/-- Offset of HOST_JOB_SEED_HI in a half window. -/
def Reg.HOST_JOB_SEED_HI : Nat := 0x20508
/-- Offset of HOST_JOB_CTL in a half window. -/
def Reg.HOST_JOB_CTL : Nat := 0x2050c
/-- Offset of HOST_JOB_STATUS in a half window. -/
def Reg.HOST_JOB_STATUS : Nat := 0x20510
/-- Offset of HOST_ACCT_WAIT_SUM_LO in a half window. -/
def Reg.HOST_ACCT_WAIT_SUM_LO : Nat := 0x20700
/-- Offset of HOST_ACCT_WAIT_SUM_HI in a half window. -/
def Reg.HOST_ACCT_WAIT_SUM_HI : Nat := 0x20704
/-- Offset of HOST_ACCT_WAIT_MAX_LO in a half window. -/
def Reg.HOST_ACCT_WAIT_MAX_LO : Nat := 0x20708
/-- Offset of HOST_ACCT_WAIT_MAX_HI in a half window. -/
def Reg.HOST_ACCT_WAIT_MAX_HI : Nat := 0x2070c
/-- Offset of HOST_ACCT_PREEMPT_LO in a half window. -/
def Reg.HOST_ACCT_PREEMPT_LO : Nat := 0x20710
/-- Offset of HOST_ACCT_PREEMPT_HI in a half window. -/
def Reg.HOST_ACCT_PREEMPT_HI : Nat := 0x20714
/-- Offset of HOST_ACCT_BUSY_NS_LO in a half window. -/
def Reg.HOST_ACCT_BUSY_NS_LO : Nat := 0x20718
/-- Offset of HOST_ACCT_BUSY_NS_HI in a half window. -/
def Reg.HOST_ACCT_BUSY_NS_HI : Nat := 0x2071c
/-- Offset of HOST_ACCT_LOST_NS_LO in a half window. -/
def Reg.HOST_ACCT_LOST_NS_LO : Nat := 0x20720
/-- Offset of HOST_ACCT_LOST_NS_HI in a half window. -/
def Reg.HOST_ACCT_LOST_NS_HI : Nat := 0x20724
/-- Offset of HOST_ACCT_JOBS in a half window. -/
def Reg.HOST_ACCT_JOBS : Nat := 0x207f0

/-- Registers of the HOST block (R305, R346). -/
def regsHost : List RegRow :=
  [ { off := Reg.HOST_LINK_STATUS, acc := .ro, reset := 0x0, mask := 0x0, scope := .perHalf, part := .plain },
    { off := Reg.HOST_BAR4_BASE_LO, acc := .rw, reset := 0x0, mask := 0xffffffff, scope := .perHalf, part := .lo },
    { off := Reg.HOST_BAR4_BASE_HI, acc := .rw, reset := 0x0, mask := 0xffffffff, scope := .perHalf, part := .hi },
    { off := Reg.HOST_BAR4_JOB, acc := .rw, reset := 0x0, mask := 0x800fffff, scope := .perHalf, part := .plain },
    { off := Reg.HOST_DB_FENCE_LO, acc := .ro, reset := 0x0, mask := 0x0, scope := .perHalf, part := .lo },
    { off := Reg.HOST_DB_FENCE_HI, acc := .ro, reset := 0x0, mask := 0x0, scope := .perHalf, part := .hi },
    { off := Reg.HOST_GRAPHS_ADMITTED_LO, acc := .rw, reset := 0x0, mask := 0xffffffff, scope := .perHalf, part := .lo },
    { off := Reg.HOST_GRAPHS_ADMITTED_HI, acc := .rw, reset := 0x0, mask := 0xffff, scope := .perHalf, part := .hi },
    { off := Reg.HOST_RECORDS_WRITTEN_LO, acc := .rw, reset := 0x0, mask := 0xffffffff, scope := .perHalf, part := .lo },
    { off := Reg.HOST_RECORDS_WRITTEN_HI, acc := .rw, reset := 0x0, mask := 0xffff, scope := .perHalf, part := .hi },
    { off := Reg.HOST_EVENTS_LOST_LO, acc := .rw, reset := 0x0, mask := 0xffffffff, scope := .perHalf, part := .lo },
    { off := Reg.HOST_EVENTS_LOST_HI, acc := .rw, reset := 0x0, mask := 0xffff, scope := .perHalf, part := .hi },
    { off := Reg.HOST_DB_DROPPED_LO, acc := .rw, reset := 0x0, mask := 0xffffffff, scope := .perHalf, part := .lo },
    { off := Reg.HOST_DB_DROPPED_HI, acc := .rw, reset := 0x0, mask := 0xffff, scope := .perHalf, part := .hi },
    { off := Reg.HOST_BAR4_REFUSED_LO, acc := .rw, reset := 0x0, mask := 0xffffffff, scope := .perHalf, part := .lo },
    { off := Reg.HOST_BAR4_REFUSED_HI, acc := .rw, reset := 0x0, mask := 0xffff, scope := .perHalf, part := .hi },
    { off := Reg.HOST_RING_SQ_BASE_LO, acc := .rw, reset := 0x0, mask := 0xffffffff, scope := .perHalf, part := .lo, n1 := 64, s1 := 0x800, n2 := 16, s2 := 0x40 },
    { off := Reg.HOST_RING_SQ_BASE_HI, acc := .rw, reset := 0x0, mask := 0xffffffff, scope := .perHalf, part := .hi, n1 := 64, s1 := 0x800, n2 := 16, s2 := 0x40 },
    { off := Reg.HOST_RING_CQ_BASE_LO, acc := .rw, reset := 0x0, mask := 0xffffffff, scope := .perHalf, part := .lo, n1 := 64, s1 := 0x800, n2 := 16, s2 := 0x40 },
    { off := Reg.HOST_RING_CQ_BASE_HI, acc := .rw, reset := 0x0, mask := 0xffffffff, scope := .perHalf, part := .hi, n1 := 64, s1 := 0x800, n2 := 16, s2 := 0x40 },
    { off := Reg.HOST_RING_HEADWB_LO, acc := .rw, reset := 0x0, mask := 0xffffffff, scope := .perHalf, part := .lo, n1 := 64, s1 := 0x800, n2 := 16, s2 := 0x40 },
    { off := Reg.HOST_RING_HEADWB_HI, acc := .rw, reset := 0x0, mask := 0xffffffff, scope := .perHalf, part := .hi, n1 := 64, s1 := 0x800, n2 := 16, s2 := 0x40 },
    { off := Reg.HOST_RING_CFG, acc := .rw, reset := 0x700, mask := 0x80ff0700, scope := .perHalf, part := .plain, n1 := 64, s1 := 0x800, n2 := 16, s2 := 0x40 },
    { off := Reg.HOST_RING_JOB, acc := .rw, reset := 0x0, mask := 0xfffff, scope := .perHalf, part := .plain, n1 := 64, s1 := 0x800, n2 := 16, s2 := 0x40 },
    { off := Reg.HOST_RING_IRQ, acc := .rw, reset := 0x0, mask := 0x8000ff1f, scope := .perHalf, part := .plain, n1 := 64, s1 := 0x800, n2 := 16, s2 := 0x40 },
    { off := Reg.HOST_RING_STATUS, acc := .ro, reset := 0x0, mask := 0x0, scope := .perHalf, part := .plain, n1 := 64, s1 := 0x800, n2 := 16, s2 := 0x40 },
    { off := Reg.HOST_EVT_BASE_LO, acc := .rw, reset := 0x0, mask := 0xffffffff, scope := .perHalf, part := .lo, n1 := 64, s1 := 0x800 },
    { off := Reg.HOST_EVT_BASE_HI, acc := .rw, reset := 0x0, mask := 0xffffffff, scope := .perHalf, part := .hi, n1 := 64, s1 := 0x800 },
    { off := Reg.HOST_EVT_CFG, acc := .rw, reset := 0x0, mask := 0xc00fff1f, scope := .perHalf, part := .plain, n1 := 64, s1 := 0x800 },
    { off := Reg.HOST_EVT_STATUS, acc := .ro, reset := 0x0, mask := 0x0, scope := .perHalf, part := .plain, n1 := 64, s1 := 0x800 },
    { off := Reg.HOST_JOB_ID, acc := .rw, reset := 0x0, mask := 0xfffff, scope := .perHalf, part := .plain, n1 := 64, s1 := 0x800 },
    { off := Reg.HOST_JOB_SEED_LO, acc := .rw, reset := 0x0, mask := 0xffffffff, scope := .perHalf, part := .lo, n1 := 64, s1 := 0x800 },
    { off := Reg.HOST_JOB_SEED_HI, acc := .rw, reset := 0x0, mask := 0xffffffff, scope := .perHalf, part := .hi, n1 := 64, s1 := 0x800 },
    { off := Reg.HOST_JOB_CTL, acc := .wo, reset := 0x0, mask := 0x3, scope := .perHalf, part := .plain, n1 := 64, s1 := 0x800 },
    { off := Reg.HOST_JOB_STATUS, acc := .ro, reset := 0x0, mask := 0x0, scope := .perHalf, part := .plain, n1 := 64, s1 := 0x800 },
    { off := Reg.HOST_ACCT_WAIT_SUM_LO, acc := .rw, reset := 0x0, mask := 0xffffffff, scope := .perHalf, part := .lo, n1 := 64, s1 := 0x800 },
    { off := Reg.HOST_ACCT_WAIT_SUM_HI, acc := .rw, reset := 0x0, mask := 0xffffffff, scope := .perHalf, part := .hi, n1 := 64, s1 := 0x800 },
    { off := Reg.HOST_ACCT_WAIT_MAX_LO, acc := .rw, reset := 0x0, mask := 0xffffffff, scope := .perHalf, part := .lo, n1 := 64, s1 := 0x800 },
    { off := Reg.HOST_ACCT_WAIT_MAX_HI, acc := .rw, reset := 0x0, mask := 0xffffffff, scope := .perHalf, part := .hi, n1 := 64, s1 := 0x800 },
    { off := Reg.HOST_ACCT_PREEMPT_LO, acc := .rw, reset := 0x0, mask := 0xffffffff, scope := .perHalf, part := .lo, n1 := 64, s1 := 0x800 },
    { off := Reg.HOST_ACCT_PREEMPT_HI, acc := .rw, reset := 0x0, mask := 0xffff, scope := .perHalf, part := .hi, n1 := 64, s1 := 0x800 },
    { off := Reg.HOST_ACCT_BUSY_NS_LO, acc := .rw, reset := 0x0, mask := 0xffffffff, scope := .perHalf, part := .lo, n1 := 64, s1 := 0x800 },
    { off := Reg.HOST_ACCT_BUSY_NS_HI, acc := .rw, reset := 0x0, mask := 0xffffffff, scope := .perHalf, part := .hi, n1 := 64, s1 := 0x800 },
    { off := Reg.HOST_ACCT_LOST_NS_LO, acc := .rw, reset := 0x0, mask := 0xffffffff, scope := .perHalf, part := .lo, n1 := 64, s1 := 0x800 },
    { off := Reg.HOST_ACCT_LOST_NS_HI, acc := .rw, reset := 0x0, mask := 0xffffffff, scope := .perHalf, part := .hi, n1 := 64, s1 := 0x800 },
    { off := Reg.HOST_ACCT_JOBS, acc := .rw, reset := 0x0, mask := 0xffffffff, scope := .perHalf, part := .plain, n1 := 64, s1 := 0x800 } ]

/-! ### TGU block (R344, R345, R191, R210, R235) -/

/-- Offset of TGU_STATUS in a half window. -/
def Reg.TGU_STATUS : Nat := 0x40000
/-- Offset of TGU_RERUN_LIMIT in a half window. -/
def Reg.TGU_RERUN_LIMIT : Nat := 0x40004
/-- Offset of TGU_PREEMPT_CFG in a half window. -/
def Reg.TGU_PREEMPT_CFG : Nat := 0x40008
/-- Offset of TGU_TICK_CFG in a half window. -/
def Reg.TGU_TICK_CFG : Nat := 0x4000c
/-- Offset of TGU_TICK_PERIOD in a half window. -/
def Reg.TGU_TICK_PERIOD : Nat := 0x40010
/-- Offset of TGU_TICK_COUNT_LO in a half window. -/
def Reg.TGU_TICK_COUNT_LO : Nat := 0x40018
/-- Offset of TGU_TICK_COUNT_HI in a half window. -/
def Reg.TGU_TICK_COUNT_HI : Nat := 0x4001c
/-- Offset of TGU_TICK_TIME_LO in a half window. -/
def Reg.TGU_TICK_TIME_LO : Nat := 0x40020
/-- Offset of TGU_TICK_TIME_HI in a half window. -/
def Reg.TGU_TICK_TIME_HI : Nat := 0x40024
/-- Offset of TGU_SHADOW_FREE in a half window. -/
def Reg.TGU_SHADOW_FREE : Nat := 0x40028
/-- Offset of TGU_NODES_DISPATCHED_LO in a half window. -/
def Reg.TGU_NODES_DISPATCHED_LO : Nat := 0x40400
/-- Offset of TGU_NODES_DISPATCHED_HI in a half window. -/
def Reg.TGU_NODES_DISPATCHED_HI : Nat := 0x40404
/-- Offset of TGU_NODES_COMMITTED_LO in a half window. -/
def Reg.TGU_NODES_COMMITTED_LO : Nat := 0x40408
/-- Offset of TGU_NODES_COMMITTED_HI in a half window. -/
def Reg.TGU_NODES_COMMITTED_HI : Nat := 0x4040c
/-- Offset of TGU_NULL_COMPLETED_LO in a half window. -/
def Reg.TGU_NULL_COMPLETED_LO : Nat := 0x40410
/-- Offset of TGU_NULL_COMPLETED_HI in a half window. -/
def Reg.TGU_NULL_COMPLETED_HI : Nat := 0x40414
/-- Offset of TGU_KILLS_LO in a half window. -/
def Reg.TGU_KILLS_LO : Nat := 0x40418
/-- Offset of TGU_KILLS_HI in a half window. -/
def Reg.TGU_KILLS_HI : Nat := 0x4041c
/-- Offset of TGU_RERUNS_CONTAINED_LO in a half window. -/
def Reg.TGU_RERUNS_CONTAINED_LO : Nat := 0x40420
/-- Offset of TGU_RERUNS_CONTAINED_HI in a half window. -/
def Reg.TGU_RERUNS_CONTAINED_HI : Nat := 0x40424
/-- Offset of TGU_PREEMPTIONS_LO in a half window. -/
def Reg.TGU_PREEMPTIONS_LO : Nat := 0x40428
/-- Offset of TGU_PREEMPTIONS_HI in a half window. -/
def Reg.TGU_PREEMPTIONS_HI : Nat := 0x4042c
/-- Offset of TGU_SHADOW_KILLS_LO in a half window. -/
def Reg.TGU_SHADOW_KILLS_LO : Nat := 0x40430
/-- Offset of TGU_SHADOW_KILLS_HI in a half window. -/
def Reg.TGU_SHADOW_KILLS_HI : Nat := 0x40434
/-- Offset of TGU_INSTANCES_ARMED_LO in a half window. -/
def Reg.TGU_INSTANCES_ARMED_LO : Nat := 0x40438
/-- Offset of TGU_INSTANCES_ARMED_HI in a half window. -/
def Reg.TGU_INSTANCES_ARMED_HI : Nat := 0x4043c
/-- Offset of TGU_FRAMES_SKIPPED_LO in a half window. -/
def Reg.TGU_FRAMES_SKIPPED_LO : Nat := 0x40440
/-- Offset of TGU_FRAMES_SKIPPED_HI in a half window. -/
def Reg.TGU_FRAMES_SKIPPED_HI : Nat := 0x40444
/-- Offset of TGU_DEADLINES_MISSED_LO in a half window. -/
def Reg.TGU_DEADLINES_MISSED_LO : Nat := 0x40448
/-- Offset of TGU_DEADLINES_MISSED_HI in a half window. -/
def Reg.TGU_DEADLINES_MISSED_HI : Nat := 0x4044c
/-- Offset of TGU_TICKS_IGNORED_LO in a half window. -/
def Reg.TGU_TICKS_IGNORED_LO : Nat := 0x40450
/-- Offset of TGU_TICKS_IGNORED_HI in a half window. -/
def Reg.TGU_TICKS_IGNORED_HI : Nat := 0x40454
/-- Offset of TGU_WRITE_OVERLAP_LO in a half window. -/
def Reg.TGU_WRITE_OVERLAP_LO : Nat := 0x40458
/-- Offset of TGU_WRITE_OVERLAP_HI in a half window. -/
def Reg.TGU_WRITE_OVERLAP_HI : Nat := 0x4045c
/-- Offset of TGU_FACET_RETAIN in a half window. -/
def Reg.TGU_FACET_RETAIN : Nat := 0x48000
/-- Offset of TGU_FACET_WATCHDOG in a half window. -/
def Reg.TGU_FACET_WATCHDOG : Nat := 0x48004
/-- Offset of TGU_SPARSE_CFG in a half window. -/
def Reg.TGU_SPARSE_CFG : Nat := 0x48008
/-- Offset of TGU_TRAIN_JOB in a half window. -/
def Reg.TGU_TRAIN_JOB : Nat := 0x48010
/-- Offset of TGU_TRAIN_CFG in a half window. -/
def Reg.TGU_TRAIN_CFG : Nat := 0x48014
/-- Offset of TGU_TRAIN_TABLE_LO in a half window. -/
def Reg.TGU_TRAIN_TABLE_LO : Nat := 0x48018
/-- Offset of TGU_TRAIN_TABLE_HI in a half window. -/
def Reg.TGU_TRAIN_TABLE_HI : Nat := 0x4801c
/-- Offset of TGU_TRAIN_STATUS in a half window. -/
def Reg.TGU_TRAIN_STATUS : Nat := 0x48020
/-- Offset of TGU_LANE_SPLIT in a half window. -/
def Reg.TGU_LANE_SPLIT : Nat := 0x48024
/-- Offset of TGU_FACET_INSTANCES_LO in a half window. -/
def Reg.TGU_FACET_INSTANCES_LO : Nat := 0x48400
/-- Offset of TGU_FACET_INSTANCES_HI in a half window. -/
def Reg.TGU_FACET_INSTANCES_HI : Nat := 0x48404
/-- Offset of TGU_FACET_MMA_LO in a half window. -/
def Reg.TGU_FACET_MMA_LO : Nat := 0x48408
/-- Offset of TGU_FACET_MMA_HI in a half window. -/
def Reg.TGU_FACET_MMA_HI : Nat := 0x4840c
/-- Offset of TGU_FACET_MMA_CLK_LO in a half window. -/
def Reg.TGU_FACET_MMA_CLK_LO : Nat := 0x48410
/-- Offset of TGU_FACET_MMA_CLK_HI in a half window. -/
def Reg.TGU_FACET_MMA_CLK_HI : Nat := 0x48414
/-- Offset of TGU_FACET_INGRESS_BYTES_LO in a half window. -/
def Reg.TGU_FACET_INGRESS_BYTES_LO : Nat := 0x48418
/-- Offset of TGU_FACET_INGRESS_BYTES_HI in a half window. -/
def Reg.TGU_FACET_INGRESS_BYTES_HI : Nat := 0x4841c
/-- Offset of TGU_FACET_EGRESS_BYTES_LO in a half window. -/
def Reg.TGU_FACET_EGRESS_BYTES_LO : Nat := 0x48420
/-- Offset of TGU_FACET_EGRESS_BYTES_HI in a half window. -/
def Reg.TGU_FACET_EGRESS_BYTES_HI : Nat := 0x48424
/-- Offset of TGU_FACET_WAIT_CLK_LO in a half window. -/
def Reg.TGU_FACET_WAIT_CLK_LO : Nat := 0x48428
/-- Offset of TGU_FACET_WAIT_CLK_HI in a half window. -/
def Reg.TGU_FACET_WAIT_CLK_HI : Nat := 0x4842c
/-- Offset of TGU_FACET_RLOADS_LO in a half window. -/
def Reg.TGU_FACET_RLOADS_LO : Nat := 0x48430
/-- Offset of TGU_FACET_RLOADS_HI in a half window. -/
def Reg.TGU_FACET_RLOADS_HI : Nat := 0x48434
/-- Offset of TGU_FACET_LOG_BYTES_LO in a half window. -/
def Reg.TGU_FACET_LOG_BYTES_LO : Nat := 0x48438
/-- Offset of TGU_FACET_LOG_BYTES_HI in a half window. -/
def Reg.TGU_FACET_LOG_BYTES_HI : Nat := 0x4843c
/-- Offset of TGU_FACET_RETAIN_HIT_LO in a half window. -/
def Reg.TGU_FACET_RETAIN_HIT_LO : Nat := 0x48440
/-- Offset of TGU_FACET_RETAIN_HIT_HI in a half window. -/
def Reg.TGU_FACET_RETAIN_HIT_HI : Nat := 0x48444
/-- Offset of TGU_FACET_TDC_LO in a half window. -/
def Reg.TGU_FACET_TDC_LO : Nat := 0x48448
/-- Offset of TGU_FACET_TDC_HI in a half window. -/
def Reg.TGU_FACET_TDC_HI : Nat := 0x4844c
/-- Offset of TGU_SPARSE_BAD_GROUP_LO in a half window. -/
def Reg.TGU_SPARSE_BAD_GROUP_LO : Nat := 0x48450
/-- Offset of TGU_SPARSE_BAD_GROUP_HI in a half window. -/
def Reg.TGU_SPARSE_BAD_GROUP_HI : Nat := 0x48454
/-- Offset of TGU_SPARSE_DROP_INDEX_LO in a half window. -/
def Reg.TGU_SPARSE_DROP_INDEX_LO : Nat := 0x48458
/-- Offset of TGU_SPARSE_DROP_INDEX_HI in a half window. -/
def Reg.TGU_SPARSE_DROP_INDEX_HI : Nat := 0x4845c
/-- Offset of TGU_SPARSE_MMA_LO in a half window. -/
def Reg.TGU_SPARSE_MMA_LO : Nat := 0x48460
/-- Offset of TGU_SPARSE_MMA_HI in a half window. -/
def Reg.TGU_SPARSE_MMA_HI : Nat := 0x48464
/-- Offset of TGU_SPARSE_SKIP_KBLOCK_LO in a half window. -/
def Reg.TGU_SPARSE_SKIP_KBLOCK_LO : Nat := 0x48468
/-- Offset of TGU_SPARSE_SKIP_KBLOCK_HI in a half window. -/
def Reg.TGU_SPARSE_SKIP_KBLOCK_HI : Nat := 0x4846c
/-- Offset of TGU_TRAIN_PRODUCERS_LO in a half window. -/
def Reg.TGU_TRAIN_PRODUCERS_LO : Nat := 0x48470
/-- Offset of TGU_TRAIN_PRODUCERS_HI in a half window. -/
def Reg.TGU_TRAIN_PRODUCERS_HI : Nat := 0x48474
/-- Offset of TGU_TRAIN_FROZEN_SKIP_LO in a half window. -/
def Reg.TGU_TRAIN_FROZEN_SKIP_LO : Nat := 0x48478
/-- Offset of TGU_TRAIN_FROZEN_SKIP_HI in a half window. -/
def Reg.TGU_TRAIN_FROZEN_SKIP_HI : Nat := 0x4847c
/-- Offset of TGU_TRAIN_OUT_OF_ORDER_LO in a half window. -/
def Reg.TGU_TRAIN_OUT_OF_ORDER_LO : Nat := 0x48480
/-- Offset of TGU_TRAIN_OUT_OF_ORDER_HI in a half window. -/
def Reg.TGU_TRAIN_OUT_OF_ORDER_HI : Nat := 0x48484
/-- Offset of TGU_TRAIN_ORDER_WAIT_LO in a half window. -/
def Reg.TGU_TRAIN_ORDER_WAIT_LO : Nat := 0x48488
/-- Offset of TGU_TRAIN_ORDER_WAIT_HI in a half window. -/
def Reg.TGU_TRAIN_ORDER_WAIT_HI : Nat := 0x4848c
/-- Offset of TGU_LANE_LENT_LO in a half window. -/
def Reg.TGU_LANE_LENT_LO : Nat := 0x48490
/-- Offset of TGU_LANE_LENT_HI in a half window. -/
def Reg.TGU_LANE_LENT_HI : Nat := 0x48494

/-- Registers of the TGU block (R344, R345, R191, R210, R235). -/
def regsTgu : List RegRow :=
  [ { off := Reg.TGU_STATUS, acc := .ro, reset := 0x0, mask := 0x0, scope := .lead, part := .plain },
    { off := Reg.TGU_RERUN_LIMIT, acc := .rw, reset := 0x3, mask := 0xf, scope := .lead, part := .plain, limits := [⟨0, 4, 1, 15⟩] },
    { off := Reg.TGU_PREEMPT_CFG, acc := .rw, reset := 0x80000032, mask := 0x8000ffff, scope := .lead, part := .plain },
    { off := Reg.TGU_TICK_CFG, acc := .rw, reset := 0x3e8, mask := 0xe000ffff, scope := .lead, part := .plain },
    { off := Reg.TGU_TICK_PERIOD, acc := .rw, reset := 0x9c40, mask := 0xffffffff, scope := .lead, part := .plain, limits := [⟨0, 32, 1, 4294967295⟩] },
    { off := Reg.TGU_TICK_COUNT_LO, acc := .ro, reset := 0x0, mask := 0x0, scope := .lead, part := .lo },
    { off := Reg.TGU_TICK_COUNT_HI, acc := .ro, reset := 0x0, mask := 0x0, scope := .lead, part := .hi },
    { off := Reg.TGU_TICK_TIME_LO, acc := .ro, reset := 0x0, mask := 0x0, scope := .lead, part := .lo },
    { off := Reg.TGU_TICK_TIME_HI, acc := .ro, reset := 0x0, mask := 0x0, scope := .lead, part := .hi },
    { off := Reg.TGU_SHADOW_FREE, acc := .ro, reset := 0x800, mask := 0x0, scope := .perHalf, part := .plain },
    { off := Reg.TGU_NODES_DISPATCHED_LO, acc := .rw, reset := 0x0, mask := 0xffffffff, scope := .lead, part := .lo },
    { off := Reg.TGU_NODES_DISPATCHED_HI, acc := .rw, reset := 0x0, mask := 0xffff, scope := .lead, part := .hi },
    { off := Reg.TGU_NODES_COMMITTED_LO, acc := .rw, reset := 0x0, mask := 0xffffffff, scope := .lead, part := .lo },
    { off := Reg.TGU_NODES_COMMITTED_HI, acc := .rw, reset := 0x0, mask := 0xffff, scope := .lead, part := .hi },
    { off := Reg.TGU_NULL_COMPLETED_LO, acc := .rw, reset := 0x0, mask := 0xffffffff, scope := .lead, part := .lo },
    { off := Reg.TGU_NULL_COMPLETED_HI, acc := .rw, reset := 0x0, mask := 0xffff, scope := .lead, part := .hi },
    { off := Reg.TGU_KILLS_LO, acc := .rw, reset := 0x0, mask := 0xffffffff, scope := .lead, part := .lo },
    { off := Reg.TGU_KILLS_HI, acc := .rw, reset := 0x0, mask := 0xffff, scope := .lead, part := .hi },
    { off := Reg.TGU_RERUNS_CONTAINED_LO, acc := .rw, reset := 0x0, mask := 0xffffffff, scope := .lead, part := .lo },
    { off := Reg.TGU_RERUNS_CONTAINED_HI, acc := .rw, reset := 0x0, mask := 0xffff, scope := .lead, part := .hi },
    { off := Reg.TGU_PREEMPTIONS_LO, acc := .rw, reset := 0x0, mask := 0xffffffff, scope := .lead, part := .lo },
    { off := Reg.TGU_PREEMPTIONS_HI, acc := .rw, reset := 0x0, mask := 0xffff, scope := .lead, part := .hi },
    { off := Reg.TGU_SHADOW_KILLS_LO, acc := .rw, reset := 0x0, mask := 0xffffffff, scope := .lead, part := .lo },
    { off := Reg.TGU_SHADOW_KILLS_HI, acc := .rw, reset := 0x0, mask := 0xffff, scope := .lead, part := .hi },
    { off := Reg.TGU_INSTANCES_ARMED_LO, acc := .rw, reset := 0x0, mask := 0xffffffff, scope := .lead, part := .lo },
    { off := Reg.TGU_INSTANCES_ARMED_HI, acc := .rw, reset := 0x0, mask := 0xffff, scope := .lead, part := .hi },
    { off := Reg.TGU_FRAMES_SKIPPED_LO, acc := .rw, reset := 0x0, mask := 0xffffffff, scope := .lead, part := .lo },
    { off := Reg.TGU_FRAMES_SKIPPED_HI, acc := .rw, reset := 0x0, mask := 0xffff, scope := .lead, part := .hi },
    { off := Reg.TGU_DEADLINES_MISSED_LO, acc := .rw, reset := 0x0, mask := 0xffffffff, scope := .lead, part := .lo },
    { off := Reg.TGU_DEADLINES_MISSED_HI, acc := .rw, reset := 0x0, mask := 0xffff, scope := .lead, part := .hi },
    { off := Reg.TGU_TICKS_IGNORED_LO, acc := .rw, reset := 0x0, mask := 0xffffffff, scope := .lead, part := .lo },
    { off := Reg.TGU_TICKS_IGNORED_HI, acc := .rw, reset := 0x0, mask := 0xffff, scope := .lead, part := .hi },
    { off := Reg.TGU_WRITE_OVERLAP_LO, acc := .rw, reset := 0x0, mask := 0xffffffff, scope := .lead, part := .lo },
    { off := Reg.TGU_WRITE_OVERLAP_HI, acc := .rw, reset := 0x0, mask := 0xffff, scope := .lead, part := .hi },
    { off := Reg.TGU_FACET_RETAIN, acc := .rw, reset := 0x0, mask := 0x7fff, scope := .perHalf, part := .plain, limits := [⟨0, 15, 0, 24576⟩] },
    { off := Reg.TGU_FACET_WATCHDOG, acc := .rw, reset := 0xf4240, mask := 0xffffffff, scope := .perHalf, part := .plain },
    { off := Reg.TGU_SPARSE_CFG, acc := .rw, reset := 0x0, mask := 0x1, scope := .perHalf, part := .plain },
    { off := Reg.TGU_TRAIN_JOB, acc := .rw, reset := 0x0, mask := 0xfffff, scope := .lead, part := .plain },
    { off := Reg.TGU_TRAIN_CFG, acc := .rw, reset := 0x0, mask := 0xe000ffff, scope := .lead, part := .plain },
    { off := Reg.TGU_TRAIN_TABLE_LO, acc := .rw, reset := 0x0, mask := 0xffffffff, scope := .lead, part := .lo },
    { off := Reg.TGU_TRAIN_TABLE_HI, acc := .rw, reset := 0x0, mask := 0xffffffff, scope := .lead, part := .hi },
    { off := Reg.TGU_TRAIN_STATUS, acc := .ro, reset := 0x0, mask := 0x0, scope := .lead, part := .plain },
    { off := Reg.TGU_LANE_SPLIT, acc := .rw, reset := 0x10000, mask := 0x100ff, scope := .perHalf, part := .plain },
    { off := Reg.TGU_FACET_INSTANCES_LO, acc := .rw, reset := 0x0, mask := 0xffffffff, scope := .perHalf, part := .lo },
    { off := Reg.TGU_FACET_INSTANCES_HI, acc := .rw, reset := 0x0, mask := 0xffff, scope := .perHalf, part := .hi },
    { off := Reg.TGU_FACET_MMA_LO, acc := .rw, reset := 0x0, mask := 0xffffffff, scope := .perHalf, part := .lo },
    { off := Reg.TGU_FACET_MMA_HI, acc := .rw, reset := 0x0, mask := 0xffff, scope := .perHalf, part := .hi },
    { off := Reg.TGU_FACET_MMA_CLK_LO, acc := .rw, reset := 0x0, mask := 0xffffffff, scope := .perHalf, part := .lo },
    { off := Reg.TGU_FACET_MMA_CLK_HI, acc := .rw, reset := 0x0, mask := 0xffff, scope := .perHalf, part := .hi },
    { off := Reg.TGU_FACET_INGRESS_BYTES_LO, acc := .rw, reset := 0x0, mask := 0xffffffff, scope := .perHalf, part := .lo },
    { off := Reg.TGU_FACET_INGRESS_BYTES_HI, acc := .rw, reset := 0x0, mask := 0xffff, scope := .perHalf, part := .hi },
    { off := Reg.TGU_FACET_EGRESS_BYTES_LO, acc := .rw, reset := 0x0, mask := 0xffffffff, scope := .perHalf, part := .lo },
    { off := Reg.TGU_FACET_EGRESS_BYTES_HI, acc := .rw, reset := 0x0, mask := 0xffff, scope := .perHalf, part := .hi },
    { off := Reg.TGU_FACET_WAIT_CLK_LO, acc := .rw, reset := 0x0, mask := 0xffffffff, scope := .perHalf, part := .lo },
    { off := Reg.TGU_FACET_WAIT_CLK_HI, acc := .rw, reset := 0x0, mask := 0xffff, scope := .perHalf, part := .hi },
    { off := Reg.TGU_FACET_RLOADS_LO, acc := .rw, reset := 0x0, mask := 0xffffffff, scope := .perHalf, part := .lo },
    { off := Reg.TGU_FACET_RLOADS_HI, acc := .rw, reset := 0x0, mask := 0xffff, scope := .perHalf, part := .hi },
    { off := Reg.TGU_FACET_LOG_BYTES_LO, acc := .rw, reset := 0x0, mask := 0xffffffff, scope := .perHalf, part := .lo },
    { off := Reg.TGU_FACET_LOG_BYTES_HI, acc := .rw, reset := 0x0, mask := 0xffff, scope := .perHalf, part := .hi },
    { off := Reg.TGU_FACET_RETAIN_HIT_LO, acc := .rw, reset := 0x0, mask := 0xffffffff, scope := .perHalf, part := .lo },
    { off := Reg.TGU_FACET_RETAIN_HIT_HI, acc := .rw, reset := 0x0, mask := 0xffff, scope := .perHalf, part := .hi },
    { off := Reg.TGU_FACET_TDC_LO, acc := .rw, reset := 0x0, mask := 0xffffffff, scope := .perHalf, part := .lo },
    { off := Reg.TGU_FACET_TDC_HI, acc := .rw, reset := 0x0, mask := 0xffff, scope := .perHalf, part := .hi },
    { off := Reg.TGU_SPARSE_BAD_GROUP_LO, acc := .rw, reset := 0x0, mask := 0xffffffff, scope := .perHalf, part := .lo },
    { off := Reg.TGU_SPARSE_BAD_GROUP_HI, acc := .rw, reset := 0x0, mask := 0xffff, scope := .perHalf, part := .hi },
    { off := Reg.TGU_SPARSE_DROP_INDEX_LO, acc := .rw, reset := 0x0, mask := 0xffffffff, scope := .perHalf, part := .lo },
    { off := Reg.TGU_SPARSE_DROP_INDEX_HI, acc := .rw, reset := 0x0, mask := 0xffff, scope := .perHalf, part := .hi },
    { off := Reg.TGU_SPARSE_MMA_LO, acc := .rw, reset := 0x0, mask := 0xffffffff, scope := .perHalf, part := .lo },
    { off := Reg.TGU_SPARSE_MMA_HI, acc := .rw, reset := 0x0, mask := 0xffff, scope := .perHalf, part := .hi },
    { off := Reg.TGU_SPARSE_SKIP_KBLOCK_LO, acc := .rw, reset := 0x0, mask := 0xffffffff, scope := .perHalf, part := .lo },
    { off := Reg.TGU_SPARSE_SKIP_KBLOCK_HI, acc := .rw, reset := 0x0, mask := 0xffff, scope := .perHalf, part := .hi },
    { off := Reg.TGU_TRAIN_PRODUCERS_LO, acc := .rw, reset := 0x0, mask := 0xffffffff, scope := .lead, part := .lo },
    { off := Reg.TGU_TRAIN_PRODUCERS_HI, acc := .rw, reset := 0x0, mask := 0xffff, scope := .lead, part := .hi },
    { off := Reg.TGU_TRAIN_FROZEN_SKIP_LO, acc := .rw, reset := 0x0, mask := 0xffffffff, scope := .lead, part := .lo },
    { off := Reg.TGU_TRAIN_FROZEN_SKIP_HI, acc := .rw, reset := 0x0, mask := 0xffff, scope := .lead, part := .hi },
    { off := Reg.TGU_TRAIN_OUT_OF_ORDER_LO, acc := .rw, reset := 0x0, mask := 0xffffffff, scope := .lead, part := .lo },
    { off := Reg.TGU_TRAIN_OUT_OF_ORDER_HI, acc := .rw, reset := 0x0, mask := 0xffff, scope := .lead, part := .hi },
    { off := Reg.TGU_TRAIN_ORDER_WAIT_LO, acc := .rw, reset := 0x0, mask := 0xffffffff, scope := .lead, part := .lo },
    { off := Reg.TGU_TRAIN_ORDER_WAIT_HI, acc := .rw, reset := 0x0, mask := 0xffff, scope := .lead, part := .hi },
    { off := Reg.TGU_LANE_LENT_LO, acc := .rw, reset := 0x0, mask := 0xffffffff, scope := .perHalf, part := .lo },
    { off := Reg.TGU_LANE_LENT_HI, acc := .rw, reset := 0x0, mask := 0xffff, scope := .perHalf, part := .hi } ]

/-! ### PRISM block (R98) -/

/-- Offset of PRISM_ADMIT_TIMEOUT in a half window. -/
def Reg.PRISM_ADMIT_TIMEOUT : Nat := 0x80000
/-- Offset of PRISM_CTX_USED in a half window. -/
def Reg.PRISM_CTX_USED : Nat := 0x80004
/-- Offset of PRISM_CTX_HIGH in a half window. -/
def Reg.PRISM_CTX_HIGH : Nat := 0x80008
/-- Offset of PRISM_QUEUE_STATUS in a half window. -/
def Reg.PRISM_QUEUE_STATUS : Nat := 0x8000c
/-- Offset of PRISM_CTX_CLIENT_LIMIT in a half window. -/
def Reg.PRISM_CTX_CLIENT_LIMIT : Nat := 0x80100
/-- Offset of PRISM_CTX_CLIENT_USED in a half window. -/
def Reg.PRISM_CTX_CLIENT_USED : Nat := 0x80200
/-- Offset of PRISM_TOKENS_LO in a half window. -/
def Reg.PRISM_TOKENS_LO : Nat := 0x80400
/-- Offset of PRISM_TOKENS_HI in a half window. -/
def Reg.PRISM_TOKENS_HI : Nat := 0x80404
/-- Offset of PRISM_PAIRS_LO in a half window. -/
def Reg.PRISM_PAIRS_LO : Nat := 0x80408
/-- Offset of PRISM_PAIRS_HI in a half window. -/
def Reg.PRISM_PAIRS_HI : Nat := 0x8040c
/-- Offset of PRISM_ZERO_EXPERT_TOKENS_LO in a half window. -/
def Reg.PRISM_ZERO_EXPERT_TOKENS_LO : Nat := 0x80410
/-- Offset of PRISM_ZERO_EXPERT_TOKENS_HI in a half window. -/
def Reg.PRISM_ZERO_EXPERT_TOKENS_HI : Nat := 0x80414
/-- Offset of PRISM_KMIN_FORCED_LO in a half window. -/
def Reg.PRISM_KMIN_FORCED_LO : Nat := 0x80418
/-- Offset of PRISM_KMIN_FORCED_HI in a half window. -/
def Reg.PRISM_KMIN_FORCED_HI : Nat := 0x8041c
/-- Offset of PRISM_KMAX_CLIPPED_LO in a half window. -/
def Reg.PRISM_KMAX_CLIPPED_LO : Nat := 0x80420
/-- Offset of PRISM_KMAX_CLIPPED_HI in a half window. -/
def Reg.PRISM_KMAX_CLIPPED_HI : Nat := 0x80424
/-- Offset of PRISM_DROP_INDEX_LO in a half window. -/
def Reg.PRISM_DROP_INDEX_LO : Nat := 0x80428
/-- Offset of PRISM_DROP_INDEX_HI in a half window. -/
def Reg.PRISM_DROP_INDEX_HI : Nat := 0x8042c
/-- Offset of PRISM_NONFINITE_LO in a half window. -/
def Reg.PRISM_NONFINITE_LO : Nat := 0x80430
/-- Offset of PRISM_NONFINITE_HI in a half window. -/
def Reg.PRISM_NONFINITE_HI : Nat := 0x80434
/-- Offset of PRISM_CAP_DROP_LO in a half window. -/
def Reg.PRISM_CAP_DROP_LO : Nat := 0x80438
/-- Offset of PRISM_CAP_DROP_HI in a half window. -/
def Reg.PRISM_CAP_DROP_HI : Nat := 0x8043c
/-- Offset of PRISM_ADMIT_STALL_LO in a half window. -/
def Reg.PRISM_ADMIT_STALL_LO : Nat := 0x80440
/-- Offset of PRISM_ADMIT_STALL_HI in a half window. -/
def Reg.PRISM_ADMIT_STALL_HI : Nat := 0x80444
/-- Offset of PRISM_INPUT_STALL_LO in a half window. -/
def Reg.PRISM_INPUT_STALL_LO : Nat := 0x80448
/-- Offset of PRISM_INPUT_STALL_HI in a half window. -/
def Reg.PRISM_INPUT_STALL_HI : Nat := 0x8044c
/-- Offset of PRISM_GROUPS_LO in a half window. -/
def Reg.PRISM_GROUPS_LO : Nat := 0x80450
/-- Offset of PRISM_GROUPS_HI in a half window. -/
def Reg.PRISM_GROUPS_HI : Nat := 0x80454

/-- Registers of the PRISM block (R98). -/
def regsPrism : List RegRow :=
  [ { off := Reg.PRISM_ADMIT_TIMEOUT, acc := .rw, reset := 0x186a0, mask := 0xffffffff, scope := .perHalf, part := .plain },
    { off := Reg.PRISM_CTX_USED, acc := .ro, reset := 0x0, mask := 0x0, scope := .perHalf, part := .plain },
    { off := Reg.PRISM_CTX_HIGH, acc := .rw, reset := 0x0, mask := 0x1fffff, scope := .perHalf, part := .plain },
    { off := Reg.PRISM_QUEUE_STATUS, acc := .ro, reset := 0x0, mask := 0x0, scope := .perHalf, part := .plain },
    { off := Reg.PRISM_CTX_CLIENT_LIMIT, acc := .rw, reset := 0x100000, mask := 0x1fffff, scope := .perHalf, part := .plain, n1 := 64, s1 := 0x4, limits := [⟨0, 21, 0, 1048576⟩] },
    { off := Reg.PRISM_CTX_CLIENT_USED, acc := .ro, reset := 0x0, mask := 0x0, scope := .perHalf, part := .plain, n1 := 64, s1 := 0x4 },
    { off := Reg.PRISM_TOKENS_LO, acc := .rw, reset := 0x0, mask := 0xffffffff, scope := .perHalf, part := .lo },
    { off := Reg.PRISM_TOKENS_HI, acc := .rw, reset := 0x0, mask := 0xffff, scope := .perHalf, part := .hi },
    { off := Reg.PRISM_PAIRS_LO, acc := .rw, reset := 0x0, mask := 0xffffffff, scope := .perHalf, part := .lo },
    { off := Reg.PRISM_PAIRS_HI, acc := .rw, reset := 0x0, mask := 0xffff, scope := .perHalf, part := .hi },
    { off := Reg.PRISM_ZERO_EXPERT_TOKENS_LO, acc := .rw, reset := 0x0, mask := 0xffffffff, scope := .perHalf, part := .lo },
    { off := Reg.PRISM_ZERO_EXPERT_TOKENS_HI, acc := .rw, reset := 0x0, mask := 0xffff, scope := .perHalf, part := .hi },
    { off := Reg.PRISM_KMIN_FORCED_LO, acc := .rw, reset := 0x0, mask := 0xffffffff, scope := .perHalf, part := .lo },
    { off := Reg.PRISM_KMIN_FORCED_HI, acc := .rw, reset := 0x0, mask := 0xffff, scope := .perHalf, part := .hi },
    { off := Reg.PRISM_KMAX_CLIPPED_LO, acc := .rw, reset := 0x0, mask := 0xffffffff, scope := .perHalf, part := .lo },
    { off := Reg.PRISM_KMAX_CLIPPED_HI, acc := .rw, reset := 0x0, mask := 0xffff, scope := .perHalf, part := .hi },
    { off := Reg.PRISM_DROP_INDEX_LO, acc := .rw, reset := 0x0, mask := 0xffffffff, scope := .perHalf, part := .lo },
    { off := Reg.PRISM_DROP_INDEX_HI, acc := .rw, reset := 0x0, mask := 0xffff, scope := .perHalf, part := .hi },
    { off := Reg.PRISM_NONFINITE_LO, acc := .rw, reset := 0x0, mask := 0xffffffff, scope := .perHalf, part := .lo },
    { off := Reg.PRISM_NONFINITE_HI, acc := .rw, reset := 0x0, mask := 0xffff, scope := .perHalf, part := .hi },
    { off := Reg.PRISM_CAP_DROP_LO, acc := .rw, reset := 0x0, mask := 0xffffffff, scope := .perHalf, part := .lo },
    { off := Reg.PRISM_CAP_DROP_HI, acc := .rw, reset := 0x0, mask := 0xffff, scope := .perHalf, part := .hi },
    { off := Reg.PRISM_ADMIT_STALL_LO, acc := .rw, reset := 0x0, mask := 0xffffffff, scope := .perHalf, part := .lo },
    { off := Reg.PRISM_ADMIT_STALL_HI, acc := .rw, reset := 0x0, mask := 0xffff, scope := .perHalf, part := .hi },
    { off := Reg.PRISM_INPUT_STALL_LO, acc := .rw, reset := 0x0, mask := 0xffffffff, scope := .perHalf, part := .lo },
    { off := Reg.PRISM_INPUT_STALL_HI, acc := .rw, reset := 0x0, mask := 0xffff, scope := .perHalf, part := .hi },
    { off := Reg.PRISM_GROUPS_LO, acc := .rw, reset := 0x0, mask := 0xffffffff, scope := .perHalf, part := .lo },
    { off := Reg.PRISM_GROUPS_HI, acc := .rw, reset := 0x0, mask := 0xffff, scope := .perHalf, part := .hi } ]

/-! ### LENS block (R141) -/

/-- Offset of LENS_SLOTS_FREE in a half window. -/
def Reg.LENS_SLOTS_FREE : Nat := 0xa0000
/-- Offset of LENS_PENDING in a half window. -/
def Reg.LENS_PENDING : Nat := 0xa0004
/-- Offset of LENS_STATUS in a half window. -/
def Reg.LENS_STATUS : Nat := 0xa0008
/-- Offset of LENS_TOKENS_LO in a half window. -/
def Reg.LENS_TOKENS_LO : Nat := 0xa0400
/-- Offset of LENS_TOKENS_HI in a half window. -/
def Reg.LENS_TOKENS_HI : Nat := 0xa0404
/-- Offset of LENS_PAIRS_LO in a half window. -/
def Reg.LENS_PAIRS_LO : Nat := 0xa0408
/-- Offset of LENS_PAIRS_HI in a half window. -/
def Reg.LENS_PAIRS_HI : Nat := 0xa040c
/-- Offset of LENS_RESIDUAL_ONLY_LO in a half window. -/
def Reg.LENS_RESIDUAL_ONLY_LO : Nat := 0xa0410
/-- Offset of LENS_RESIDUAL_ONLY_HI in a half window. -/
def Reg.LENS_RESIDUAL_ONLY_HI : Nat := 0xa0414
/-- Offset of LENS_NOTICES_LO in a half window. -/
def Reg.LENS_NOTICES_LO : Nat := 0xa0418
/-- Offset of LENS_NOTICES_HI in a half window. -/
def Reg.LENS_NOTICES_HI : Nat := 0xa041c
/-- Offset of LENS_LATE_DROP_LO in a half window. -/
def Reg.LENS_LATE_DROP_LO : Nat := 0xa0420
/-- Offset of LENS_LATE_DROP_HI in a half window. -/
def Reg.LENS_LATE_DROP_HI : Nat := 0xa0424
/-- Offset of LENS_BAD_NOTICE_LO in a half window. -/
def Reg.LENS_BAD_NOTICE_LO : Nat := 0xa0428
/-- Offset of LENS_BAD_NOTICE_HI in a half window. -/
def Reg.LENS_BAD_NOTICE_HI : Nat := 0xa042c
/-- Offset of LENS_FREE_FAIL_LO in a half window. -/
def Reg.LENS_FREE_FAIL_LO : Nat := 0xa0430
/-- Offset of LENS_FREE_FAIL_HI in a half window. -/
def Reg.LENS_FREE_FAIL_HI : Nat := 0xa0434
/-- Offset of LENS_SLOT_STALL_LO in a half window. -/
def Reg.LENS_SLOT_STALL_LO : Nat := 0xa0438
/-- Offset of LENS_SLOT_STALL_HI in a half window. -/
def Reg.LENS_SLOT_STALL_HI : Nat := 0xa043c
/-- Offset of LENS_INPUT_STALL_LO in a half window. -/
def Reg.LENS_INPUT_STALL_LO : Nat := 0xa0440
/-- Offset of LENS_INPUT_STALL_HI in a half window. -/
def Reg.LENS_INPUT_STALL_HI : Nat := 0xa0444

/-- Registers of the LENS block (R141). -/
def regsLens : List RegRow :=
  [ { off := Reg.LENS_SLOTS_FREE, acc := .ro, reset := 0x10000, mask := 0x0, scope := .perHalf, part := .plain },
    { off := Reg.LENS_PENDING, acc := .ro, reset := 0x0, mask := 0x0, scope := .perHalf, part := .plain },
    { off := Reg.LENS_STATUS, acc := .ro, reset := 0x0, mask := 0x0, scope := .perHalf, part := .plain },
    { off := Reg.LENS_TOKENS_LO, acc := .rw, reset := 0x0, mask := 0xffffffff, scope := .perHalf, part := .lo },
    { off := Reg.LENS_TOKENS_HI, acc := .rw, reset := 0x0, mask := 0xffff, scope := .perHalf, part := .hi },
    { off := Reg.LENS_PAIRS_LO, acc := .rw, reset := 0x0, mask := 0xffffffff, scope := .perHalf, part := .lo },
    { off := Reg.LENS_PAIRS_HI, acc := .rw, reset := 0x0, mask := 0xffff, scope := .perHalf, part := .hi },
    { off := Reg.LENS_RESIDUAL_ONLY_LO, acc := .rw, reset := 0x0, mask := 0xffffffff, scope := .perHalf, part := .lo },
    { off := Reg.LENS_RESIDUAL_ONLY_HI, acc := .rw, reset := 0x0, mask := 0xffff, scope := .perHalf, part := .hi },
    { off := Reg.LENS_NOTICES_LO, acc := .rw, reset := 0x0, mask := 0xffffffff, scope := .perHalf, part := .lo },
    { off := Reg.LENS_NOTICES_HI, acc := .rw, reset := 0x0, mask := 0xffff, scope := .perHalf, part := .hi },
    { off := Reg.LENS_LATE_DROP_LO, acc := .rw, reset := 0x0, mask := 0xffffffff, scope := .perHalf, part := .lo },
    { off := Reg.LENS_LATE_DROP_HI, acc := .rw, reset := 0x0, mask := 0xffff, scope := .perHalf, part := .hi },
    { off := Reg.LENS_BAD_NOTICE_LO, acc := .rw, reset := 0x0, mask := 0xffffffff, scope := .perHalf, part := .lo },
    { off := Reg.LENS_BAD_NOTICE_HI, acc := .rw, reset := 0x0, mask := 0xffff, scope := .perHalf, part := .hi },
    { off := Reg.LENS_FREE_FAIL_LO, acc := .rw, reset := 0x0, mask := 0xffffffff, scope := .perHalf, part := .lo },
    { off := Reg.LENS_FREE_FAIL_HI, acc := .rw, reset := 0x0, mask := 0xffff, scope := .perHalf, part := .hi },
    { off := Reg.LENS_SLOT_STALL_LO, acc := .rw, reset := 0x0, mask := 0xffffffff, scope := .perHalf, part := .lo },
    { off := Reg.LENS_SLOT_STALL_HI, acc := .rw, reset := 0x0, mask := 0xffff, scope := .perHalf, part := .hi },
    { off := Reg.LENS_INPUT_STALL_LO, acc := .rw, reset := 0x0, mask := 0xffffffff, scope := .perHalf, part := .lo },
    { off := Reg.LENS_INPUT_STALL_HI, acc := .rw, reset := 0x0, mask := 0xffff, scope := .perHalf, part := .hi } ]

/-! ### EFU block (R140) -/

/-- Offset of EFU_PREFETCH_LIMIT in a half window. -/
def Reg.EFU_PREFETCH_LIMIT : Nat := 0xc0000
/-- Offset of EFU_RESIDENT_LIMIT in a half window. -/
def Reg.EFU_RESIDENT_LIMIT : Nat := 0xc0004
/-- Offset of EFU_STATUS in a half window. -/
def Reg.EFU_STATUS : Nat := 0xc0008
/-- Offset of EFU_PRED_CLEAR in a half window. -/
def Reg.EFU_PRED_CLEAR : Nat := 0xc000c
/-- Offset of EFU_RESIDENT_USED in a half window. -/
def Reg.EFU_RESIDENT_USED : Nat := 0xc0010
/-- Offset of EFU_RAW_TILES_LO in a half window. -/
def Reg.EFU_RAW_TILES_LO : Nat := 0xc0400
/-- Offset of EFU_RAW_TILES_HI in a half window. -/
def Reg.EFU_RAW_TILES_HI : Nat := 0xc0404
/-- Offset of EFU_EXPERTS_FETCHED_LO in a half window. -/
def Reg.EFU_EXPERTS_FETCHED_LO : Nat := 0xc0408
/-- Offset of EFU_EXPERTS_FETCHED_HI in a half window. -/
def Reg.EFU_EXPERTS_FETCHED_HI : Nat := 0xc040c
/-- Offset of EFU_TILES_DELIVERED_LO in a half window. -/
def Reg.EFU_TILES_DELIVERED_LO : Nat := 0xc0410
/-- Offset of EFU_TILES_DELIVERED_HI in a half window. -/
def Reg.EFU_TILES_DELIVERED_HI : Nat := 0xc0414
/-- Offset of EFU_STORED_BYTES_LO in a half window. -/
def Reg.EFU_STORED_BYTES_LO : Nat := 0xc0418
/-- Offset of EFU_STORED_BYTES_HI in a half window. -/
def Reg.EFU_STORED_BYTES_HI : Nat := 0xc041c
/-- Offset of EFU_PREFETCH_HIT_LO in a half window. -/
def Reg.EFU_PREFETCH_HIT_LO : Nat := 0xc0420
/-- Offset of EFU_PREFETCH_HIT_HI in a half window. -/
def Reg.EFU_PREFETCH_HIT_HI : Nat := 0xc0424
/-- Offset of EFU_PREFETCH_WASTE_LO in a half window. -/
def Reg.EFU_PREFETCH_WASTE_LO : Nat := 0xc0428
/-- Offset of EFU_PREFETCH_WASTE_HI in a half window. -/
def Reg.EFU_PREFETCH_WASTE_HI : Nat := 0xc042c
/-- Offset of EFU_PREDICT_MISS_LO in a half window. -/
def Reg.EFU_PREDICT_MISS_LO : Nat := 0xc0430
/-- Offset of EFU_PREDICT_MISS_HI in a half window. -/
def Reg.EFU_PREDICT_MISS_HI : Nat := 0xc0434
/-- Offset of EFU_RESIDENT_HIT_LO in a half window. -/
def Reg.EFU_RESIDENT_HIT_LO : Nat := 0xc0438
/-- Offset of EFU_RESIDENT_HIT_HI in a half window. -/
def Reg.EFU_RESIDENT_HIT_HI : Nat := 0xc043c
/-- Offset of EFU_MCAST_STALL_LO in a half window. -/
def Reg.EFU_MCAST_STALL_LO : Nat := 0xc0440
/-- Offset of EFU_MCAST_STALL_HI in a half window. -/
def Reg.EFU_MCAST_STALL_HI : Nat := 0xc0444
/-- Offset of EFU_TILE_REREAD_LO in a half window. -/
def Reg.EFU_TILE_REREAD_LO : Nat := 0xc0448
/-- Offset of EFU_TILE_REREAD_HI in a half window. -/
def Reg.EFU_TILE_REREAD_HI : Nat := 0xc044c
/-- Offset of EFU_REDELIVER_LO in a half window. -/
def Reg.EFU_REDELIVER_LO : Nat := 0xc0450
/-- Offset of EFU_REDELIVER_HI in a half window. -/
def Reg.EFU_REDELIVER_HI : Nat := 0xc0454
/-- Offset of EFU_EXCHANGE_SENT_LO in a half window. -/
def Reg.EFU_EXCHANGE_SENT_LO : Nat := 0xc0458
/-- Offset of EFU_EXCHANGE_SENT_HI in a half window. -/
def Reg.EFU_EXCHANGE_SENT_HI : Nat := 0xc045c
/-- Offset of EFU_EXCHANGE_RECV_LO in a half window. -/
def Reg.EFU_EXCHANGE_RECV_LO : Nat := 0xc0460
/-- Offset of EFU_EXCHANGE_RECV_HI in a half window. -/
def Reg.EFU_EXCHANGE_RECV_HI : Nat := 0xc0464

/-- Registers of the EFU block (R140). -/
def regsEfu : List RegRow :=
  [ { off := Reg.EFU_PREFETCH_LIMIT, acc := .rw, reset := 0x40, mask := 0x1ff, scope := .perHalf, part := .plain, limits := [⟨0, 9, 0, 256⟩] },
    { off := Reg.EFU_RESIDENT_LIMIT, acc := .rw, reset := 0x0, mask := 0x1ff, scope := .perHalf, part := .plain, limits := [⟨0, 9, 0, 256⟩] },
    { off := Reg.EFU_STATUS, acc := .ro, reset := 0x0, mask := 0x0, scope := .perHalf, part := .plain },
    { off := Reg.EFU_PRED_CLEAR, acc := .wo, reset := 0x0, mask := 0x1ff, scope := .perHalf, part := .plain },
    { off := Reg.EFU_RESIDENT_USED, acc := .ro, reset := 0x0, mask := 0x0, scope := .perHalf, part := .plain },
    { off := Reg.EFU_RAW_TILES_LO, acc := .rw, reset := 0x0, mask := 0xffffffff, scope := .perHalf, part := .lo },
    { off := Reg.EFU_RAW_TILES_HI, acc := .rw, reset := 0x0, mask := 0xffff, scope := .perHalf, part := .hi },
    { off := Reg.EFU_EXPERTS_FETCHED_LO, acc := .rw, reset := 0x0, mask := 0xffffffff, scope := .perHalf, part := .lo },
    { off := Reg.EFU_EXPERTS_FETCHED_HI, acc := .rw, reset := 0x0, mask := 0xffff, scope := .perHalf, part := .hi },
    { off := Reg.EFU_TILES_DELIVERED_LO, acc := .rw, reset := 0x0, mask := 0xffffffff, scope := .perHalf, part := .lo },
    { off := Reg.EFU_TILES_DELIVERED_HI, acc := .rw, reset := 0x0, mask := 0xffff, scope := .perHalf, part := .hi },
    { off := Reg.EFU_STORED_BYTES_LO, acc := .rw, reset := 0x0, mask := 0xffffffff, scope := .perHalf, part := .lo },
    { off := Reg.EFU_STORED_BYTES_HI, acc := .rw, reset := 0x0, mask := 0xffff, scope := .perHalf, part := .hi },
    { off := Reg.EFU_PREFETCH_HIT_LO, acc := .rw, reset := 0x0, mask := 0xffffffff, scope := .perHalf, part := .lo },
    { off := Reg.EFU_PREFETCH_HIT_HI, acc := .rw, reset := 0x0, mask := 0xffff, scope := .perHalf, part := .hi },
    { off := Reg.EFU_PREFETCH_WASTE_LO, acc := .rw, reset := 0x0, mask := 0xffffffff, scope := .perHalf, part := .lo },
    { off := Reg.EFU_PREFETCH_WASTE_HI, acc := .rw, reset := 0x0, mask := 0xffff, scope := .perHalf, part := .hi },
    { off := Reg.EFU_PREDICT_MISS_LO, acc := .rw, reset := 0x0, mask := 0xffffffff, scope := .perHalf, part := .lo },
    { off := Reg.EFU_PREDICT_MISS_HI, acc := .rw, reset := 0x0, mask := 0xffff, scope := .perHalf, part := .hi },
    { off := Reg.EFU_RESIDENT_HIT_LO, acc := .rw, reset := 0x0, mask := 0xffffffff, scope := .perHalf, part := .lo },
    { off := Reg.EFU_RESIDENT_HIT_HI, acc := .rw, reset := 0x0, mask := 0xffff, scope := .perHalf, part := .hi },
    { off := Reg.EFU_MCAST_STALL_LO, acc := .rw, reset := 0x0, mask := 0xffffffff, scope := .perHalf, part := .lo },
    { off := Reg.EFU_MCAST_STALL_HI, acc := .rw, reset := 0x0, mask := 0xffff, scope := .perHalf, part := .hi },
    { off := Reg.EFU_TILE_REREAD_LO, acc := .rw, reset := 0x0, mask := 0xffffffff, scope := .perHalf, part := .lo },
    { off := Reg.EFU_TILE_REREAD_HI, acc := .rw, reset := 0x0, mask := 0xffff, scope := .perHalf, part := .hi },
    { off := Reg.EFU_REDELIVER_LO, acc := .rw, reset := 0x0, mask := 0xffffffff, scope := .perHalf, part := .lo },
    { off := Reg.EFU_REDELIVER_HI, acc := .rw, reset := 0x0, mask := 0xffff, scope := .perHalf, part := .hi },
    { off := Reg.EFU_EXCHANGE_SENT_LO, acc := .rw, reset := 0x0, mask := 0xffffffff, scope := .perHalf, part := .lo },
    { off := Reg.EFU_EXCHANGE_SENT_HI, acc := .rw, reset := 0x0, mask := 0xffff, scope := .perHalf, part := .hi },
    { off := Reg.EFU_EXCHANGE_RECV_LO, acc := .rw, reset := 0x0, mask := 0xffffffff, scope := .perHalf, part := .lo },
    { off := Reg.EFU_EXCHANGE_RECV_HI, acc := .rw, reset := 0x0, mask := 0xffff, scope := .perHalf, part := .hi } ]

/-! ### TM block (R273) -/

/-- Offset of TM_RAW_TILES_LO in a half window. -/
def Reg.TM_RAW_TILES_LO : Nat := 0xe0400
/-- Offset of TM_RAW_TILES_HI in a half window. -/
def Reg.TM_RAW_TILES_HI : Nat := 0xe0404
/-- Offset of TM_BYTES_OUT_LO in a half window. -/
def Reg.TM_BYTES_OUT_LO : Nat := 0xe0408
/-- Offset of TM_BYTES_OUT_HI in a half window. -/
def Reg.TM_BYTES_OUT_HI : Nat := 0xe040c
/-- Offset of TM_TILES_COMPRESSED_LO in a half window. -/
def Reg.TM_TILES_COMPRESSED_LO : Nat := 0xe0410
/-- Offset of TM_TILES_COMPRESSED_HI in a half window. -/
def Reg.TM_TILES_COMPRESSED_HI : Nat := 0xe0414
/-- Offset of TM_FRAMES_LO in a half window. -/
def Reg.TM_FRAMES_LO : Nat := 0xe0418
/-- Offset of TM_FRAMES_HI in a half window. -/
def Reg.TM_FRAMES_HI : Nat := 0xe041c
/-- Offset of TM_WINDOW_ROWS_LO in a half window. -/
def Reg.TM_WINDOW_ROWS_LO : Nat := 0xe0420
/-- Offset of TM_WINDOW_ROWS_HI in a half window. -/
def Reg.TM_WINDOW_ROWS_HI : Nat := 0xe0424

/-- Registers of the TM block (R273). -/
def regsTm : List RegRow :=
  [ { off := Reg.TM_RAW_TILES_LO, acc := .rw, reset := 0x0, mask := 0xffffffff, scope := .perHalf, part := .lo },
    { off := Reg.TM_RAW_TILES_HI, acc := .rw, reset := 0x0, mask := 0xffff, scope := .perHalf, part := .hi },
    { off := Reg.TM_BYTES_OUT_LO, acc := .rw, reset := 0x0, mask := 0xffffffff, scope := .perHalf, part := .lo },
    { off := Reg.TM_BYTES_OUT_HI, acc := .rw, reset := 0x0, mask := 0xffff, scope := .perHalf, part := .hi },
    { off := Reg.TM_TILES_COMPRESSED_LO, acc := .rw, reset := 0x0, mask := 0xffffffff, scope := .perHalf, part := .lo },
    { off := Reg.TM_TILES_COMPRESSED_HI, acc := .rw, reset := 0x0, mask := 0xffff, scope := .perHalf, part := .hi },
    { off := Reg.TM_FRAMES_LO, acc := .rw, reset := 0x0, mask := 0xffffffff, scope := .perHalf, part := .lo },
    { off := Reg.TM_FRAMES_HI, acc := .rw, reset := 0x0, mask := 0xffff, scope := .perHalf, part := .hi },
    { off := Reg.TM_WINDOW_ROWS_LO, acc := .rw, reset := 0x0, mask := 0xffffffff, scope := .perHalf, part := .lo },
    { off := Reg.TM_WINDOW_ROWS_HI, acc := .rw, reset := 0x0, mask := 0xffff, scope := .perHalf, part := .hi } ]

/-! ### BPM block (R272) -/

/-- Offset of BPM_POOL_CFG_LO in a half window. -/
def Reg.BPM_POOL_CFG_LO : Nat := 0x100000
/-- Offset of BPM_POOL_CFG_HI in a half window. -/
def Reg.BPM_POOL_CFG_HI : Nat := 0x100004
/-- Offset of BPM_CFG_STATUS in a half window. -/
def Reg.BPM_CFG_STATUS : Nat := 0x100080
/-- Offset of BPM_T1_UNCARVED in a half window. -/
def Reg.BPM_T1_UNCARVED : Nat := 0x100084
/-- Offset of BPM_POOL_FREE in a half window. -/
def Reg.BPM_POOL_FREE : Nat := 0x100100
/-- Offset of BPM_ALLOC_OK_LO in a half window. -/
def Reg.BPM_ALLOC_OK_LO : Nat := 0x100400
/-- Offset of BPM_ALLOC_OK_HI in a half window. -/
def Reg.BPM_ALLOC_OK_HI : Nat := 0x100404
/-- Offset of BPM_FREE_OK_LO in a half window. -/
def Reg.BPM_FREE_OK_LO : Nat := 0x100408
/-- Offset of BPM_FREE_OK_HI in a half window. -/
def Reg.BPM_FREE_OK_HI : Nat := 0x10040c
/-- Offset of BPM_EMPTY_LO in a half window. -/
def Reg.BPM_EMPTY_LO : Nat := 0x100410
/-- Offset of BPM_EMPTY_HI in a half window. -/
def Reg.BPM_EMPTY_HI : Nat := 0x100414
/-- Offset of BPM_QUOTA_LO in a half window. -/
def Reg.BPM_QUOTA_LO : Nat := 0x100418
/-- Offset of BPM_QUOTA_HI in a half window. -/
def Reg.BPM_QUOTA_HI : Nat := 0x10041c
/-- Offset of BPM_OWNER_REFUSED_LO in a half window. -/
def Reg.BPM_OWNER_REFUSED_LO : Nat := 0x100420
/-- Offset of BPM_OWNER_REFUSED_HI in a half window. -/
def Reg.BPM_OWNER_REFUSED_HI : Nat := 0x100424
/-- Offset of BPM_POOL_RESERVE in a half window. -/
def Reg.BPM_POOL_RESERVE : Nat := 0x101000
/-- Offset of BPM_POOL_HELD in a half window. -/
def Reg.BPM_POOL_HELD : Nat := 0x102000

/-- Registers of the BPM block (R272). -/
def regsBpm : List RegRow :=
  [ { off := Reg.BPM_POOL_CFG_LO, acc := .rw, reset := 0x0, mask := 0xffffff, scope := .perHalf, part := .lo, n1 := 16, s1 := 0x8 },
    { off := Reg.BPM_POOL_CFG_HI, acc := .rw, reset := 0x0, mask := 0x1fffff, scope := .perHalf, part := .hi, n1 := 16, s1 := 0x8 },
    { off := Reg.BPM_CFG_STATUS, acc := .ro, reset := 0x0, mask := 0x0, scope := .perHalf, part := .plain },
    { off := Reg.BPM_T1_UNCARVED, acc := .ro, reset := 0x1b0, mask := 0x0, scope := .perHalf, part := .plain },
    { off := Reg.BPM_POOL_FREE, acc := .ro, reset := 0x0, mask := 0x0, scope := .perHalf, part := .plain, n1 := 16, s1 := 0x4 },
    { off := Reg.BPM_ALLOC_OK_LO, acc := .rw, reset := 0x0, mask := 0xffffffff, scope := .perHalf, part := .lo },
    { off := Reg.BPM_ALLOC_OK_HI, acc := .rw, reset := 0x0, mask := 0xffff, scope := .perHalf, part := .hi },
    { off := Reg.BPM_FREE_OK_LO, acc := .rw, reset := 0x0, mask := 0xffffffff, scope := .perHalf, part := .lo },
    { off := Reg.BPM_FREE_OK_HI, acc := .rw, reset := 0x0, mask := 0xffff, scope := .perHalf, part := .hi },
    { off := Reg.BPM_EMPTY_LO, acc := .rw, reset := 0x0, mask := 0xffffffff, scope := .perHalf, part := .lo },
    { off := Reg.BPM_EMPTY_HI, acc := .rw, reset := 0x0, mask := 0xffff, scope := .perHalf, part := .hi },
    { off := Reg.BPM_QUOTA_LO, acc := .rw, reset := 0x0, mask := 0xffffffff, scope := .perHalf, part := .lo },
    { off := Reg.BPM_QUOTA_HI, acc := .rw, reset := 0x0, mask := 0xffff, scope := .perHalf, part := .hi },
    { off := Reg.BPM_OWNER_REFUSED_LO, acc := .rw, reset := 0x0, mask := 0xffffffff, scope := .perHalf, part := .lo },
    { off := Reg.BPM_OWNER_REFUSED_HI, acc := .rw, reset := 0x0, mask := 0xffff, scope := .perHalf, part := .hi },
    { off := Reg.BPM_POOL_RESERVE, acc := .rw, reset := 0x0, mask := 0x1fffff, scope := .perHalf, part := .plain, n1 := 16, s1 := 0x100, n2 := 64, s2 := 0x4 },
    { off := Reg.BPM_POOL_HELD, acc := .ro, reset := 0x0, mask := 0x0, scope := .perHalf, part := .plain, n1 := 16, s1 := 0x100, n2 := 64, s2 := 0x4 } ]

/-! ### MEM block (R271) -/

/-- Offset of MEM_SCRUB_CFG in a half window. -/
def Reg.MEM_SCRUB_CFG : Nat := 0x140000
/-- Offset of MEM_STATUS in a half window. -/
def Reg.MEM_STATUS : Nat := 0x140004
/-- Offset of MEM_ECC_CE_LO in a half window. -/
def Reg.MEM_ECC_CE_LO : Nat := 0x140400
/-- Offset of MEM_ECC_CE_HI in a half window. -/
def Reg.MEM_ECC_CE_HI : Nat := 0x140404
/-- Offset of MEM_STACK_CE_LO in a half window. -/
def Reg.MEM_STACK_CE_LO : Nat := 0x140408
/-- Offset of MEM_STACK_CE_HI in a half window. -/
def Reg.MEM_STACK_CE_HI : Nat := 0x14040c
/-- Offset of MEM_ECC_UE_LO in a half window. -/
def Reg.MEM_ECC_UE_LO : Nat := 0x140410
/-- Offset of MEM_ECC_UE_HI in a half window. -/
def Reg.MEM_ECC_UE_HI : Nat := 0x140414
/-- Offset of MEM_POISON_READ_LO in a half window. -/
def Reg.MEM_POISON_READ_LO : Nat := 0x140418
/-- Offset of MEM_POISON_READ_HI in a half window. -/
def Reg.MEM_POISON_READ_HI : Nat := 0x14041c
/-- Offset of MEM_SCRUB_PASSES_LO in a half window. -/
def Reg.MEM_SCRUB_PASSES_LO : Nat := 0x140420
/-- Offset of MEM_SCRUB_PASSES_HI in a half window. -/
def Reg.MEM_SCRUB_PASSES_HI : Nat := 0x140424
/-- Offset of MEM_ACCESS_DENIED_LO in a half window. -/
def Reg.MEM_ACCESS_DENIED_LO : Nat := 0x140428
/-- Offset of MEM_ACCESS_DENIED_HI in a half window. -/
def Reg.MEM_ACCESS_DENIED_HI : Nat := 0x14042c
/-- Offset of MEM_QUOTA_T1 in a half window. -/
def Reg.MEM_QUOTA_T1 : Nat := 0x141000
/-- Offset of MEM_QUOTA_T2 in a half window. -/
def Reg.MEM_QUOTA_T2 : Nat := 0x141004
/-- Offset of MEM_USED_T1 in a half window. -/
def Reg.MEM_USED_T1 : Nat := 0x142000
/-- Offset of MEM_USED_T2 in a half window. -/
def Reg.MEM_USED_T2 : Nat := 0x142004

/-- Registers of the MEM block (R271). -/
def regsMem : List RegRow :=
  [ { off := Reg.MEM_SCRUB_CFG, acc := .rw, reset := 0x80000018, mask := 0x800000ff, scope := .perHalf, part := .plain, limits := [⟨0, 8, 1, 168⟩] },
    { off := Reg.MEM_STATUS, acc := .ro, reset := 0x0, mask := 0x0, scope := .perHalf, part := .plain },
    { off := Reg.MEM_ECC_CE_LO, acc := .rw, reset := 0x0, mask := 0xffffffff, scope := .perHalf, part := .lo },
    { off := Reg.MEM_ECC_CE_HI, acc := .rw, reset := 0x0, mask := 0xffff, scope := .perHalf, part := .hi },
    { off := Reg.MEM_STACK_CE_LO, acc := .rw, reset := 0x0, mask := 0xffffffff, scope := .perHalf, part := .lo },
    { off := Reg.MEM_STACK_CE_HI, acc := .rw, reset := 0x0, mask := 0xffff, scope := .perHalf, part := .hi },
    { off := Reg.MEM_ECC_UE_LO, acc := .rw, reset := 0x0, mask := 0xffffffff, scope := .perHalf, part := .lo },
    { off := Reg.MEM_ECC_UE_HI, acc := .rw, reset := 0x0, mask := 0xffff, scope := .perHalf, part := .hi },
    { off := Reg.MEM_POISON_READ_LO, acc := .rw, reset := 0x0, mask := 0xffffffff, scope := .perHalf, part := .lo },
    { off := Reg.MEM_POISON_READ_HI, acc := .rw, reset := 0x0, mask := 0xffff, scope := .perHalf, part := .hi },
    { off := Reg.MEM_SCRUB_PASSES_LO, acc := .rw, reset := 0x0, mask := 0xffffffff, scope := .perHalf, part := .lo },
    { off := Reg.MEM_SCRUB_PASSES_HI, acc := .rw, reset := 0x0, mask := 0xffff, scope := .perHalf, part := .hi },
    { off := Reg.MEM_ACCESS_DENIED_LO, acc := .rw, reset := 0x0, mask := 0xffffffff, scope := .perHalf, part := .lo },
    { off := Reg.MEM_ACCESS_DENIED_HI, acc := .rw, reset := 0x0, mask := 0xffff, scope := .perHalf, part := .hi },
    { off := Reg.MEM_QUOTA_T1, acc := .rw, reset := 0x40000, mask := 0x7ffff, scope := .lead, part := .plain, n1 := 64, s1 := 0x10, limits := [⟨0, 19, 0, 262144⟩] },
    { off := Reg.MEM_QUOTA_T2, acc := .rw, reset := 0x2000000, mask := 0x3ffffff, scope := .lead, part := .plain, n1 := 64, s1 := 0x10, n2 := 3, s2 := 0x4, limits := [⟨0, 26, 0, 33554432⟩] },
    { off := Reg.MEM_USED_T1, acc := .ro, reset := 0x0, mask := 0x0, scope := .lead, part := .plain, n1 := 64, s1 := 0x10 },
    { off := Reg.MEM_USED_T2, acc := .ro, reset := 0x0, mask := 0x0, scope := .lead, part := .plain, n1 := 64, s1 := 0x10, n2 := 3, s2 := 0x4 } ]

/-! ### FAB block (R393, R394) -/

/-- Offset of FAB_DEVICE_ID in a half window. -/
def Reg.FAB_DEVICE_ID : Nat := 0x200000
/-- Offset of FAB_REVISION in a half window. -/
def Reg.FAB_REVISION : Nat := 0x200004
/-- Offset of FAB_TC_WEIGHT in a half window. -/
def Reg.FAB_TC_WEIGHT : Nat := 0x200008
/-- Offset of FAB_TIMEOUT in a half window. -/
def Reg.FAB_TIMEOUT : Nat := 0x20000c
/-- Offset of FAB_TIME_CFG in a half window. -/
def Reg.FAB_TIME_CFG : Nat := 0x200010
/-- Offset of FAB_SETUP_HASH_LO in a half window. -/
def Reg.FAB_SETUP_HASH_LO : Nat := 0x200018
/-- Offset of FAB_SETUP_HASH_HI in a half window. -/
def Reg.FAB_SETUP_HASH_HI : Nat := 0x20001c
/-- Offset of FAB_SETUP_STATUS in a half window. -/
def Reg.FAB_SETUP_STATUS : Nat := 0x200020
/-- Offset of FAB_REMOTE_JOB in a half window. -/
def Reg.FAB_REMOTE_JOB : Nat := 0x200024
/-- Offset of FAB_REMOTE_CTL in a half window. -/
def Reg.FAB_REMOTE_CTL : Nat := 0x200028
/-- Offset of FAB_REMOTE_STATUS in a half window. -/
def Reg.FAB_REMOTE_STATUS : Nat := 0x20002c
/-- Offset of FAB_REGION_WORD in a half window. -/
def Reg.FAB_REGION_WORD : Nat := 0x200040
/-- Offset of FAB_REGION_CTL in a half window. -/
def Reg.FAB_REGION_CTL : Nat := 0x200060
/-- Offset of FAB_REGION_STATUS in a half window. -/
def Reg.FAB_REGION_STATUS : Nat := 0x200064
/-- Offset of FAB_ROUTE_DEST in a half window. -/
def Reg.FAB_ROUTE_DEST : Nat := 0x200070
/-- Offset of FAB_ROUTE_ENTRY_LO in a half window. -/
def Reg.FAB_ROUTE_ENTRY_LO : Nat := 0x200074
/-- Offset of FAB_ROUTE_ENTRY_HI in a half window. -/
def Reg.FAB_ROUTE_ENTRY_HI : Nat := 0x200078
/-- Offset of FAB_READER_SEL in a half window. -/
def Reg.FAB_READER_SEL : Nat := 0x200080
/-- Offset of FAB_READER_WORD in a half window. -/
def Reg.FAB_READER_WORD : Nat := 0x200084
/-- Offset of FAB_READER_CTL in a half window. -/
def Reg.FAB_READER_CTL : Nat := 0x200094
/-- Offset of FAB_PORT_CFG in a half window. -/
def Reg.FAB_PORT_CFG : Nat := 0x200100
/-- Offset of FAB_PORT_STATUS in a half window. -/
def Reg.FAB_PORT_STATUS : Nat := 0x200200
/-- Offset of FAB_FLITS_TX_LO in a half window. -/
def Reg.FAB_FLITS_TX_LO : Nat := 0x200400
/-- Offset of FAB_FLITS_TX_HI in a half window. -/
def Reg.FAB_FLITS_TX_HI : Nat := 0x200404
/-- Offset of FAB_FLIT_CRC_ERR_LO in a half window. -/
def Reg.FAB_FLIT_CRC_ERR_LO : Nat := 0x200408
/-- Offset of FAB_FLIT_CRC_ERR_HI in a half window. -/
def Reg.FAB_FLIT_CRC_ERR_HI : Nat := 0x20040c
/-- Offset of FAB_FEC_CORRECTED_LO in a half window. -/
def Reg.FAB_FEC_CORRECTED_LO : Nat := 0x200410
/-- Offset of FAB_FEC_CORRECTED_HI in a half window. -/
def Reg.FAB_FEC_CORRECTED_HI : Nat := 0x200414
/-- Offset of FAB_REPLAYS_LO in a half window. -/
def Reg.FAB_REPLAYS_LO : Nat := 0x200418
/-- Offset of FAB_REPLAYS_HI in a half window. -/
def Reg.FAB_REPLAYS_HI : Nat := 0x20041c
/-- Offset of FAB_TAG_FAIL_LO in a half window. -/
def Reg.FAB_TAG_FAIL_LO : Nat := 0x200420
/-- Offset of FAB_TAG_FAIL_HI in a half window. -/
def Reg.FAB_TAG_FAIL_HI : Nat := 0x200424
/-- Offset of FAB_DUP_DISCARD_LO in a half window. -/
def Reg.FAB_DUP_DISCARD_LO : Nat := 0x200428
/-- Offset of FAB_DUP_DISCARD_HI in a half window. -/
def Reg.FAB_DUP_DISCARD_HI : Nat := 0x20042c
/-- Offset of FAB_RESENT_LO in a half window. -/
def Reg.FAB_RESENT_LO : Nat := 0x200430
/-- Offset of FAB_RESENT_HI in a half window. -/
def Reg.FAB_RESENT_HI : Nat := 0x200434
/-- Offset of FAB_PATH_DEAD_LO in a half window. -/
def Reg.FAB_PATH_DEAD_LO : Nat := 0x200438
/-- Offset of FAB_PATH_DEAD_HI in a half window. -/
def Reg.FAB_PATH_DEAD_HI : Nat := 0x20043c
/-- Offset of FAB_REFUSED_LO in a half window. -/
def Reg.FAB_REFUSED_LO : Nat := 0x200440
/-- Offset of FAB_REFUSED_HI in a half window. -/
def Reg.FAB_REFUSED_HI : Nat := 0x200444
/-- Offset of FAB_GATEWAY_BULK_LO in a half window. -/
def Reg.FAB_GATEWAY_BULK_LO : Nat := 0x200448
/-- Offset of FAB_GATEWAY_BULK_HI in a half window. -/
def Reg.FAB_GATEWAY_BULK_HI : Nat := 0x20044c
/-- Offset of FAB_ORDERED_ADDS_LO in a half window. -/
def Reg.FAB_ORDERED_ADDS_LO : Nat := 0x200450
/-- Offset of FAB_ORDERED_ADDS_HI in a half window. -/
def Reg.FAB_ORDERED_ADDS_HI : Nat := 0x200454
/-- Offset of FAB_LEVEL_PRESSURE_LO in a half window. -/
def Reg.FAB_LEVEL_PRESSURE_LO : Nat := 0x200458
/-- Offset of FAB_LEVEL_PRESSURE_HI in a half window. -/
def Reg.FAB_LEVEL_PRESSURE_HI : Nat := 0x20045c
/-- Offset of FAB_LEVEL_BYTES_LO in a half window. -/
def Reg.FAB_LEVEL_BYTES_LO : Nat := 0x200480
/-- Offset of FAB_LEVEL_BYTES_HI in a half window. -/
def Reg.FAB_LEVEL_BYTES_HI : Nat := 0x200484

/-- Registers of the FAB block (R393, R394). -/
def regsFab : List RegRow :=
  [ { off := Reg.FAB_DEVICE_ID, acc := .ro, reset := 0x0, mask := 0x0, scope := .perHalf, part := .plain },
    { off := Reg.FAB_REVISION, acc := .ro, reset := 0x100, mask := 0x0, scope := .perHalf, part := .plain },
    { off := Reg.FAB_TC_WEIGHT, acc := .rw, reset := 0x420c410, mask := 0x3fffffff, scope := .perHalf, part := .plain, limits := [⟨0, 6, 1, 63⟩, ⟨6, 6, 1, 63⟩, ⟨12, 6, 1, 63⟩, ⟨18, 6, 1, 63⟩, ⟨24, 6, 1, 63⟩] },
    { off := Reg.FAB_TIMEOUT, acc := .rw, reset := 0xa0064, mask := 0xffffffff, scope := .lead, part := .plain, limits := [⟨0, 16, 10, 65535⟩, ⟨16, 16, 1, 65535⟩] },
    { off := Reg.FAB_TIME_CFG, acc := .rw, reset := 0x0, mask := 0x8000003f, scope := .perHalf, part := .plain },
    { off := Reg.FAB_SETUP_HASH_LO, acc := .rw, reset := 0x0, mask := 0xffffffff, scope := .lead, part := .lo },
    { off := Reg.FAB_SETUP_HASH_HI, acc := .rw, reset := 0x0, mask := 0xffffffff, scope := .lead, part := .hi },
    { off := Reg.FAB_SETUP_STATUS, acc := .ro, reset := 0x0, mask := 0x0, scope := .lead, part := .plain },
    { off := Reg.FAB_REMOTE_JOB, acc := .rw, reset := 0x0, mask := 0xfffff, scope := .lead, part := .plain },
    { off := Reg.FAB_REMOTE_CTL, acc := .wo, reset := 0x0, mask := 0x3, scope := .lead, part := .plain },
    { off := Reg.FAB_REMOTE_STATUS, acc := .ro, reset := 0x0, mask := 0x0, scope := .lead, part := .plain },
    { off := Reg.FAB_REGION_WORD, acc := .rw, reset := 0x0, mask := 0xffffffff, scope := .lead, part := .plain, n1 := 8, s1 := 0x4 },
    { off := Reg.FAB_REGION_CTL, acc := .wo, reset := 0x0, mask := 0x3, scope := .lead, part := .plain },
    { off := Reg.FAB_REGION_STATUS, acc := .ro, reset := 0x0, mask := 0x0, scope := .lead, part := .plain },
    { off := Reg.FAB_ROUTE_DEST, acc := .rw, reset := 0x0, mask := 0x3ffff, scope := .lead, part := .plain },
    { off := Reg.FAB_ROUTE_ENTRY_LO, acc := .rw, reset := 0x0, mask := 0xffffffff, scope := .lead, part := .lo },
    { off := Reg.FAB_ROUTE_ENTRY_HI, acc := .rw, reset := 0x0, mask := 0xffffffff, scope := .lead, part := .hi },
    { off := Reg.FAB_READER_SEL, acc := .rw, reset := 0x0, mask := 0x3fff003f, scope := .lead, part := .plain },
    { off := Reg.FAB_READER_WORD, acc := .rw, reset := 0x0, mask := 0xffffffff, scope := .lead, part := .plain, n1 := 4, s1 := 0x4 },
    { off := Reg.FAB_READER_CTL, acc := .wo, reset := 0x0, mask := 0x3, scope := .lead, part := .plain },
    { off := Reg.FAB_PORT_CFG, acc := .rw, reset := 0xa0000000, mask := 0xe0ff0000, scope := .perHalf, part := .plain, n1 := 16, s1 := 0x4 },
    { off := Reg.FAB_PORT_STATUS, acc := .ro, reset := 0x0, mask := 0x0, scope := .perHalf, part := .plain, n1 := 32, s1 := 0x4 },
    { off := Reg.FAB_FLITS_TX_LO, acc := .rw, reset := 0x0, mask := 0xffffffff, scope := .perHalf, part := .lo },
    { off := Reg.FAB_FLITS_TX_HI, acc := .rw, reset := 0x0, mask := 0xffff, scope := .perHalf, part := .hi },
    { off := Reg.FAB_FLIT_CRC_ERR_LO, acc := .rw, reset := 0x0, mask := 0xffffffff, scope := .perHalf, part := .lo },
    { off := Reg.FAB_FLIT_CRC_ERR_HI, acc := .rw, reset := 0x0, mask := 0xffff, scope := .perHalf, part := .hi },
    { off := Reg.FAB_FEC_CORRECTED_LO, acc := .rw, reset := 0x0, mask := 0xffffffff, scope := .perHalf, part := .lo },
    { off := Reg.FAB_FEC_CORRECTED_HI, acc := .rw, reset := 0x0, mask := 0xffff, scope := .perHalf, part := .hi },
    { off := Reg.FAB_REPLAYS_LO, acc := .rw, reset := 0x0, mask := 0xffffffff, scope := .perHalf, part := .lo },
    { off := Reg.FAB_REPLAYS_HI, acc := .rw, reset := 0x0, mask := 0xffff, scope := .perHalf, part := .hi },
    { off := Reg.FAB_TAG_FAIL_LO, acc := .rw, reset := 0x0, mask := 0xffffffff, scope := .perHalf, part := .lo },
    { off := Reg.FAB_TAG_FAIL_HI, acc := .rw, reset := 0x0, mask := 0xffff, scope := .perHalf, part := .hi },
    { off := Reg.FAB_DUP_DISCARD_LO, acc := .rw, reset := 0x0, mask := 0xffffffff, scope := .perHalf, part := .lo },
    { off := Reg.FAB_DUP_DISCARD_HI, acc := .rw, reset := 0x0, mask := 0xffff, scope := .perHalf, part := .hi },
    { off := Reg.FAB_RESENT_LO, acc := .rw, reset := 0x0, mask := 0xffffffff, scope := .perHalf, part := .lo },
    { off := Reg.FAB_RESENT_HI, acc := .rw, reset := 0x0, mask := 0xffff, scope := .perHalf, part := .hi },
    { off := Reg.FAB_PATH_DEAD_LO, acc := .rw, reset := 0x0, mask := 0xffffffff, scope := .perHalf, part := .lo },
    { off := Reg.FAB_PATH_DEAD_HI, acc := .rw, reset := 0x0, mask := 0xffff, scope := .perHalf, part := .hi },
    { off := Reg.FAB_REFUSED_LO, acc := .rw, reset := 0x0, mask := 0xffffffff, scope := .perHalf, part := .lo },
    { off := Reg.FAB_REFUSED_HI, acc := .rw, reset := 0x0, mask := 0xffff, scope := .perHalf, part := .hi },
    { off := Reg.FAB_GATEWAY_BULK_LO, acc := .rw, reset := 0x0, mask := 0xffffffff, scope := .perHalf, part := .lo },
    { off := Reg.FAB_GATEWAY_BULK_HI, acc := .rw, reset := 0x0, mask := 0xffff, scope := .perHalf, part := .hi },
    { off := Reg.FAB_ORDERED_ADDS_LO, acc := .rw, reset := 0x0, mask := 0xffffffff, scope := .perHalf, part := .lo },
    { off := Reg.FAB_ORDERED_ADDS_HI, acc := .rw, reset := 0x0, mask := 0xffff, scope := .perHalf, part := .hi },
    { off := Reg.FAB_LEVEL_PRESSURE_LO, acc := .rw, reset := 0x0, mask := 0xffffffff, scope := .perHalf, part := .lo, n1 := 5, s1 := 0x8 },
    { off := Reg.FAB_LEVEL_PRESSURE_HI, acc := .rw, reset := 0x0, mask := 0xffff, scope := .perHalf, part := .hi, n1 := 5, s1 := 0x8 },
    { off := Reg.FAB_LEVEL_BYTES_LO, acc := .rw, reset := 0x0, mask := 0xffffffff, scope := .perHalf, part := .lo, n1 := 3, s1 := 0x8 },
    { off := Reg.FAB_LEVEL_BYTES_HI, acc := .rw, reset := 0x0, mask := 0xffff, scope := .perHalf, part := .hi, n1 := 3, s1 := 0x8 } ]

/-! ### CE block (R425, R426) -/

/-- Offset of CE_STATUS in a half window. -/
def Reg.CE_STATUS : Nat := 0x300000
/-- Offset of CE_TIMEOUT in a half window. -/
def Reg.CE_TIMEOUT : Nat := 0x300004
/-- Offset of CE_GROUP_SEL in a half window. -/
def Reg.CE_GROUP_SEL : Nat := 0x300008
/-- Offset of CE_GROUP_WORD in a half window. -/
def Reg.CE_GROUP_WORD : Nat := 0x300010
/-- Offset of CE_GROUP_CTL in a half window. -/
def Reg.CE_GROUP_CTL : Nat := 0x300030
/-- Offset of CE_GROUP_STATUS in a half window. -/
def Reg.CE_GROUP_STATUS : Nat := 0x300034
/-- Offset of CE_MEMBER_INDEX in a half window. -/
def Reg.CE_MEMBER_INDEX : Nat := 0x300038
/-- Offset of CE_MEMBER_DATA in a half window. -/
def Reg.CE_MEMBER_DATA : Nat := 0x30003c
/-- Offset of CE_COLLECTIVES_LO in a half window. -/
def Reg.CE_COLLECTIVES_LO : Nat := 0x300400
/-- Offset of CE_COLLECTIVES_HI in a half window. -/
def Reg.CE_COLLECTIVES_HI : Nat := 0x300404
/-- Offset of CE_BYTES_SENT_LO in a half window. -/
def Reg.CE_BYTES_SENT_LO : Nat := 0x300408
/-- Offset of CE_BYTES_SENT_HI in a half window. -/
def Reg.CE_BYTES_SENT_HI : Nat := 0x30040c
/-- Offset of CE_TILE_RESEND_LO in a half window. -/
def Reg.CE_TILE_RESEND_LO : Nat := 0x300410
/-- Offset of CE_TILE_RESEND_HI in a half window. -/
def Reg.CE_TILE_RESEND_HI : Nat := 0x300414
/-- Offset of CE_REDO_TILES_LO in a half window. -/
def Reg.CE_REDO_TILES_LO : Nat := 0x300418
/-- Offset of CE_REDO_TILES_HI in a half window. -/
def Reg.CE_REDO_TILES_HI : Nat := 0x30041c
/-- Offset of CE_VERIFY_ROUNDS_LO in a half window. -/
def Reg.CE_VERIFY_ROUNDS_LO : Nat := 0x300420
/-- Offset of CE_VERIFY_ROUNDS_HI in a half window. -/
def Reg.CE_VERIFY_ROUNDS_HI : Nat := 0x300424
/-- Offset of CE_STALE_DISCARD_LO in a half window. -/
def Reg.CE_STALE_DISCARD_LO : Nat := 0x300428
/-- Offset of CE_STALE_DISCARD_HI in a half window. -/
def Reg.CE_STALE_DISCARD_HI : Nat := 0x30042c
/-- Offset of CE_EPOCH_RETRY_LO in a half window. -/
def Reg.CE_EPOCH_RETRY_LO : Nat := 0x300430
/-- Offset of CE_EPOCH_RETRY_HI in a half window. -/
def Reg.CE_EPOCH_RETRY_HI : Nat := 0x300434
/-- Offset of CE_TDC_LO in a half window. -/
def Reg.CE_TDC_LO : Nat := 0x300438
/-- Offset of CE_TDC_HI in a half window. -/
def Reg.CE_TDC_HI : Nat := 0x30043c
/-- Offset of CE_TAP_TILES_LO in a half window. -/
def Reg.CE_TAP_TILES_LO : Nat := 0x300440
/-- Offset of CE_TAP_TILES_HI in a half window. -/
def Reg.CE_TAP_TILES_HI : Nat := 0x300444
/-- Offset of CE_EXPERTS_SKIPPED_LO in a half window. -/
def Reg.CE_EXPERTS_SKIPPED_LO : Nat := 0x300448
/-- Offset of CE_EXPERTS_SKIPPED_HI in a half window. -/
def Reg.CE_EXPERTS_SKIPPED_HI : Nat := 0x30044c
/-- Offset of CE_MEMBER_LOST_LO in a half window. -/
def Reg.CE_MEMBER_LOST_LO : Nat := 0x300450
/-- Offset of CE_MEMBER_LOST_HI in a half window. -/
def Reg.CE_MEMBER_LOST_HI : Nat := 0x300454

/-- Registers of the CE block (R425, R426). -/
def regsCe : List RegRow :=
  [ { off := Reg.CE_STATUS, acc := .ro, reset := 0x0, mask := 0x0, scope := .perHalf, part := .plain },
    { off := Reg.CE_TIMEOUT, acc := .rw, reset := 0x64, mask := 0xffff, scope := .lead, part := .plain, limits := [⟨0, 16, 1, 65535⟩] },
    { off := Reg.CE_GROUP_SEL, acc := .rw, reset := 0x0, mask := 0x3f, scope := .lead, part := .plain },
    { off := Reg.CE_GROUP_WORD, acc := .rw, reset := 0x0, mask := 0xffffffff, scope := .lead, part := .plain, n1 := 8, s1 := 0x4 },
    { off := Reg.CE_GROUP_CTL, acc := .wo, reset := 0x0, mask := 0x3, scope := .lead, part := .plain },
    { off := Reg.CE_GROUP_STATUS, acc := .ro, reset := 0x0, mask := 0x0, scope := .lead, part := .plain },
    { off := Reg.CE_MEMBER_INDEX, acc := .rw, reset := 0x0, mask := 0x3fff, scope := .lead, part := .plain },
    { off := Reg.CE_MEMBER_DATA, acc := .rw, reset := 0x0, mask := 0x8003ffff, scope := .lead, part := .plain },
    { off := Reg.CE_COLLECTIVES_LO, acc := .rw, reset := 0x0, mask := 0xffffffff, scope := .perHalf, part := .lo },
    { off := Reg.CE_COLLECTIVES_HI, acc := .rw, reset := 0x0, mask := 0xffff, scope := .perHalf, part := .hi },
    { off := Reg.CE_BYTES_SENT_LO, acc := .rw, reset := 0x0, mask := 0xffffffff, scope := .perHalf, part := .lo },
    { off := Reg.CE_BYTES_SENT_HI, acc := .rw, reset := 0x0, mask := 0xffff, scope := .perHalf, part := .hi },
    { off := Reg.CE_TILE_RESEND_LO, acc := .rw, reset := 0x0, mask := 0xffffffff, scope := .perHalf, part := .lo },
    { off := Reg.CE_TILE_RESEND_HI, acc := .rw, reset := 0x0, mask := 0xffff, scope := .perHalf, part := .hi },
    { off := Reg.CE_REDO_TILES_LO, acc := .rw, reset := 0x0, mask := 0xffffffff, scope := .perHalf, part := .lo },
    { off := Reg.CE_REDO_TILES_HI, acc := .rw, reset := 0x0, mask := 0xffff, scope := .perHalf, part := .hi },
    { off := Reg.CE_VERIFY_ROUNDS_LO, acc := .rw, reset := 0x0, mask := 0xffffffff, scope := .perHalf, part := .lo },
    { off := Reg.CE_VERIFY_ROUNDS_HI, acc := .rw, reset := 0x0, mask := 0xffff, scope := .perHalf, part := .hi },
    { off := Reg.CE_STALE_DISCARD_LO, acc := .rw, reset := 0x0, mask := 0xffffffff, scope := .perHalf, part := .lo },
    { off := Reg.CE_STALE_DISCARD_HI, acc := .rw, reset := 0x0, mask := 0xffff, scope := .perHalf, part := .hi },
    { off := Reg.CE_EPOCH_RETRY_LO, acc := .rw, reset := 0x0, mask := 0xffffffff, scope := .perHalf, part := .lo },
    { off := Reg.CE_EPOCH_RETRY_HI, acc := .rw, reset := 0x0, mask := 0xffff, scope := .perHalf, part := .hi },
    { off := Reg.CE_TDC_LO, acc := .rw, reset := 0x0, mask := 0xffffffff, scope := .perHalf, part := .lo },
    { off := Reg.CE_TDC_HI, acc := .rw, reset := 0x0, mask := 0xffff, scope := .perHalf, part := .hi },
    { off := Reg.CE_TAP_TILES_LO, acc := .rw, reset := 0x0, mask := 0xffffffff, scope := .perHalf, part := .lo },
    { off := Reg.CE_TAP_TILES_HI, acc := .rw, reset := 0x0, mask := 0xffff, scope := .perHalf, part := .hi },
    { off := Reg.CE_EXPERTS_SKIPPED_LO, acc := .rw, reset := 0x0, mask := 0xffffffff, scope := .perHalf, part := .lo },
    { off := Reg.CE_EXPERTS_SKIPPED_HI, acc := .rw, reset := 0x0, mask := 0xffff, scope := .perHalf, part := .hi },
    { off := Reg.CE_MEMBER_LOST_LO, acc := .rw, reset := 0x0, mask := 0xffffffff, scope := .perHalf, part := .lo },
    { off := Reg.CE_MEMBER_LOST_HI, acc := .rw, reset := 0x0, mask := 0xffff, scope := .perHalf, part := .hi } ]

/-! ### HM and MIR block (R486, R487) -/

/-- Offset of HM_RISK in a half window. -/
def Reg.HM_RISK : Nat := 0x380000
/-- Offset of HM_RISK_STEP in a half window. -/
def Reg.HM_RISK_STEP : Nat := 0x380004
/-- Offset of HM_CFG in a half window. -/
def Reg.HM_CFG : Nat := 0x380008
/-- Offset of HM_TEMP_CFG in a half window. -/
def Reg.HM_TEMP_CFG : Nat := 0x38000c
/-- Offset of HM_WEIGHT_0 in a half window. -/
def Reg.HM_WEIGHT_0 : Nat := 0x380010
/-- Offset of HM_WEIGHT_1 in a half window. -/
def Reg.HM_WEIGHT_1 : Nat := 0x380014
/-- Offset of HM_WEIGHT_2 in a half window. -/
def Reg.HM_WEIGHT_2 : Nat := 0x380018
/-- Offset of HM_WEIGHT_3 in a half window. -/
def Reg.HM_WEIGHT_3 : Nat := 0x38001c
/-- Offset of HM_WEIGHT_4 in a half window. -/
def Reg.HM_WEIGHT_4 : Nat := 0x380020
/-- Offset of HM_EWMA in a half window. -/
def Reg.HM_EWMA : Nat := 0x380030
/-- Offset of MIR_PARTNER in a half window. -/
def Reg.MIR_PARTNER : Nat := 0x380100
/-- Offset of MIR_STATUS in a half window. -/
def Reg.MIR_STATUS : Nat := 0x380104
/-- Offset of MIR_CUT_CFG in a half window. -/
def Reg.MIR_CUT_CFG : Nat := 0x380108
/-- Offset of MIR_CUT_STATUS in a half window. -/
def Reg.MIR_CUT_STATUS : Nat := 0x38010c
/-- Offset of MIR_CUT_CLOSED in a half window. -/
def Reg.MIR_CUT_CLOSED : Nat := 0x380110
/-- Offset of MIR_JOB in a half window. -/
def Reg.MIR_JOB : Nat := 0x380114
/-- Offset of MIR_JOB_CTL in a half window. -/
def Reg.MIR_JOB_CTL : Nat := 0x380118
/-- Offset of MIR_RING_SEL in a half window. -/
def Reg.MIR_RING_SEL : Nat := 0x38011c
/-- Offset of MIR_RING_SQ_HEAD in a half window. -/
def Reg.MIR_RING_SQ_HEAD : Nat := 0x380120
/-- Offset of MIR_RING_CQ_TAIL in a half window. -/
def Reg.MIR_RING_CQ_TAIL : Nat := 0x380124
/-- Offset of MIR_HOST_DEVICE in a half window. -/
def Reg.MIR_HOST_DEVICE : Nat := 0x380140
/-- Offset of MIR_HOST_BASE_LO in a half window. -/
def Reg.MIR_HOST_BASE_LO : Nat := 0x380144
/-- Offset of MIR_HOST_BASE_HI in a half window. -/
def Reg.MIR_HOST_BASE_HI : Nat := 0x380148
/-- Offset of MIR_HOST_SIZE in a half window. -/
def Reg.MIR_HOST_SIZE : Nat := 0x38014c
/-- Offset of MIR_RESTORE_SRC in a half window. -/
def Reg.MIR_RESTORE_SRC : Nat := 0x380160
/-- Offset of MIR_RESTORE_JOB in a half window. -/
def Reg.MIR_RESTORE_JOB : Nat := 0x380164
/-- Offset of MIR_RESTORE_CTL in a half window. -/
def Reg.MIR_RESTORE_CTL : Nat := 0x380168
/-- Offset of MIR_RESTORE_STATUS in a half window. -/
def Reg.MIR_RESTORE_STATUS : Nat := 0x38016c
/-- Offset of MIR_CUTS_LO in a half window. -/
def Reg.MIR_CUTS_LO : Nat := 0x380400
/-- Offset of MIR_CUTS_HI in a half window. -/
def Reg.MIR_CUTS_HI : Nat := 0x380404
/-- Offset of MIR_PUSH_BYTES_LO in a half window. -/
def Reg.MIR_PUSH_BYTES_LO : Nat := 0x380408
/-- Offset of MIR_PUSH_BYTES_HI in a half window. -/
def Reg.MIR_PUSH_BYTES_HI : Nat := 0x38040c
/-- Offset of MIR_TAP_BYTES_LO in a half window. -/
def Reg.MIR_TAP_BYTES_LO : Nat := 0x380410
/-- Offset of MIR_TAP_BYTES_HI in a half window. -/
def Reg.MIR_TAP_BYTES_HI : Nat := 0x380414
/-- Offset of MIR_COW_HOLDS_LO in a half window. -/
def Reg.MIR_COW_HOLDS_LO : Nat := 0x380418
/-- Offset of MIR_COW_HOLDS_HI in a half window. -/
def Reg.MIR_COW_HOLDS_HI : Nat := 0x38041c
/-- Offset of MIR_PAUSE_NS_LO in a half window. -/
def Reg.MIR_PAUSE_NS_LO : Nat := 0x380420
/-- Offset of MIR_PAUSE_NS_HI in a half window. -/
def Reg.MIR_PAUSE_NS_HI : Nat := 0x380424
/-- Offset of MIR_HOST_APPLY_BYTES_LO in a half window. -/
def Reg.MIR_HOST_APPLY_BYTES_LO : Nat := 0x380428
/-- Offset of MIR_HOST_APPLY_BYTES_HI in a half window. -/
def Reg.MIR_HOST_APPLY_BYTES_HI : Nat := 0x38042c
/-- Offset of HM_CUT_REQUESTS_LO in a half window. -/
def Reg.HM_CUT_REQUESTS_LO : Nat := 0x380430
/-- Offset of HM_CUT_REQUESTS_HI in a half window. -/
def Reg.HM_CUT_REQUESTS_HI : Nat := 0x380434

/-- Registers of the HM and MIR block (R486, R487). -/
def regsHm : List RegRow :=
  [ { off := Reg.HM_RISK, acc := .ro, reset := 0x4040404, mask := 0x0, scope := .perHalf, part := .plain },
    { off := Reg.HM_RISK_STEP, acc := .rw, reset := 0x2, mask := 0xf, scope := .perHalf, part := .plain },
    { off := Reg.HM_CFG, acc := .rw, reset := 0x3e80044, mask := 0xffff00ff, scope := .perHalf, part := .plain, limits := [⟨16, 16, 1, 65535⟩] },
    { off := Reg.HM_TEMP_CFG, acc := .rw, reset := 0x5505, mask := 0xffff, scope := .perHalf, part := .plain, limits := [⟨0, 8, 1, 255⟩] },
    { off := Reg.HM_WEIGHT_0, acc := .rw, reset := 0x10, mask := 0xff, scope := .perHalf, part := .plain },
    { off := Reg.HM_WEIGHT_1, acc := .rw, reset := 0x20, mask := 0xff, scope := .perHalf, part := .plain },
    { off := Reg.HM_WEIGHT_2, acc := .rw, reset := 0x40, mask := 0xff, scope := .perHalf, part := .plain },
    { off := Reg.HM_WEIGHT_3, acc := .rw, reset := 0x80, mask := 0xff, scope := .perHalf, part := .plain },
    { off := Reg.HM_WEIGHT_4, acc := .rw, reset := 0x10, mask := 0xff, scope := .perHalf, part := .plain },
    { off := Reg.HM_EWMA, acc := .ro, reset := 0x0, mask := 0x0, scope := .perHalf, part := .plain, n1 := 5, s1 := 0x4 },
    { off := Reg.MIR_PARTNER, acc := .rw, reset := 0x0, mask := 0x8003ffff, scope := .lead, part := .plain },
    { off := Reg.MIR_STATUS, acc := .ro, reset := 0x0, mask := 0x0, scope := .lead, part := .plain },
    { off := Reg.MIR_CUT_CFG, acc := .rw, reset := 0x3e8, mask := 0xffff, scope := .lead, part := .plain },
    { off := Reg.MIR_CUT_STATUS, acc := .ro, reset := 0x0, mask := 0x0, scope := .lead, part := .plain },
    { off := Reg.MIR_CUT_CLOSED, acc := .ro, reset := 0x0, mask := 0x0, scope := .lead, part := .plain },
    { off := Reg.MIR_JOB, acc := .rw, reset := 0x0, mask := 0xfffff, scope := .lead, part := .plain },
    { off := Reg.MIR_JOB_CTL, acc := .wo, reset := 0x0, mask := 0x3, scope := .lead, part := .plain },
    { off := Reg.MIR_RING_SEL, acc := .rw, reset := 0x0, mask := 0x3f0f, scope := .lead, part := .plain },
    { off := Reg.MIR_RING_SQ_HEAD, acc := .ro, reset := 0x0, mask := 0x0, scope := .lead, part := .plain },
    { off := Reg.MIR_RING_CQ_TAIL, acc := .ro, reset := 0x0, mask := 0x0, scope := .lead, part := .plain },
    { off := Reg.MIR_HOST_DEVICE, acc := .rw, reset := 0x0, mask := 0x8003ffff, scope := .perHalf, part := .plain },
    { off := Reg.MIR_HOST_BASE_LO, acc := .rw, reset := 0x0, mask := 0xffffffff, scope := .perHalf, part := .lo },
    { off := Reg.MIR_HOST_BASE_HI, acc := .rw, reset := 0x0, mask := 0xffffffff, scope := .perHalf, part := .hi },
    { off := Reg.MIR_HOST_SIZE, acc := .rw, reset := 0x0, mask := 0xffffffff, scope := .perHalf, part := .plain },
    { off := Reg.MIR_RESTORE_SRC, acc := .rw, reset := 0x0, mask := 0x3ffff, scope := .lead, part := .plain },
    { off := Reg.MIR_RESTORE_JOB, acc := .rw, reset := 0x0, mask := 0xfffff, scope := .lead, part := .plain },
    { off := Reg.MIR_RESTORE_CTL, acc := .wo, reset := 0x0, mask := 0x1, scope := .lead, part := .plain },
    { off := Reg.MIR_RESTORE_STATUS, acc := .ro, reset := 0x0, mask := 0x0, scope := .lead, part := .plain },
    { off := Reg.MIR_CUTS_LO, acc := .rw, reset := 0x0, mask := 0xffffffff, scope := .perHalf, part := .lo },
    { off := Reg.MIR_CUTS_HI, acc := .rw, reset := 0x0, mask := 0xffff, scope := .perHalf, part := .hi },
    { off := Reg.MIR_PUSH_BYTES_LO, acc := .rw, reset := 0x0, mask := 0xffffffff, scope := .perHalf, part := .lo },
    { off := Reg.MIR_PUSH_BYTES_HI, acc := .rw, reset := 0x0, mask := 0xffff, scope := .perHalf, part := .hi },
    { off := Reg.MIR_TAP_BYTES_LO, acc := .rw, reset := 0x0, mask := 0xffffffff, scope := .perHalf, part := .lo },
    { off := Reg.MIR_TAP_BYTES_HI, acc := .rw, reset := 0x0, mask := 0xffff, scope := .perHalf, part := .hi },
    { off := Reg.MIR_COW_HOLDS_LO, acc := .rw, reset := 0x0, mask := 0xffffffff, scope := .perHalf, part := .lo },
    { off := Reg.MIR_COW_HOLDS_HI, acc := .rw, reset := 0x0, mask := 0xffff, scope := .perHalf, part := .hi },
    { off := Reg.MIR_PAUSE_NS_LO, acc := .rw, reset := 0x0, mask := 0xffffffff, scope := .perHalf, part := .lo },
    { off := Reg.MIR_PAUSE_NS_HI, acc := .rw, reset := 0x0, mask := 0xffff, scope := .perHalf, part := .hi },
    { off := Reg.MIR_HOST_APPLY_BYTES_LO, acc := .rw, reset := 0x0, mask := 0xffffffff, scope := .perHalf, part := .lo },
    { off := Reg.MIR_HOST_APPLY_BYTES_HI, acc := .rw, reset := 0x0, mask := 0xffff, scope := .perHalf, part := .hi },
    { off := Reg.HM_CUT_REQUESTS_LO, acc := .rw, reset := 0x0, mask := 0xffffffff, scope := .perHalf, part := .lo },
    { off := Reg.HM_CUT_REQUESTS_HI, acc := .rw, reset := 0x0, mask := 0xffff, scope := .perHalf, part := .hi } ]

/-! ### SEC block (R515) -/

/-- Offset of SEC_MAILBOX_CTL in a half window. -/
def Reg.SEC_MAILBOX_CTL : Nat := 0x3c0000
/-- Offset of SEC_MAILBOX_STATUS in a half window. -/
def Reg.SEC_MAILBOX_STATUS : Nat := 0x3c0004
/-- Offset of SEC_MAILBOX in a half window. -/
def Reg.SEC_MAILBOX : Nat := 0x3c1000

/-- Registers of the SEC block (R515). -/
def regsSec : List RegRow :=
  [ { off := Reg.SEC_MAILBOX_CTL, acc := .wo, reset := 0x0, mask := 0x80000fff, scope := .perHalf, part := .plain },
    { off := Reg.SEC_MAILBOX_STATUS, acc := .ro, reset := 0x0, mask := 0x0, scope := .perHalf, part := .plain },
    { off := Reg.SEC_MAILBOX, acc := .rw, reset := 0x0, mask := 0xffffffff, scope := .perHalf, part := .plain, n1 := 1024, s1 := 0x4 } ]

/-! ### DBG block (R539) -/

/-- Offset of DBG_LOUPE_SEL in a half window. -/
def Reg.DBG_LOUPE_SEL : Nat := 0x3e0000
/-- Offset of DBG_LOCK_STATUS in a half window. -/
def Reg.DBG_LOCK_STATUS : Nat := 0x3e0004
/-- Offset of DBG_SELFTEST_CFG in a half window. -/
def Reg.DBG_SELFTEST_CFG : Nat := 0x3e0010
/-- Offset of DBG_SELFTEST_STATUS in a half window. -/
def Reg.DBG_SELFTEST_STATUS : Nat := 0x3e0014
/-- Offset of DBG_RETIRED in a half window. -/
def Reg.DBG_RETIRED : Nat := 0x3e0020
/-- Offset of DBG_SELFTEST_SLICES_LO in a half window. -/
def Reg.DBG_SELFTEST_SLICES_LO : Nat := 0x3e0400
/-- Offset of DBG_SELFTEST_SLICES_HI in a half window. -/
def Reg.DBG_SELFTEST_SLICES_HI : Nat := 0x3e0404
/-- Offset of DBG_SELFTEST_FAILS_LO in a half window. -/
def Reg.DBG_SELFTEST_FAILS_LO : Nat := 0x3e0408
/-- Offset of DBG_SELFTEST_FAILS_HI in a half window. -/
def Reg.DBG_SELFTEST_FAILS_HI : Nat := 0x3e040c
/-- Offset of DBG_SELFTEST_OVERDUE_LO in a half window. -/
def Reg.DBG_SELFTEST_OVERDUE_LO : Nat := 0x3e0410
/-- Offset of DBG_SELFTEST_OVERDUE_HI in a half window. -/
def Reg.DBG_SELFTEST_OVERDUE_HI : Nat := 0x3e0414
/-- Offset of DBG_SELFTEST_FORCED_LO in a half window. -/
def Reg.DBG_SELFTEST_FORCED_LO : Nat := 0x3e0418
/-- Offset of DBG_SELFTEST_FORCED_HI in a half window. -/
def Reg.DBG_SELFTEST_FORCED_HI : Nat := 0x3e041c
/-- Offset of DBG_SELFTEST_DELAY_NS_LO in a half window. -/
def Reg.DBG_SELFTEST_DELAY_NS_LO : Nat := 0x3e0420
/-- Offset of DBG_SELFTEST_DELAY_NS_HI in a half window. -/
def Reg.DBG_SELFTEST_DELAY_NS_HI : Nat := 0x3e0424

/-- Registers of the DBG block (R539). -/
def regsDbg : List RegRow :=
  [ { off := Reg.DBG_LOUPE_SEL, acc := .rw, reset := 0x0, mask := 0xbfff000f, scope := .device, part := .plain },
    { off := Reg.DBG_LOCK_STATUS, acc := .ro, reset := 0x0, mask := 0x0, scope := .device, part := .plain },
    { off := Reg.DBG_SELFTEST_CFG, acc := .rw, reset := 0x8033000a, mask := 0x80ffffff, scope := .perHalf, part := .plain, limits := [⟨20, 4, 1, 15⟩, ⟨16, 4, 1, 15⟩, ⟨0, 16, 1, 3600⟩] },
    { off := Reg.DBG_SELFTEST_STATUS, acc := .ro, reset := 0x0, mask := 0x0, scope := .perHalf, part := .plain },
    { off := Reg.DBG_RETIRED, acc := .ro, reset := 0x0, mask := 0x0, scope := .perHalf, part := .plain, n1 := 5, s1 := 0x4 },
    { off := Reg.DBG_SELFTEST_SLICES_LO, acc := .rw, reset := 0x0, mask := 0xffffffff, scope := .perHalf, part := .lo },
    { off := Reg.DBG_SELFTEST_SLICES_HI, acc := .rw, reset := 0x0, mask := 0xffff, scope := .perHalf, part := .hi },
    { off := Reg.DBG_SELFTEST_FAILS_LO, acc := .rw, reset := 0x0, mask := 0xffffffff, scope := .perHalf, part := .lo },
    { off := Reg.DBG_SELFTEST_FAILS_HI, acc := .rw, reset := 0x0, mask := 0xffff, scope := .perHalf, part := .hi },
    { off := Reg.DBG_SELFTEST_OVERDUE_LO, acc := .rw, reset := 0x0, mask := 0xffffffff, scope := .perHalf, part := .lo },
    { off := Reg.DBG_SELFTEST_OVERDUE_HI, acc := .rw, reset := 0x0, mask := 0xffff, scope := .perHalf, part := .hi },
    { off := Reg.DBG_SELFTEST_FORCED_LO, acc := .rw, reset := 0x0, mask := 0xffffffff, scope := .perHalf, part := .lo },
    { off := Reg.DBG_SELFTEST_FORCED_HI, acc := .rw, reset := 0x0, mask := 0xffff, scope := .perHalf, part := .hi },
    { off := Reg.DBG_SELFTEST_DELAY_NS_LO, acc := .rw, reset := 0x0, mask := 0xffffffff, scope := .perHalf, part := .lo },
    { off := Reg.DBG_SELFTEST_DELAY_NS_HI, acc := .rw, reset := 0x0, mask := 0xffff, scope := .perHalf, part := .hi } ]

/-- Every register row. -/
def regRows : List RegRow :=
  regsTop ++ regsHost ++ regsTgu ++ regsPrism ++ regsLens ++ regsEfu ++ regsTm ++ regsBpm ++ regsMem ++ regsFab ++ regsCe ++ regsHm ++ regsSec ++ regsDbg

end Sys2Proof.Machine
end

