-- ==== Sys2Proof/Machine/Ops.lean ====
section
/-! DEFINITION. The named operations of the block: the working state of a command, registers, counters, memory checks,
events and interrupts. -/

namespace Sys2Proof.Machine

open Sys2Proof

/-- What one command works on: the device, the memories as they stand before the command, and the runs it writes
(newest first). -/
structure Wk where
  dev : Dev
  mem : Memory
  host : Memory
  mw : List Run
  hw : List Run

/-- The working state a command starts from. -/
def State.start (s : State) : Wk := { dev := s.dev, mem := s.mem, host := s.host, mw := [], hw := [] }

/-- The state a command leaves: its device, and the memories with the runs it wrote. The queue is not touched. -/
def State.put (s : State) (w : Wk) : State :=
  { s with dev := w.dev, mem := s.mem.setRuns w.mw.reverse, host := s.host.setRuns w.hw.reverse }

/-- The one way a command of this model ends: in a next state. -/
def finish (s : State) (w : Wk) : Host.Outcome State Fault Refusal := .next (s.put w)

/-- Runs a command that touches the device alone. -/
def onDev (s : State) (f : Dev → Dev) : Host.Outcome State Fault Refusal := finish s { s.start with dev := f s.dev }

/-- Applies a change to the device part of a working state. -/
def Wk.upd (w : Wk) (f : Dev → Dev) : Wk := { w with dev := f w.dev }

/-- Replaces the package state. -/
def Dev.onTop (d : Dev) (f : Top → Top) : Dev := { d with top := f d.top }
/-- Replaces the host-side state. -/
def Dev.onHost (d : Dev) (f : HostSt → HostSt) : Dev := { d with host := f d.host }
/-- Replaces the scheduler's state. -/
def Dev.onTgu (d : Dev) (f : Tgu → Tgu) : Dev := { d with tgu := f d.tgu }

/-- Draws the next free value (assumption 4). -/
def Dev.drawFree (d : Dev) : Dev × Word64 := ({ d with free := d.free + 1 }, Config.freeWord d.free)

/-- Sends something out. -/
def Dev.emit (d : Dev) (o : Out) : Dev := { d with out := d.out ++ [o] }

/-! ### Registers -/

/-- The rows of the block an offset lies in (R546). -/
def rowsAt (off : Nat) : List RegRow :=
  if off < 0x10000 then regsTop
  else if off < 0x40000 then regsHost
  else if off < 0x80000 then regsTgu
  else if off < 0xA0000 then regsPrism
  else if off < 0xC0000 then regsLens
  else if off < 0xE0000 then regsEfu
  else if off < 0x100000 then regsTm
  else if off < 0x140000 then regsBpm
  else if off < 0x200000 then regsMem
  else if off < 0x300000 then regsFab
  else if off < 0x380000 then regsCe
  else if off < 0x3C0000 then regsHm
  else if off < 0x3E0000 then regsSec
  else if off < 0x400000 then regsDbg
  else []

/-- Whether a row holds a register at an offset. -/
def RegRow.covers (r : RegRow) (off : Nat) : Bool :=
  decide (r.off ≤ off) &&
    (let d := off - r.off
     decide (d / r.s1 < r.n1) && decide (d % r.s1 / r.s2 < r.n2) && (if r.n2 = 1 then d % r.s1 == 0 else d % r.s1 % r.s2 == 0))

/-- The row of the register at an offset of a half window. -/
def findRow (off : Nat) : Option RegRow := (rowsAt off).find? (·.covers off)

/-- Whether an offset is client 0's accounting, of which there is one set (R346, R557). -/
def isAcct0 (off : Nat) : Bool := decide (0x20700 ≤ off ∧ off < 0x20800)

/-- Where a register's value is kept: device-wide and lead-only registers once, the others per half. -/
def regKey (row : RegRow) (h : Half) (off : Nat) : Nat :=
  if row.scope = .perHalf ∧ ¬ isAcct0 off then h.code * 2 ^ 24 + off else 2 * 2 ^ 24 + off

/-- Reset value of a register; the power cap's depends on the grade (R554). -/
def regResetOf (grade : Nat) (row : RegRow) : Word32 :=
  if row.off = Reg.TOP_POWER_CAP ∧ grade = 2 then w32 0x80000708 else w32 row.reset

/-- The stored value of a register. -/
def Dev.reg (d : Dev) (h : Half) (off : Nat) : Word32 :=
  match findRow off with
  | none => 0
  | some row => (aget d.regs (regKey row h off)).getD (regResetOf d.top.grade row)

/-- Stores a register, as hardware does. -/
def Dev.setReg (d : Dev) (h : Half) (off : Nat) (v : Word32) : Dev :=
  match findRow off with
  | none => d
  | some row => { d with regs := aput d.regs (regKey row h off) v }

/-- The stored value of a register as a number. -/
def Dev.rn (d : Dev) (h : Half) (off : Nat) : Nat := (d.reg h off).toNat

/-- The value of a pair whose _LO stands at an offset. -/
def Dev.reg64 (d : Dev) (h : Half) (off : Nat) : Nat := d.rn h off + 2 ^ 32 * d.rn h (off + 4)

/-- Stores a pair. -/
def Dev.setReg64 (d : Dev) (h : Half) (off : Nat) (x : Nat) : Dev :=
  (d.setReg h off (w32 x)).setReg h (off + 4) (w32 (x / 2 ^ 32))

/-- Width of the counter pair at an offset: 32 bits and those its _HI can hold. -/
def cntWidth (off : Nat) : Nat :=
  match findRow (off + 4) with
  | some row => if row.mask = 0xFFFF then 48 else 64
  | none => 64

/-- Advances a counter pair by `n`, saturating (R553). -/
def Dev.count (d : Dev) (h : Half) (off n : Nat) : Dev :=
  if n = 0 ∨ d.top.stopped then d else d.setReg64 h off (satAdd (d.reg64 h off) n (cntWidth off))

/-- The half of a facet 0 to 319. -/
def facetHalf (f : Nat) : Half := if f < 160 then .west else .east

/-! ### Which half leads, and which functions it carries -/

/-- Whether a half acts as lead (R547). -/
def LeadView.leads (v : LeadView) (h : Half) : Bool := (v.st = .normal ∨ v.st = .degraded) ∧ v.lead = h

/-- The half in charge; a survivor goes before any other view (R461). -/
def Dev.leadOf (d : Dev) : Option Half :=
  if d.top.lead.w.st = .degraded ∧ d.top.lead.w.lead = .west then some .west
  else if d.top.lead.e.st = .degraded ∧ d.top.lead.e.lead = .east then some .east
  else if d.top.lead.w.leads .west then some .west else if d.top.lead.e.leads .east then some .east else none

/-- The half whose L registers stand, in charge or lapsed (R548). -/
def Dev.leadHalf (d : Dev) : Half := d.leadOf.getD (if d.top.lead.w.lead = .east then .east else .west)

/-- The half whose port carries a function: the lead port the PF (0) and VFs (1 to 63), the standby port the standby
function (0x40) (R276). -/
def Dev.fnHalf (d : Dev) (fn : Nat) : Option Half :=
  match d.top.portLead with
  | none => none
  | some p =>
    let h := if fn = 0x40 then p.other else p
    if (fn ≤ 63 ∨ fn = 0x40) ∧ ¬ d.top.portLost.get h then some h else none

/-- The half of a function's registers, whether or not the function is carried now. -/
def Dev.fnHome (d : Dev) (fn : Nat) : Half := (d.fnHalf fn).getD .west

/-- The client of a function (R276). -/
def clientOf (fn : Nat) : Nat := if fn = 0x40 then 0 else fn

/-- Offset in a half window of a register of a function's client window (R545). -/
def winOff (fn x : Nat) : Nat := 0x20000 + 0x800 * clientOf fn + x

/-- Whether a port can deliver host writes: link up and no stopped IDE stream (R580). -/
def Port.delivers (p : Port) : Bool := p.speed != 0 && !p.ideStopped

/-- Whether the port of a function can deliver host writes. -/
def Dev.fnDelivers (d : Dev) (fn : Nat) : Bool :=
  match d.fnHalf fn with
  | none => false
  | some h => (d.host.ports.get h).delivers

/-- A function whose pages are fenced and whose event ring is off; the payload, read request and power settings are PCIe's
at reset (PRESUMED). -/
def Func.cold : Func :=
  { pagesOn := false, payload := 0, readReq := 2, d3hot := false, evt := ⟨false, 0, 0, 0, 0, 0⟩, vecs := [] }

/-- The state of a function. -/
def Dev.func (d : Dev) (fn : Nat) : Func := (aget d.host.funcs fn).getD .cold

/-- Replaces the state of a function. -/
def Dev.setFunc (d : Dev) (fn : Nat) (f : Func) : Dev := d.onHost fun x => { x with funcs := aput x.funcs fn f }

/-- A disabled ring (R285). -/
def Ring.cold : Ring :=
  { st := .disabled, halt := 0, sqTail := 0, sqHead := 0, cqHead := 0, cqTail := 0, held := [], broken := false,
    wbDue := false, wbLast := none, abortLo := none, skip := [], failed := [] }

/-- The state of a function's ring. -/
def Dev.ring (d : Dev) (fn r : Nat) : Ring := (aget d.host.rings (16 * fn + r)).getD .cold

/-- Replaces the state of a ring. -/
def Dev.setRing (d : Dev) (fn r : Nat) (x : Ring) : Dev :=
  d.onHost fun s => { s with rings := aput s.rings (16 * fn + r) x }

/-- The stored value of a register of ring `r` of a function. -/
def Dev.ringReg (d : Dev) (fn r x : Nat) : Nat := d.rn (d.fnHome fn) (winOff fn (0x40 * r + x))

/-- A pair of registers of ring `r` of a function. -/
def Dev.ringReg64 (d : Dev) (fn r x : Nat) : Nat := d.reg64 (d.fnHome fn) (winOff fn (0x40 * r + x))

/-- The job bound to a ring. -/
def Dev.ringJob (d : Dev) (fn r : Nat) : Nat := d.ringReg fn r 0x1C

/-! ### Memory -/

/-- Bit 41 of a LOCAL address: pool SRAM (R237). -/
def isSram (a : Nat) : Bool := bit a 41

/-- Whether an address has the LOCAL form with its reserved bits clear (R237). -/
def isLocal (a : Nat) : Bool := decide (a < 2 ^ 42)

/-- Whether a LOCAL address exists (R238). -/
def localMapped (a : Nat) : Bool := if isSram a then decide (bits a 0 41 < 2 ^ 30) else isLocal a

/-- Form code of a device address: 0 LOCAL, 1 REGION, 2 HOST, 3 reserved (R237). -/
def addrForm (a : Nat) : Nat := bits a 62 2

/-- Bus address of a HOST-form address. -/
def busAddr (a : Nat) : Nat := bits a 0 62

/-- The half a LOCAL address lies in (R238). -/
def halfOf (a : Nat) : Half := Half.ofCode (if isSram a then bits a 29 1 else bits a 40 1)

/-- Protection page size at an address (R242). -/
def pageSize (a : Nat) : Nat := if isSram a then 4096 else 65536

/-- Base of the protection page of an address. -/
def pageBase (a : Nat) : Nat := a / pageSize a * pageSize a

/-- The held buffer that holds an address (R242). -/
def Dev.bufAt (d : Dev) (a : Nat) : Option Buf :=
  d.host.bufs.find? fun b => b.st = .held ∧ b.base ≤ a ∧ a < b.base + b.size

/-- Status codes of R303 used throughout. -/
def stOk : Nat := 0x00
def stAborted : Nat := 0x01
def stAlready : Nat := 0x02
def stNull : Nat := 0x03
def stFormat : Nat := 0x05
def stOverrun : Nat := 0x06
def stReadOnly : Nat := 0x18
def stShadowFull : Nat := 0x1C
def stDenied : Nat := 0x20
def stMemberLost : Nat := 0x22
def stReformed : Nat := 0x23
def stRemoteOff : Nat := 0x25
def stSetup : Nat := 0x26
def stParity : Nat := 0x40
def stUncorrectable : Nat := 0x41
def stRetry : Nat := 0x42
def stInDoubt : Nat := 0x43
def stTileCrc : Nat := 0x44
def stTileFormat : Nat := 0x45
def stDeadline : Nat := 0x50
def stSkipped : Nat := 0x51
def stWatchdog : Nat := 0x52
def stWaitTimeout : Nat := 0x53
def stStrict : Nat := 0x60

/-- DATA0 of an ERROR event against a command: the detail, for the statuses that have one (R300): READ_ONLY,
ACCESS_DENIED, ILLEGAL_INSTRUCTION, KERNEL_TRAP and UNCORRECTABLE. -/
def eventDetail (status detail : Nat) : Nat := if [0x18, 0x20, 0x39, 0x3A, 0x41].contains status then detail else 0

/-- Whether an address lies in a half lost to single-half degraded mode (R463). -/
def Dev.lostAt (d : Dev) (a : Nat) : Bool :=
  match d.leadOf with
  | some h => d.top.degraded && halfOf a != h
  | none => false

/-- The check of R242 at one address: 0, or the status of the refusal. -/
def Dev.checkAt (d : Dev) (job a : Nat) (write : Bool) : Nat :=
  if d.lostAt a then stUncorrectable
  else match d.bufAt a with
    | none => stDenied
    | some b => if ¬ b.holders.contains job then stDenied else if write ∧ b.isSealed then stReadOnly else 0

/-- First bytes of the protection pages a range touches. -/
def pagesOf (a n : Nat) : List Nat :=
  if n = 0 then []
  else (List.range ((pageBase (a + n - 1) - pageBase a) / pageSize a + 1)).map fun i => max a (pageBase a + i * pageSize a)

/-- The check of R242 over a range. -/
def Dev.checkRange (d : Dev) (job a n : Nat) (write : Bool) : Nat :=
  if ¬ isLocal a ∨ ¬ isLocal (a + n - 1) then stDenied
  else (pagesOf a n).foldl (fun st p => if st = 0 then d.checkAt job p write else st) 0

/-- Whether a range touches a poisoned block (R244). -/
def Dev.poisoned (d : Dev) (a n : Nat) : Bool := d.host.poison.any fun k => k * 64 < a + n ∧ a < k * 64 + 64

/-- Address of the first poisoned block that a range touches (R244). -/
def Dev.poisonIn (d : Dev) (a n : Nat) : Option Nat :=
  let l := d.host.poison.filter fun k => k * 64 < a + n ∧ a < k * 64 + 64
  l.foldl (fun o k => match o with | none => some (k * 64) | some j => some (min j (k * 64))) none

/-- One byte of device memory as it stands inside a command. -/
def Wk.rd (w : Wk) (a : Nat) : Byte := (runsGet w.mw a).getD (w.mem.get a)

/-- Bytes of device memory as they stand inside a command. -/
def Wk.rdN (w : Wk) (a n : Nat) : List Byte := (List.range n).map fun i => w.rd (a + i)

/-- Bytes of host memory as they stand inside a command. -/
def Wk.rdH (w : Wk) (a n : Nat) : List Byte :=
  (List.range n).map fun i => (runsGet w.hw (a + i)).getD (w.host.get (a + i))

/-- Blocks that a write covers whole lose their poison (R244). -/
def clearPoison (ps : List Nat) (a n : Nat) : List Nat := ps.filter fun k => ¬ (a ≤ k * 64 ∧ k * 64 + 64 ≤ a + n)

/-- Writes device memory. -/
def Wk.wr (w : Wk) (a : Nat) (bs : List Byte) : Wk :=
  { w with mw := ⟨a, bs⟩ :: w.mw,
           dev := w.dev.onHost fun h => { h with poison := clearPoison h.poison a bs.length } }

/-- Writes host memory. -/
def Wk.wrH (w : Wk) (a : Nat) (bs : List Byte) : Wk := { w with hw := ⟨a, bs⟩ :: w.hw }

/-! ### Interrupts (R304) -/

/-- A vector as PCIe resets it: masked. -/
def Vec.cold : Vec := { addr := 0, data := 0, masked := true, pend := false, last := none, causes := [] }

/-- The state of a vector. -/
def Dev.vec (d : Dev) (fn v : Nat) : Vec := (aget (d.func fn).vecs v).getD .cold

/-- Replaces the state of a vector. -/
def Dev.setVec (d : Dev) (fn v : Nat) (x : Vec) : Dev :=
  let f := d.func fn
  d.setFunc fn { f with vecs := aput f.vecs v x }

/-- The vector sends its message, or sets its pending bit while it is masked. Either satisfies every held cause. -/
def Dev.fireVec (d : Dev) (fn v : Nat) : Dev :=
  let x := d.vec fn v
  if x.masked then d.setVec fn v { x with pend := true, causes := [] }
  else (d.setVec fn v { x with pend := false, causes := [], last := some d.time }).emit (.msix fn v x.addr x.data)

/-- Whether an interval has passed since the vector's last message. -/
def vecDue (x : Vec) (now modUs : Nat) : Bool :=
  match x.last with
  | none => true
  | some t => decide (t + 1000 * modUs ≤ now)

/-- A cause makes its vector send at once, or is held until its own interval has passed. -/
def Dev.raise (d : Dev) (fn v modUs : Nat) : Dev :=
  let x := d.vec fn v
  if vecDue x d.time modUs then d.fireVec fn v
  else d.setVec fn v { x with causes := x.causes ++ [⟨modUs⟩] }

/-- A cause of a ring pair, when the ring's signalling is enabled. -/
def Dev.raiseRing (d : Dev) (fn r : Nat) : Dev :=
  let irq := d.ringReg fn r 0x20
  if bit irq 31 then d.raise fn (bits irq 0 5) (bits irq 8 8) else d

/-! ### Events (R289, R299, R300) -/

/-- An event before it is written to a ring. -/
structure Event where
  kind : Nat
  cls : Nat := 0
  status : Nat := 0
  job : Nat := 0
  tag : Nat := 0
  node : Nat := 0xFFFFFFFF
  island : Nat := 0x3F
  d0 : Nat := 0
  d1 : Nat := 0
  d2 : Nat := 0
  d3 : Nat := 0

/-- The 64 bytes of an Event Record (R299). -/
def Event.bytes (e : Event) (time seq : Nat) (phase : Bool) : List Byte :=
  toBytes 8 time ++ toBytes 4 (b2n phase * 2 ^ 31 + e.cls % 8 * 2 ^ 24 + e.status % 256 * 2 ^ 16 + e.kind % 2 ^ 16)
    ++ toBytes 4 (e.job % 2 ^ 20) ++ toBytes 8 e.tag ++ toBytes 4 e.node
    ++ toBytes 4 (seq % 2 ^ 16 * 2 ^ 16 + e.island % 64) ++ toBytes 8 e.d0 ++ toBytes 8 e.d1 ++ toBytes 8 e.d2
    ++ toBytes 8 e.d3

/-- log2 of a function's event ring size. -/
def Dev.evtLog2 (d : Dev) (fn : Nat) : Nat := bits (d.rn (d.fnHome fn) (winOff fn 0x408)) 16 4 + 6

/-- Whether an event written now reaches a function's event ring: a slot is free and the port delivers. -/
def Dev.evtRoom (d : Dev) (fn : Nat) : Bool :=
  let r := (d.func fn).evt
  decide ((r.tail + 2 ^ 32 - r.head) % 2 ^ 32 < 2 ^ d.evtLog2 fn) && d.fnDelivers fn

/-- Counts an event of a function's event ring as dropped; `k` says how many numbers of the ring it takes with it. -/
def Dev.evtDrop (d : Dev) (fn k : Nat) : Dev :=
  let f := d.func fn
  let r := f.evt
  (d.setFunc fn { f with evt := { r with seq := r.seq + k, lost := min (r.lost + 1) 65535, lostSince := r.lostSince + 1 } }).count
    (d.fnHome fn) Reg.HOST_EVENTS_LOST_LO 1

/-- Writes an event in the next slot of a function's event ring. -/
def Wk.putEvent (w : Wk) (fn : Nat) (e : Event) : Wk :=
  let d := w.dev
  let f := d.func fn
  let r := f.evt
  let lg := d.evtLog2 fn
  let cfg := d.rn (d.fnHome fn) (winOff fn 0x408)
  let base := d.reg64 (d.fnHome fn) (winOff fn 0x400)
  let phase := !bit (r.tail / 2 ^ lg) 0
  ((w.wrH (base + 64 * (r.tail % 2 ^ lg)) (e.bytes d.time r.seq phase)).upd fun d =>
    (d.setFunc fn { f with evt := { r with tail := (r.tail + 1) % 2 ^ 32, seq := r.seq + 1 } }).raise fn
      (bits cfg 0 5) (bits cfg 8 8))

/-- Writes one EVENT_LOST record when events were dropped and it can be written. -/
def Wk.reportLost (w : Wk) (fn : Nat) : Wk :=
  let f := w.dev.func fn
  if f.evt.on ∧ f.evt.lostSince > 0 ∧ w.dev.evtRoom fn then
    (w.upd fun d => d.setFunc fn { f with evt := { f.evt with lostSince := 0 } }).putEvent fn { kind := 0xD, d0 := f.evt.lostSince }
  else w

/-- Writes an event to one function's event ring, after the EVENT_LOST that is due, or drops and counts it. -/
def Wk.postTo (w : Wk) (fn : Nat) (e : Event) : Wk :=
  if ¬ (w.dev.func fn).evt.on then w
  else
    let w := w.reportLost fn
    if w.dev.evtRoom fn then w.putEvent fn e else w.upd (·.evtDrop fn 1)

/-- Kinds that go to every subscribed event ring (R289). -/
def Event.deviceWide (e : Event) : Bool := [0x4, 0x5, 0x6, 0x7, 0xB, 0xC, 0xE].contains e.kind || (e.kind == 1 && e.cls == 4)

/-- Every function code. -/
def allFns : List Nat := List.range 64 ++ [0x40]

/-- Whether a function's event ring takes device-wide events. -/
def Dev.wantsDeviceEvents (d : Dev) (fn : Nat) : Bool := fn == 0 || bit (d.rn (d.fnHome fn) (winOff fn 0x408)) 30

/-- Appends to an SC's event log, which keeps the last 1,024 (R544). -/
def Sc.logEvent (s : Sc) (bs : List Byte) : Sc :=
  let l := s.log ++ [bs]
  if l.length ≤ 1024 then { s with log := l } else { s with log := l.drop 1, logBase := s.logBase + 1 }

/-- Records an event in one SC's own log. -/
def Dev.logEvent (d : Dev) (h : Half) (bs : List Byte) : Dev :=
  d.onTop fun t => { t with sc := t.sc.set h ((t.sc.get h).logEvent bs) }

/-- Posts an event under the first rule of R289 that applies; `fn` is the function it is tied to, `h` the half whose SC
receives it. -/
def Wk.post (w : Wk) (h : Half) (fn : Nat) (e : Event) : Wk :=
  let bs := e.bytes w.dev.time 0 false
  if e.deviceWide then
    let w := w.upd fun d => (d.logEvent .west bs).logEvent .east bs
    allFns.foldl (fun w fn => if (w.dev.func fn).evt.on && w.dev.wantsDeviceEvents fn then w.postTo fn e else w) w
  else
    let w := if e.cls ≥ 2 then w.upd (·.logEvent h bs) else w
    w.postTo fn e

/-- A resident job. -/
def Dev.job (d : Dev) (j : Nat) : Option Job := aget d.host.jobs j

/-- Replaces a job. -/
def Dev.setJob (d : Dev) (j : Nat) (x : Job) : Dev := d.onHost fun h => { h with jobs := aput h.jobs j x }

/-- The function that created a job, which receives the job's events; the PF when the job is not resident. -/
def Dev.jobFn (d : Dev) (j : Nat) : Nat := match d.job j with | some x => x.fn | none => 0

/-- Posts an event tied to a job. -/
def Wk.postJob (w : Wk) (h : Half) (e : Event) : Wk := w.post h (w.dev.jobFn e.job) e

/-! ### Stopping the device (R448) -/

/-- Islands of R21 used by reports: the SC's island of a half. -/
def scIsland (h : Half) : Nat := if h = .west then 18 else 37
/-- TGU island of a half. -/
def tguIsland (h : Half) : Nat := if h = .west then 9 else 28
/-- Host-port island of a half. -/
def portIsland (h : Half) : Nat := if h = .west then 17 else 36

/-- The 8 bytes the fatal log keeps of TOP_FATAL_STATUS, padded with the event to a 64-byte record (R544). -/
def fatalWord (f : FatalStatus) : Nat := b2n f.valid * 2 ^ 31 + f.status % 256 * 2 ^ 16 + f.cause % 256 * 2 ^ 8 + f.island % 64

/-- Raises an in-band interrupt at a half's I3C target, when target events are enabled (R509, R510). -/
def Dev.ibi (d : Dev) (h : Half) (b : Nat) : Dev :=
  d.onTop fun t =>
    let x := t.i3c.get h
    if x.events then { t with i3c := t.i3c.set h { x with ibi := x.ibi ++ [b] } } else t

/-- The SC's record of a stop: the in-band interrupt 0x02 and a 64-byte record of the fatal log, the first 56 bytes of
the event and TOP_FATAL_STATUS (R544; how the record joins the two is DESIGN CHOICE). -/
def Dev.logFatal (d : Dev) (h : Half) (e : Event) : Dev :=
  let r := (e.bytes d.time 0 false).take 56 ++ toBytes 8 (fatalWord d.top.fatal)
  (d.onTop fun t =>
    let l := t.flash.fatalLog ++ [r]
    let past := l.length - 16384
    { t with flash := { t.flash with fatalLog := l.drop past, fatalBase := t.flash.fatalBase + past } }).ibi h 2

/-- A DEVICE_FATAL stop: FAULT_N, no dispatch in either half, TOP_FATAL_STATUS, and the SC's records for the BMC. The
ERROR event is written when the write-back path still works. -/
def Wk.deviceFatal (w : Wk) (h : Half) (status cause island : Nat) (wbOk : Bool) (d0 : Nat) : Wk :=
  let e : Event := { kind := 1, cls := 4, status := status, island := island, d0 := eventDetail status d0 }
  let f : FatalStatus := ⟨true, status, cause, island⟩
  let w := if wbOk then w.post h 0 e else w.upd fun d => d.logEvent h (e.bytes d.time 0 false)
  w.upd fun d =>
    (d.onTop fun t =>
      { t with faultN := true, dispatchOff := true, stopped := true, ready := false, stage := .stopped,
               fatal := f }).logFatal h e

/-! ### Messages to the BMC (R510, R511) -/

/-- Queues an Aelum management message for the BMC and raises the in-band interrupt. -/
def Dev.toBmc (d : Dev) (h : Half) (command : Nat) (payload : List Byte) : Dev :=
  let m := [BitVec.ofNat 8 0x7E] ++ (toBytes 2 Config.vendorId.toNat).reverse ++ toBytes 1 command ++ toBytes 1 0 ++ toBytes 1 0
    ++ toBytes 2 0 ++ payload
  (d.onTop fun t => let x := t.i3c.get h; { t with i3c := t.i3c.set h { x with outbox := x.outbox ++ [m] } }).ibi h 1

end Sys2Proof.Machine
end

