-- ==== Sys2Proof/Machine/FabSend.lean ====
section
/-! DEFINITION. Solbite transactions, flits, credits, replay and path choice: how the source side sends (chapter 11). -/

namespace Sys2Proof.Machine

open Sys2Proof

/-! ### Transactions (R359, R360) -/

/-- Codes of R360. -/
def opRead : Nat := 1
def opReadResp : Nat := 2
def opWrite : Nat := 3
def opAtomic : Nat := 4
def opBulk : Nat := 5
def opAck : Nat := 6
def opInv : Nat := 7
def opFence : Nat := 8
def opFenceAck : Nat := 9
def opMsg : Nat := 10

/-- A header with no flags and no data. -/
def Txn.mk0 (op tc dest seq src word job len : Nat) (data : List Byte) : Txn :=
  { op := op, tc := tc, path := 0, gateway := false, ordered := false, resent := false, masked := false, dest := dest,
    seq := seq, src := src, word := word, job := job, len := len, data := data }

/-- REGION_ID of the word at 0x08. -/
def Txn.region (t : Txn) : Nat := bits t.word 46 18
/-- OFFSET of the word at 0x08. -/
def Txn.off (t : Txn) : Nat := bits t.word 0 40
/-- The word at 0x08 of a region and an offset. -/
def regionWord (region off : Nat) : Nat := region % 2 ^ 18 * 2 ^ 46 + off % 2 ^ 40

/-- Whether a transaction travels on the response channel. -/
def Txn.isResp (t : Txn) : Bool := t.op == opReadResp || t.op == opAck || t.op == opFenceAck

/-- Index of a class and channel among the 14 of INIT: request channel, then response channel, class by class
(DESIGN CHOICE in the order of R353). -/
def Txn.chan (t : Txn) : Nat := 2 * t.tc + b2n t.isResp

/-- The bytes of a transaction. -/
def Txn.bytes (t : Txn) : List Byte :=
  toBytes 4 (t.op % 32 * 2 ^ 27 + t.tc % 8 * 2 ^ 24 + t.path % 4 * 2 ^ 22 + b2n t.gateway * 2 ^ 21 + b2n t.ordered * 2 ^ 20
      + b2n t.resent * 2 ^ 19 + b2n t.masked * 2 ^ 18 + t.dest % 2 ^ 18)
    ++ toBytes 4 (t.seq % 2 ^ 14 * 2 ^ 18 + t.src % 2 ^ 18) ++ toBytes 8 t.word
    ++ toBytes 4 (t.job % 2 ^ 20 * 2 ^ 12 + t.len % 256) ++ t.data

/-- Bytes of a transaction. -/
def Txn.size (t : Txn) : Nat := 20 + t.data.length

/-- Credits that a transaction takes (R357). -/
def Txn.units (t : Txn) : Nat := cdiv t.size 64

/-- Length of the data behind a header, or none when its LEN is outside its range (R360). -/
def dataLen (op len : Nat) (masked : Bool) : Option Nat :=
  if op = opRead then (if len % 16 ≤ 8 then some 0 else none)
  else if op = opReadResp then
    if bit len 7 then (if 1 ≤ len % 32 ∧ len % 32 ≤ 16 then some (256 * (len % 32)) else none)
    else if len % 32 ≤ 8 then some (32 * (len % 32)) else none
  else if op = opWrite then (if 1 ≤ len % 16 ∧ len % 16 ≤ 8 then some (32 * (len % 16)) else none)
  else if op = opAtomic then (if len % 16 ≤ 7 then some (if len % 16 = 6 then 16 else 8) else none)
  else if op = opBulk then
    if ¬ (1 ≤ len % 32 ∧ len % 32 ≤ 16) then none
    else if bit len 7 then some 0
    else if masked then (if len % 32 = 16 then some 4112 else none)
    else some (256 * (len % 32))
  else if op = opAck ∨ op = opInv ∨ op = opFence ∨ op = opFenceAck then some 0
  else if op = opMsg then (if len % 256 = 0 then none else some (64 * (len % 256)))
  else none

/-- What stands at the front of a transaction stream. -/
inductive Parsed where
  | more                            -- not whole yet
  | null (rest : List Byte)
  | txn (t : Txn) (rest : List Byte)
  | bad                             -- a protocol error

/-- Reads the front of a transaction stream. -/
def parseTxn (s : List Byte) : Parsed :=
  if s.length < 4 then .more
  else
    let w0 := ofBytes (s.take 4)
    if w0 = 0 then .null (s.drop 4)
    else if w0 / 2 ^ 27 = 0 ∨ w0 / 2 ^ 27 > 10 ∨ bits w0 24 3 = 7 then .bad
    else if s.length < 20 then .more
    else
      let w1 := ofBytes ((s.drop 4).take 4)
      let w4 := ofBytes ((s.drop 16).take 4)
      match dataLen (w0 / 2 ^ 27) (w4 % 256) (bit w0 18) with
      | none => .bad
      | some n =>
        if s.length < 20 + n then .more
        else
          .txn { op := w0 / 2 ^ 27, tc := bits w0 24 3, path := bits w0 22 2, gateway := bit w0 21, ordered := bit w0 20,
                 resent := bit w0 19, masked := bit w0 18, dest := bits w0 0 18, seq := w1 / 2 ^ 18, src := w1 % 2 ^ 18,
                 word := ofBytes ((s.drop 8).take 8), job := w4 / 2 ^ 12, len := w4 % 256,
                 data := (s.drop 20).take n }
            (s.drop (20 + n))

/-- Every whole transaction of a stream, what is left, and whether a protocol error ended the reading. The first
argument bounds the number of words and transactions. -/
def parseAll : Nat → List Byte → List Txn → List Txn × List Byte × Bool
  | 0, s, acc => (acc.reverse, s, false)
  | k + 1, s, acc =>
    match parseTxn s with
    | .more => (acc.reverse, s, false)
    | .bad => (acc.reverse, [], true)
    | .null r => parseAll k r acc
    | .txn t r => parseAll k r (t :: acc)

/-! ### Ports (R349, R350) -/

/-- FAB_PORT_CFG of a port's block. -/
def Dev.portCfg (d : Dev) (p : Nat) : Nat := d.rn (Half.ofCode (p / 32)) (Reg.FAB_PORT_CFG + 4 * (p / 2 % 16))

/-- Whether a port exists (R349). -/
def Dev.portExists (d : Dev) (p : Nat) : Bool := decide (p < 64) && (p % 2 == 0 || bit (d.portCfg p) 30)

/-- The half of a port. -/
def portHalf (p : Nat) : Half := if p < 32 then .west else .east

/-- Island of a half's first FU (R21). -/
def fuIsland (h : Half) : Nat := if h = .west then 15 else 34

/-- Island of a port (R21). -/
def portIsle (p : Nat) : Nat := nth [15, 16, 34, 35] (p / 16) 0

/-- The state of a port: DISABLED or DOWN until something happens on it. -/
def Dev.fport (d : Dev) (p : Nat) : FPort :=
  (aget d.fab.ports p).getD (if bit (d.portCfg p) 31 then .cold else { FPort.cold with st := .disabled })

/-- Replaces the state of the fabric unit. -/
def Dev.onFab (d : Dev) (f : Fab → Fab) : Dev := { d with fab := f d.fab }

/-- Replaces the state of a port. -/
def Dev.setPort (d : Dev) (p : Nat) (x : FPort) : Dev := d.onFab fun f => { f with ports := aput f.ports p x }

/-- This device's ID. -/
def Dev.me (d : Dev) : Nat := d.rn .west Reg.FAB_DEVICE_ID % 2 ^ 18

/-- STATE codes of R350. -/
def PortSt.code : PortSt → Nat
  | .disabled => 0
  | .down => 1
  | .training => 2
  | .securing => 3
  | .up => 4
  | .retraining => 5
  | .refusedRevision => 6
  | .failed => 7

/-- The word that FAB_PORT_STATUS reads (R393). -/
def Dev.portStatus (d : Dev) (p : Nat) : Nat :=
  if ¬ d.portExists p then 0
  else
    let x := d.fport p
    x.st.code * 2 ^ 28 + b2n x.keyed * 2 ^ 27 + x.peerKind % 8 * 2 ^ 24 + x.peerPort % 64 * 2 ^ 18 + x.peerDev % 2 ^ 18

/-- Flits that a port's replay buffer holds (R354). -/
def Dev.replayCap (d : Dev) (p : Nat) : Nat := if bit (d.portCfg p) 30 then 2048 else 4096

/-- Receive buffer of each class and channel of a port in credits (R356). -/
def Dev.bufferUnits (d : Dev) (p i : Nat) : Nat :=
  let kib := nth [16, 16, 128, 64, 128, 64, 128, 128, 128, 64, 64, 32, 16, 16] i 0
  let n := kib * 1024 / 64
  if bit (d.portCfg p) 30 then n / 2 else n

/-! ### Sending (R351 to R358) -/

/-- Weight of a class 1 to 5 (R393). -/
def Dev.tcWeight (d : Dev) (p c : Nat) : Nat := bits (d.rn (portHalf p) Reg.FAB_TC_WEIGHT) (6 * (c - 1)) 6

/-- WEIGHT of an installed group, by FID (R396). -/
def Dev.groupWeight (d : Dev) (fid : Nat) : Nat := match d.ce.groups.find? fun g => g.2.fid = fid with | some g => g.2.weight | none => 1

/-- Bytes of MANAGEMENT's share in every 32 flits: one flit's payload (R358). -/
def mgmtShare : Nat := 250

/-- Whether a port may send a transaction now: its credits, and only MANAGEMENT while SECURING. -/
def FPort.maySend (x : FPort) (t : Txn) : Bool :=
  decide (t.units ≤ nth x.credits t.chan 0) && (x.st == .up || (x.st == .securing && t.tc == 6))

/-! #### Groups within COLLECTIVE (R410) -/

/-- Whether a transaction is a request of the COLLECTIVE class. -/
def Txn.isColl (t : Txn) : Bool := t.tc == 1 && !t.isResp

/-- Whether a MSG carries a frame that goes ahead of its group's data: any kind but PARTIAL, FINAL and RESEND (R398, R410). -/
def Txn.isCtl (t : Txn) : Bool := t.op == opMsg && [0x10, 0x18, 0x19, 0x20, 0x21, 0x22].contains (t.data.getD 11 0).toNat

/-- The groups, by FID, that have a frame ready at a port. -/
def FPort.collGroups (x : FPort) : List Nat := ((x.queue.filter Txn.isColl).map Txn.region).eraseDups

/-- The frame of a group that goes next. -/
def FPort.collFront (x : FPort) (fid : Nat) : Option Txn :=
  let mine := x.queue.filter fun t => t.isColl ∧ t.region = fid
  match mine.find? Txn.isCtl with
  | some t => some t
  | none => mine.head?

/-- The group after another in a cycle through those that have a frame ready, by FID. -/
def nextGroup (l : List Nat) (cur : Nat) : Nat :=
  let least (l : List Nat) : Option Nat := l.foldl (fun o f => match o with | none => some f | some m => some (min m f)) none
  match least (l.filter (cur < ·)) with
  | some f => f
  | none => (least l).getD 0

/-- The frame that COLLECTIVE sends next: of the group in turn while its deficit covers it, else of the next group, whose quantum
covers any frame. A group with no frame ready keeps no deficit. Answers the port as the sending leaves it. -/
def FPort.collNext (gw : Nat → Nat) (x : FPort) : Option (Txn × FPort) :=
  let l := x.collGroups
  let defs := x.groupDef.filter fun e => l.contains e.1
  let have_ (f : Nat) : Nat := (aget defs f).getD 0
  let take (f n : Nat) (t : Txn) : Txn × FPort := (t, { x with groupTurn := f, groupDef := aput defs f (n - t.size) })
  let stay := (x.collFront x.groupTurn).filter fun t => decide (t.size ≤ have_ x.groupTurn)
  match stay with
  | some t => some (take x.groupTurn (have_ x.groupTurn) t)
  | none =>
    let f := nextGroup l x.groupTurn
    (x.collFront f).map fun t => take f (have_ f + 16384 * max 1 (gw f)) t

/-- What the shares of a port's classes and groups weigh. -/
structure Weights where
  cls : Nat → Nat
  group : Nat → Nat

/-- The transaction of a class that goes next, and the port as its sending leaves it: the response channel first, each channel in
order, but COLLECTIVE requests as R410 shares them. -/
def FPort.nextOf (w : Weights) (x : FPort) (c : Nat) : Option (Txn × FPort) :=
  let r := x.queue.find? fun t => t.tc = c ∧ t.isResp
  match r.filter x.maySend with
  | some t => some (t, x)
  | none =>
    let q := if c = 1 then x.collNext w.group else (x.queue.find? fun t => t.tc = c ∧ ¬ t.isResp).map fun t => (t, x)
    q.filter fun p => x.maySend p.1

/-- The turn of deficit round robin passes to the next class, which takes its quantum when it has something it may send. A class with
nothing queued keeps no deficit; one that lacks credit is passed over and keeps what it has (R358; what becomes of a deficit is
DESIGN CHOICE, as a round-robin scheduler keeps it). -/
def FPort.nextTurn (w : Weights) (x : FPort) : FPort :=
  let n := if x.turn ≥ 5 then 1 else x.turn + 1
  let have_ := nth x.deficit (n - 1) 0
  let y := if (x.nextOf w n).isSome then have_ + 256 * w.cls n else if x.queue.any fun t => t.tc = n then have_ else 0
  { x with turn := n, deficit := setNth x.deficit (n - 1) y }

/-- Deficit round robin among classes 1 to 5: the class in turn sends while its deficit covers what it sends next. The first
argument bounds the number of turns. -/
def FPort.drr (w : Weights) : Nat → FPort → Option (Txn × FPort)
  | 0, _ => none
  | k + 1, x =>
    match x.nextOf w x.turn with
    | none => FPort.drr w k (x.nextTurn w)
    | some (t, y) =>
      let have_ := nth x.deficit (x.turn - 1) 0
      if t.size ≤ have_ then some (t, { y with deficit := setNth x.deficit (x.turn - 1) (have_ - t.size) })
      else FPort.drr w k (x.nextTurn w)

/-- Whether MANAGEMENT goes before classes 1 to 5 with a transaction: it has one flit's worth of traffic in every 32 flits, and a
transaction longer than that once what it sent before is paid for (R358; DESIGN CHOICE). -/
def FPort.mgmtFirst (x : FPort) (t : Txn) : Bool := x.mgmtDebt == 0 || decide (x.mgmtDebt + 31 * t.size ≤ 31 * mgmtShare)

/-- What a port sends next (R358). -/
def FPort.choose (w : Weights) (x : FPort) : Option (Txn × FPort) :=
  match x.nextOf w 0 with
  | some r => some r
  | none =>
    match (x.nextOf w 6).filter fun r => x.mgmtFirst r.1 with
    | some r => some r
    | none =>
      match if [1, 2, 3, 4, 5].any fun c => (x.nextOf w c).isSome then FPort.drr w 700 x else none with
      | some r => some r
      | none => x.nextOf w 6

/-- The weights of a port. -/
def Dev.weights (d : Dev) (p : Nat) : Weights := { cls := d.tcWeight p, group := d.groupWeight }

/-- Removes the first occurrence of a transaction. -/
def dropTxn (t : Txn) : List Txn → List Txn
  | [] => []
  | u :: l => if u = t then l else u :: dropTxn t l

/-- Takes transactions off the queue while `room` bytes of stream remain. Answers them with the port. -/
def FPort.takeOut (w : Weights) (room : Nat) : Nat → FPort → List Txn → Nat → FPort × List Txn
  | 0, x, acc, _ => (x, acc.reverse)
  | k + 1, x, acc, used =>
    match x.choose w with
    | none => (x, acc.reverse)
    | some (t, x') =>
      if used + t.size > room then (x, acc.reverse)
      else
        let x' := { x' with queue := dropTxn t x'.queue,
                            credits := setNth x'.credits t.chan (nth x'.credits t.chan 0 - t.units),
                            mgmtDebt := if t.tc = 6 then x'.mgmtDebt + 31 * t.size else x'.mgmtDebt - t.size }
        FPort.takeOut w room k x' (t :: acc) (used + t.size)

/-- The bytes of a flit (R351). -/
def flitBytes (hdr : Nat) (payload : List Byte) : List Byte :=
  let b := toBytes 2 hdr ++ payload
  b ++ toBytes 4 (crc32c b)

/-- Sends one flit of a port: data (`ctrl` none) or control. A flit other than NAK is numbered and kept (R354). -/
def Dev.sendFlit (d : Dev) (p : Nat) (ctrl : Option Nat) (payload : List Byte) (ends : List Txn) : Dev :=
  let x := d.fport p
  let ack := min 255 x.ackOwed
  let payload := payload ++ List.replicate (250 - payload.length) 0
  let i := (x.freed.findIdx? (· > 0)).getD 0
  let n := min 7 (nth x.freed i 0)
  let hdr : Nat :=
    match ctrl with
    | some c => 2 ^ 15 + c * 2 ^ 8 + ack
    | none => i / 2 * 2 ^ 12 + i % 2 * 2 ^ 11 + n * 2 ^ 8 + ack
  let b := flitBytes hdr payload
  let x := { x with ackOwed := x.ackOwed - ack,
                    freed := if ctrl.isNone then setNth x.freed i (nth x.freed i 0 - n) else x.freed }
  let x := if ctrl = some 1 then x
    else { x with replay := x.replay ++ [⟨x.txNum, b, ends⟩], txNum := (x.txNum + 1) % 65536 }
  ((d.setPort p x).count (portHalf p) Reg.FAB_FLITS_TX_LO 1).emit (.flit p b)

/-- Names the keys that a port's session gives it now: a KEY_UPDATE gives new ones (R355). -/
def Dev.linkKey (d : Dev) (p : Nat) : Nat :=
  match d.top.sessions.find? fun s => s.use = .link p with
  | some s => s.id * 2 ^ 32 + s.updates
  | none => 0

/-- The MAC control flit behind a full tag group (R355): the tag of its headers and payloads. -/
def Dev.sendMac (d : Dev) (p : Nat) : Dev :=
  let x := d.fport p
  let tag := Config.linkTag x.key x.txGroups (x.txOpen.flatMap (·.take 2)) (x.txOpen.flatMap (·.drop 2))
  let d := d.sendFlit p (some 3) (toBytes 8 x.txGroups ++ toBytes 16 tag.toNat) []
  let x := d.fport p
  d.setPort p { x with txGroup := 0, txGroups := x.txGroups + 1, txOpen := [] }

/-- Sends one data flit. On a keyed link its payload is encrypted, keys change between tag groups, and the MAC flit follows the
flit that completes a group. -/
def Dev.sendData (d : Dev) (p : Nat) (payload : List Byte) (ends : List Txn) : Dev :=
  let x := d.fport p
  if ¬ x.keyed then d.sendFlit p none payload ends
  else
    let key := if x.txGroup = 0 then d.linkKey p else x.key
    let plain := payload ++ List.replicate (250 - payload.length) 0
    let d := d.sendFlit p none (plain.zipIdx.map fun b => b.1 ^^^ Config.linkPad key x.txGroups (250 * x.txGroup + b.2)) ends
    let y := d.fport p
    let hdr := match y.replay.getLast? with | some f => f.bytes.take 2 | none => []
    let d := d.setPort p { y with key := key, txGroup := x.txGroup + 1, txOpen := y.txOpen ++ [hdr ++ plain] }
    if x.txGroup + 1 = 256 then d.sendMac p else d

/-- Cuts a stream into the payloads of data flits, each with the transactions that end in it. -/
def flitise (stream : List Byte) (ts : List Txn) (first : Nat) : List (List Byte × List Txn) :=
  let ends := (ts.foldl (fun (acc : Nat × List (Nat × Txn)) t => (acc.1 + t.size, acc.2 ++ [(acc.1 + t.size, t)])) (first, [])).2
  let ps := chunks 250 stream
  (List.range ps.length).map fun i =>
    (nth ps i [], (ends.filter fun e => 250 * i < e.1 ∧ e.1 ≤ 250 * (i + 1)).map (·.2))

/-- Flits that a port's replay buffer still has room for (R354). -/
def Dev.replayRoom (d : Dev) (p : Nat) : Nat := d.replayCap p - (d.fport p).replay.length

/-- NULL flits complete a keyed link's tag group when nothing else is to be sent, so that what it holds is verified (R351, R355). -/
def Dev.fillGroup (d : Dev) (p : Nat) : Dev :=
  let x := d.fport p
  let k := 256 - x.txGroup
  if ¬ x.keyed ∨ x.txGroup = 0 ∨ d.replayRoom p < k + 1 then d
  else
    let d := (List.range k).foldl (fun d _ => d.sendData p [] []) d
    let y := d.fport p
    d.setPort p { y with owed := (4 - (250 * k - x.owed) % 4) % 4 }

/-- A CREDIT flit returns the credits that no data flit has carried; it also reports the flits accepted once 255 are owed
(R352, R357). -/
def Dev.returnCredits (d : Dev) (p : Nat) : Dev :=
  let x := d.fport p
  if d.replayRoom p = 0 ∨ ¬ (x.freed.any (· > 0) ∨ x.ackOwed ≥ 255) then d
  else
    (d.setPort p { x with freed := x.freed.map fun n => n - min 65535 n }).sendFlit p (some 5)
      (x.freed.flatMap fun n => toBytes 2 (min 65535 n)) []

/-- Sends what a port can send. A flit goes out for transactions, to complete a tag group, for credits freed, or when 255 flits are
owed an acknowledgement; the NULL flits that fill an idle link otherwise are left out (assumption 11). -/
def Dev.drain (d : Dev) (p : Nat) : Dev :=
  let x := d.fport p
  if x.st ≠ .up ∧ x.st ≠ .securing then d
  else
    let flits := d.replayRoom p
    let room := 250 * (if x.keyed then flits - (x.txGroup + flits) / 256 else flits)
    let (x', ts) := FPort.takeOut (d.weights p) (room - x.owed) (x.queue.length + 1) x [] 0
    let d :=
      if ts.isEmpty then d.setPort p x'
      else
        let stream := List.replicate x.owed 0 ++ ts.flatMap Txn.bytes
        let pad := (250 - stream.length % 250) % 250
        let d := d.setPort p { x' with owed := if pad = 0 then 0 else (4 - pad % 4) % 4 }
        (flitise (stream ++ List.replicate pad 0) ts x.owed).foldl (fun d f => d.sendData p f.1 f.2) d
    (d.fillGroup p).returnCredits p

/-- Queues a transaction on a port and sends what can be sent. -/
def Dev.enqueue (d : Dev) (p : Nat) (t : Txn) : Dev :=
  let x := d.fport p
  (d.setPort p { x with queue := x.queue ++ [t] }).drain p

/-! ### Routes and paths (R372 to R375) -/

/-- Route entry of a destination. -/
def Dev.route (d : Dev) (dest : Nat) : Nat := (aget d.fab.routes dest).getD 0

/-- LEVEL of a destination's route: 0 unreachable, 1 to 3 for L2 to L4. -/
def Dev.level (d : Dev) (dest : Nat) : Nat := bits (d.route dest) 62 2

/-- Port of a path slot. -/
def Dev.slotPort (d : Dev) (dest s : Nat) : Nat := bits (d.route dest) (6 * s) 6

/-- The flow key of R373. -/
def flowKey (dest tc region : Nat) : Nat := region * 2 ^ 21 + tc * 2 ^ 18 + dest

/-- The static slot of R373. -/
def staticSlot (k : Nat) : Nat := (List.range 20).foldl (fun h i => h ^^^ (k / 2 ^ (2 * i) % 4)) 0

/-- The flow-table index of R373. -/
def flowIndex (k : Nat) : Nat := (k ^^^ (k / 2 ^ 12) ^^^ (k / 2 ^ 24) ^^^ (k / 2 ^ 36)) % 4096

/-- REGION_ID in a transaction's flow key: 0 for FENCE and the responses (R373). -/
def Txn.keyRegion (t : Txn) : Nat := if t.op = opFence ∨ t.isResp then 0 else t.region

/-- What is kept for a destination. -/
def Dev.dest (d : Dev) (dest : Nat) : Dest := (aget d.fab.dests dest).getD .cold

/-- Replaces what is kept for a destination. -/
def Dev.setDest (d : Dev) (dest : Nat) (x : Dest) : Dev := d.onFab fun f => { f with dests := aput f.dests dest x }

/-- PATH_US of FAB_TIMEOUT in ns. -/
def Dev.pathNs (d : Dev) : Nat := 1000 * (d.rn d.leadHalf Reg.FAB_TIMEOUT % 65536)
/-- REACH_MS of FAB_TIMEOUT in ns. -/
def Dev.reachNs (d : Dev) : Nat := 1000000 * (d.rn d.leadHalf Reg.FAB_TIMEOUT / 65536)

/-- Whether a path slot is live for a destination (R375): one whose route is unreachable has none. -/
def Dev.slotLive (d : Dev) (dest s : Nat) : Bool :=
  let x := d.fport (d.slotPort dest s)
  d.level dest != 0 && x.st == .up && decide (x.upAt + 1000000 ≤ d.time) && ((d.dest dest).dead.find? fun e => e.1 = s).isNone

/-- The half whose FU sends a request; a request of no half's engine is the lead half's (DESIGN CHOICE). -/
def ReqFor.half (f : ReqFor) (lead : Half) : Half :=
  match f with
  | .node _ _ _ h => h
  | .engine h => h
  | .deliver _ _ => lead
  | .gone h => h

/-- The half whose FU sends a read or a probe. -/
def ReadFor.half (f : ReadFor) (lead : Half) : Half :=
  match f with
  | .probe _ _ _ _ _ h => h
  | .load f _ _ _ _ _ _ _ => facetHalf f
  | .expert _ _ _ _ _ _ h => h
  | .gone h _ => h
  | _ => lead

/-- Slot of an entry of a half's flow table with requests outstanding: the slot of any request that its FU has sent, that is not
answered, and whose index is the same. The table of R374 is this view of the outstanding requests; FENCEs are the lead half's. -/
def Dev.flowSlot (d : Dev) (half : Half) (idx : Nat) : Option Nat :=
  d.fab.dests.findSome? fun e =>
    let f (t : Txn) : Bool := flowIndex (flowKey t.dest t.tc t.keyRegion) == idx
    match e.2.held.find? fun h => h.slot.isSome ∧ h.for_.half d.leadHalf = half ∧ f h.txn with
    | some h => h.slot
    | none =>
      match e.2.reads.find? fun r => r.slot.isSome ∧ r.for_.half d.leadHalf = half ∧ f r.txn with
      | some r => r.slot
      | none =>
        match e.2.fences.find? fun r => r.slot.isSome ∧ d.leadHalf = half ∧ flowIndex (flowKey e.1 0 0) = idx with
        | some r => r.slot
        | none => none

/-- Bytes queued on a port. -/
def Dev.queued (d : Dev) (p : Nat) : Nat := sumBy (d.fport p).queue Txn.size

/-- The slot that a half's FU gives a transaction (R374), or none while no slot is live. -/
def Dev.chooseSlot (d : Dev) (half : Half) (t : Txn) : Option Nat :=
  let k := flowKey t.dest t.tc t.keyRegion
  let h := staticSlot k
  let live := (List.range 4).filter (d.slotLive t.dest)
  match d.flowSlot half (flowIndex k) with
  | some s => if live.contains s then some s else pick live h
  | none => pick live h
where
  /-- A fresh choice among live slots. -/
  pick (live : List Nat) (h : Nat) : Option Nat :=
    if d.top.strict then ((List.range 4).map fun i => (h + i) % 4).find? live.contains
    else
      live.foldl
        (fun o s =>
          match o with
          | none => some s
          | some b =>
            let qs := d.queued (d.slotPort t.dest s)
            let qb := d.queued (d.slotPort t.dest b)
            if qs < qb ∨ (qs = qb ∧ s = h) then some s else some b)
        none

/-- FAB_LEVEL_BYTES of the level a request travels at (R391). -/
def levelBytes (lv : Nat) : Nat := Reg.FAB_LEVEL_BYTES_LO + 8 * (lv - 1)

/-- Puts a transaction on its slot's port. -/
def Dev.sendOn (d : Dev) (t : Txn) (s : Nat) : Dev :=
  let p := d.slotPort t.dest s
  let lv := d.level t.dest
  let d := if t.isResp ∨ lv = 0 then d else d.count (portHalf p) (levelBytes lv) t.data.length
  let d := if t.resent then d.count (portHalf p) Reg.FAB_RESENT_LO 1 else d
  d.enqueue p { t with path := s }

/-- Puts a transaction of the device to itself on the loop, which takes no port (R372). -/
def Dev.onLoop (d : Dev) (t : Txn) : Dev := d.onFab fun f => { f with loop := f.loop ++ [t] }

/-- Sends a response: by its slot, by the loop, or nowhere when no slot is live. It takes the flow entry of the lead half's FU
(DESIGN CHOICE). -/
def Dev.respond (d : Dev) (t : Txn) : Dev :=
  if t.dest = d.me then d.onLoop t
  else
    match d.chooseSlot d.leadHalf t with
    | some s => d.sendOn t s
    | none => d

/-- The slot on which a half's FU can send a transaction now; the loop counts as slot 0. -/
def Dev.slotFor (d : Dev) (half : Half) (t : Txn) : Option Nat := if t.dest = d.me then some 0 else d.chooseSlot half t

/-- Sends a transaction on the slot that `slotFor` has given. -/
def Dev.sendAt (d : Dev) (t : Txn) (s : Nat) : Dev := if t.dest = d.me then d.onLoop t else d.sendOn t s

/-- Whether one SEQ is at or before another within a window of 8,192. -/
def seqLe (a b : Nat) : Bool := decide ((b + 16384 - a) % 16384 < 8192)

/-- SEQs that may be unacknowledged toward one destination (R363). -/
def seqLimit : Nat := 8192

/-- A stalled request takes the next SEQ. A FENCE that waited for the last request it covers has its MARK (R381). -/
def Dest.takeSeq (x : Dest) (t : Txn) (why : ReqFor) : Dest :=
  { x with nextSeq := (x.nextSeq + 1) % 16384, held := x.held ++ [⟨x.nextSeq, { t with seq := x.nextSeq }, none, 0, why⟩],
           fences := x.fences.map fun f =>
             if f.ahead = 0 then f else { f with ahead := f.ahead - 1, mark := if f.ahead = 1 then x.nextSeq else f.mark } }

/-- As many stalled requests take their SEQs as may be unacknowledged. -/
def Dest.admitAll (x : Dest) : Dest :=
  let n := seqLimit - x.held.length
  (x.waiting.take n).foldl (fun x r => x.takeSeq r.1 r.2) { x with waiting := x.waiting.drop n }

/-- The next free read tag toward a destination. Tags have 14 bits: a read that finds none waits under a number beyond them (R363). -/
def Dest.freeTag (x : Dest) : Nat :=
  ((List.range (x.reads.length + 1)).find? fun k => x.reads.all fun r => r.tag ≠ k).getD 0

/-- Gives a read that waits under a number beyond the tags the tag that has fallen free, if any. -/
def Dest.retag (x : Dest) (r : OutRead) : OutRead :=
  let t := if r.tag < 16384 then r.tag else x.freeTag
  { r with tag := t, txn := { r.txn with seq := t } }

/-- Sends the held requests that wait for a slot, in SEQ order: resends before newer requests (R375). -/
def Dev.pumpHeld (d : Dev) (dest : Nat) : Dev :=
  (((d.dest dest).held.map (·.seq)).foldl
    (fun (ds : Dev × Bool) seq =>
      let x := ds.1.dest dest
      match x.held.find? fun h => h.seq = seq ∧ h.slot.isNone with
      | none => ds
      | some h =>
        match if ds.2 then none else ds.1.slotFor (h.for_.half ds.1.leadHalf) h.txn with
        | none => (ds.1, true)
        | some s =>
          let x := { x with held := x.held.map fun g => if g.seq = seq then { g with slot := some s, at_ := ds.1.time } else g }
          ((ds.1.setDest dest x).sendAt h.txn s, false))
    (d, false)).1

/-- Sends the reads that wait for a slot or a tag. -/
def Dev.pumpReads (d : Dev) (dest : Nat) : Dev :=
  ((d.dest dest).reads.map (·.tag)).foldl
    (fun d tag =>
      let x := d.dest dest
      match x.reads.find? fun r => r.tag = tag ∧ r.slot.isNone with
      | none => d
      | some r =>
        let q := x.retag r
        match if q.tag < 16384 then d.slotFor (q.for_.half d.leadHalf) q.txn else none with
        | none => d
        | some s =>
          (d.setDest dest { x with reads := x.reads.map fun g => if g.tag = tag then { q with slot := some s, at_ := d.time } else g }).sendAt
            q.txn s)
    d

/-- Sends the FENCEs that wait for a slot and have their MARK. -/
def Dev.pumpFences (d : Dev) (dest : Nat) : Dev :=
  (List.range (d.dest dest).fences.length).foldl
    (fun d k =>
      let x := d.dest dest
      match x.fences[k]? with
      | none => d
      | some f =>
        if f.slot.isSome ∨ f.ahead ≠ 0 then d
        else
          let t : Txn := { (Txn.mk0 opFence 0 dest f.mark d.me 0 f.job 0 []) with resent := decide (f.at_ ≠ 0), gateway := dest != d.me && d.level dest == 3 }
          match d.slotFor d.leadHalf t with
          | none => d
          | some s => (d.setDest dest { x with fences := x.fences.set k { f with slot := some s, at_ := d.time } }).sendAt t s)
    d

/-- Sends what waits for a destination: its stalled requests as SEQs fall free, then its reads and its FENCEs. -/
def Dev.pump (d : Dev) (dest : Nat) : Dev :=
  (((d.setDest dest (d.dest dest).admitAll).pumpHeld dest).pumpReads dest).pumpFences dest

/-- Notes that a destination has something outstanding from now on. -/
def Dest.waitFrom (x : Dest) (now : Nat) : Dest :=
  if x.held.isEmpty ∧ x.waiting.isEmpty ∧ x.reads.isEmpty ∧ x.fences.isEmpty then { x with heard := now } else x

/-- Sends a READ, probe or BULK GET. -/
def Dev.sendRead (d : Dev) (dest job region off len tc : Nat) (bulk : Bool) (why : ReadFor) : Dev :=
  let x := (d.dest dest).waitFrom d.time
  let tag := x.freeTag
  let t : Txn := { (Txn.mk0 (if bulk then opBulk else opRead) tc dest tag d.me (regionWord region off) job len []) with gateway := dest != d.me && d.level dest == 3 }
  (d.setDest dest { x with reads := x.reads ++ [⟨tag, t, none, 0, why⟩] }).pump dest

/-- Whether a destination can be reached by its route. -/
def Dev.reachable (d : Dev) (dest : Nat) : Bool := dest == d.me || d.level dest != 0

/-- Releases a request toward a destination: it is sent under the next SEQ and held until it is acknowledged, or stalls until one
may be given (R363). -/
def Dev.holdReq (d : Dev) (t : Txn) (why : ReqFor) : Dev :=
  let x := (d.dest t.dest).waitFrom d.time
  let t := { t with src := d.me, gateway := t.dest != d.me && d.level t.dest == 3 }
  (d.setDest t.dest { x with waiting := x.waiting ++ [(t, why)] }).pump t.dest

/-! ### Slots that die (R375) -/

/-- A slot dies for a destination: what was sent on it and not answered waits for another. -/
def Dev.killSlot (d : Dev) (dest s : Nat) : Dev :=
  let x := d.dest dest
  if (x.dead.find? fun e => e.1 = s).isSome ∨ dest = d.me then d
  else
    let re (t : Txn) : Txn := { t with resent := true }
    let x := { x with dead := x.dead ++ [(s, d.time)],
                      held := x.held.map fun h => if h.slot = some s then { h with slot := none, txn := re h.txn } else h,
                      reads := x.reads.map fun r => if r.slot = some s then { r with slot := none, txn := re r.txn } else r,
                      fences := x.fences.map fun f => if f.slot = some s then { f with slot := none } else f }
    ((d.setDest dest x).count (portHalf (d.slotPort dest s)) Reg.FAB_PATH_DEAD_LO 1).pump dest

/-- Every slot that uses a port dies. -/
def Dev.killPort (d : Dev) (p : Nat) : Dev :=
  (d.fab.dests.map (·.1)).foldl
    (fun d dest =>
      (List.range 4).foldl (fun d s => if d.level dest ≠ 0 ∧ d.slotPort dest s = p then d.killSlot dest s else d) d)
    d

/-- Clears VALID of the retained set-up after a change to a table (R388). -/
def Dev.setupChanged (d : Dev) : Dev := d.setReg d.leadHalf Reg.FAB_SETUP_STATUS 0

end Sys2Proof.Machine
end

