-- ==== Sys2Proof/Machine/Elapse.lean ====
section
/-! DEFINITION. What the passing of device time does by itself: counters of waiting, and the slewing of device time (R235, R391,
R392); and the training chains whose waits it counts (R223 to R227). -/

namespace Sys2Proof.Machine

open Sys2Proof

/-! ### Training chains (R223 to R227) -/

/-- ACT of a gradient-kind handle. -/
def gAct (a : Nat) : Nat := bits a 58 2
/-- PARAM_ID of a gradient-kind handle. -/
def gParam (a : Nat) : Nat := bits a 16 16
/-- EXPERT of a gradient-kind handle. -/
def gExpert (a : Nat) : Nat := bits a 0 16
/-- USE of a gradient-kind handle. -/
def gUse (a : Nat) : Nat := bits a 40 8

/-- Whether a node is of gradient kind. -/
def Node.gradient (n : Node) : Bool := bits n.affinity 60 4 == 2 && (n.opcode == 0x100 || n.opcode == 0x101)

/-- Whether two handles share a chain: a CONSUME_SET joins every expert chain of its parameter. -/
def sameChain (a b : Nat) : Bool := gParam a == gParam b && (gExpert a == gExpert b || gAct a == 2 || gAct b == 2)

/-- Whether one node's key goes before another's (R227). -/
def gBefore (s1 a1 s2 a2 : Nat) : Bool :=
  let use (a : Nat) : Nat := if gAct a = 0 then gUse a else 256
  decide (s1 < s2) || (s1 == s2 && decide (use a1 < use a2))

/-- The other nodes of a node's chain that are not done, as (admission sequence, node). -/
def Dev.chainOthers (d : Dev) (seq i : Nat) (x : Inst) (n : Node) : List (Nat × Node) :=
  d.tgu.insts.flatMap fun p =>
    if p.2.job ≠ x.job then []
    else (p.2.nodes.zipIdx.filter fun m => m.1.gradient ∧ sameChain m.1.affinity n.affinity ∧ m.1.st ≠ .done
        ∧ ¬ (p.1 = seq ∧ m.2 = i)).map fun m => (p.1, m.1)

/-- Whether its chain holds a gradient-kind node back (R226, R227). -/
def Dev.chainHolds (d : Dev) (seq i : Nat) (x : Inst) (n : Node) : Bool :=
  let l := d.chainOthers seq i x n
  let lower := l.filter fun m => gBefore m.1 m.2.affinity seq n.affinity
  l.any (fun m => m.2.st = .running ∨ m.2.st = .committing ∨ (m.2.st = .ready ∧ m.2.attempt > 0 ∧ n.attempt = 0))
    || (n.attempt == 0 && (if x.strict then !lower.isEmpty else lower.any fun m => m.2.st = .ready))

/-- Whether some ready node waits for its chain. A chain whose parameter was FROZEN when last read holds no node (R229). -/
def Dev.orderWaits (d : Dev) : Bool :=
  d.tgu.insts.any fun p => p.2.nodes.zipIdx.any fun m =>
    m.1.st == .ready && m.1.gradient && !d.tgu.frozen.contains (p.2.job, gParam m.1.affinity) && d.chainHolds p.1 m.2 p.2 m.1

/-! ### Time (R391, R392) -/

/-- Whether a request of level Ln, n from 2 to 4, waits in a half for credit or for room in a replay buffer. -/
def Dev.pressed (d : Dev) (h : Half) (n : Nat) : Bool :=
  d.fab.ports.any fun e => portHalf e.1 == h && e.2.queue.any fun t => !t.isResp && d.level t.dest == n - 1

/-- Counts the waits of the time from `d.time` to `t`. Facet ingress and half-bridge waits, FAB_LEVEL_PRESSURE_L0 and _L1, are of
the part's timing, which the model leaves out (assumption 11). -/
def Dev.elapse (d : Dev) (t : Nat) : Dev :=
  let clk := (d.top.sc.get d.leadHalf).clk
  let x := if d.orderWaits then d.count .west Reg.TGU_TRAIN_ORDER_WAIT_LO (t * clk / 1000 - d.time * clk / 1000) else d
  [(Half.west, 2), (.west, 3), (.west, 4), (.east, 2), (.east, 3), (.east, 4)].foldl
    (fun x k => if d.pressed k.1 k.2 then x.count k.1 (Reg.FAB_LEVEL_PRESSURE_LO + 8 * k.2) (t - d.time) else x) x

/-- What is left of an offset after a time: device time slews by at most 100 ppm, and as fast as that (R392; the rate is DESIGN
CHOICE). -/
def slewLeft (off : Int) (k : Nat) : Int := if off ≥ 0 then max 0 (off - k) else min 0 (off + k)

/-- Device time passes to the time of a timed event; it never runs backward (assumption 6). -/
def Dev.at_ (d : Dev) (now : Nat) : Dev :=
  let t := max d.time now
  { d with time := t, regs := (d.elapse t).regs, top := { d.top with slew := slewLeft d.top.slew (t / 10000 - d.time / 10000) } }

/-- Sets device time in a working state. -/
def Wk.at_ (w : Wk) (now : Nat) : Wk := w.upd (·.at_ now)

end Sys2Proof.Machine
end

