-- ==== Sys2Proof/Machine/CeFrame.lean ====
section
/-! DEFINITION. Groups, and the frames of the collective engines (R396 to R398). -/

namespace Sys2Proof.Machine

open Sys2Proof

/-- Replaces the state of the collective engines. -/
def Dev.onCe (d : Dev) (f : Ce → Ce) : Dev := { d with ce := f d.ce }

/-- An installed group. -/
def Dev.group (d : Dev) (k : Nat) : Option Group64 := aget d.ce.groups k

/-- Members of a group. -/
def Group64.count (g : Group64) : Nat := g.members.length

/-- Children of a member in the tree of R407. -/
def Group64.children (g : Group64) (m : Nat) : List Nat :=
  ((List.range g.fan).map fun k => g.fan * m + 1 + k).filter (· < g.count)

/-- A one-part frame of this member for the operation `seq`. -/
def Group64.frame (g : Group64) (seq kind index : Nat) (body : List Byte) : CeFrame :=
  { epoch := g.epoch, seq := seq, kind := kind, parts := 1, part := 0, src := g.me, index := index, body := body }

/-- Header bytes 0x00 to 0x1B of a frame. -/
def CeFrame.head (f : CeFrame) : List Byte :=
  toBytes 4 f.epoch ++ toBytes 4 f.seq ++ toBytes 4 (f.kind % 256 * 2 ^ 24 + b2n (f.parts == 2) * 2 ^ 23 + f.part % 2 * 2 ^ 22 + f.src % 2 ^ 14)
    ++ toBytes 4 f.index ++ toBytes 4 f.body.length ++ toBytes 8 0

/-- The payload of a frame, padded to a multiple of 64 bytes and at least `least` bytes. -/
def CeFrame.bytes (f : CeFrame) (least : Nat) : List Byte :=
  let bs := f.head ++ toBytes 4 (crc32c (f.head ++ f.body)) ++ f.body
  let n := max least ((bs.length + 63) / 64 * 64)
  bs ++ List.replicate (n - bs.length) 0

/-- What stands at the front of a MSG payload. -/
inductive FrameAt where
  | none                       -- padding, or nothing
  | bad                        -- FRAME_CRC is wrong
  | frame (f : CeFrame) (rest : List Byte)

/-- Reads a frame: its fields, its body and what follows its 64-byte padding. -/
def readFrame (bs : List Byte) : FrameAt :=
  let w (i : Nat) : Nat := ofBytes ((bs.drop (4 * i)).take 4)
  let n := w 4
  if bs.length < 32 ∨ (w 2 / 2 ^ 24 = 0 ∧ n = 0) then .none
  else if n > 16256 ∨ bs.length < 32 + n ∨ crc32c (bs.take 28 ++ (bs.drop 32).take n) ≠ w 7 then .bad
  else
    .frame { epoch := w 0, seq := w 1, kind := w 2 / 2 ^ 24, parts := bits (w 2) 23 1 + 1, part := bits (w 2) 22 1, src := bits (w 2) 0 14,
             index := w 3, body := (bs.drop 32).take n } (bs.drop ((32 + n + 63) / 64 * 64))

/-- Every frame of a MSG payload; none when one is bad. The first argument bounds their number. -/
def readFrames : Nat → List Byte → Option (List CeFrame)
  | 0, _ => some []
  | k + 1, bs =>
    match readFrame bs with
    | .none => some []
    | .bad => none
    | .frame f rest =>
      match readFrames k rest with
      | none => none
      | some l => some (f :: l)

/-- Whether a kind is an exchange frame. -/
def exchKind (kind : Nat) : Bool := decide (1 ≤ kind ∧ kind ≤ 3)

/-- Traffic class of a frame toward a device (R398). -/
def Dev.frameClass (d : Dev) (dest kind : Nat) : Nat :=
  if dest ≠ d.me ∧ d.level dest = 3 then 4 else if exchKind kind then 2 else 1

/-- The MSG that carries a payload to a device for a group. -/
def Dev.msgTxn (_d : Dev) (g : Group64) (dest tc : Nat) (data : List Byte) : Txn :=
  Txn.mk0 opMsg tc dest 0 0 (regionWord g.fid 0) g.job (data.length / 64) data

/-- Sends a frame to a member, when it can be reached; counts its payload. -/
def Dev.frameTo (d : Dev) (h : Half) (k member : Nat) (f : CeFrame) : Dev :=
  match d.group k with
  | none => d
  | some g =>
    let dest := nth g.members member 0
    if ¬ d.reachable dest then d
    else
      let tc := d.frameClass dest f.kind
      let data := f.bytes (if tc = 4 then 4096 else 64)
      (d.holdReq (d.msgTxn g dest tc data) (.engine h)).count h Reg.CE_BYTES_SENT_LO data.length

end Sys2Proof.Machine
end

