-- ==== Sys2Proof/Machine/Discard.lean ====
section
/-! DEFINITION. What a kill discards: the engine state of one attempt (R330). -/

namespace Sys2Proof.Machine

open Sys2Proof

/-- Bytes of the page map of an area of `slots` slots. -/
def mapBytes (slots : Nat) : Nat := cdiv (16 * slots) 65536 * 65536
/-- Offset of cut slot `k`. -/
def cutSlotOff (k : Nat) : Nat := 65536 + k % 2 * 2 ^ 28
/-- Offset of the page map. -/
def mapOff : Nat := 65536 + 2 ^ 29
/-- Offset of the image. -/
def imageOff (slots : Nat) : Nat := mapOff + mapBytes slots
/-- Offset of the journal, whose first half is the remote ring and whose second is the tap ring. -/
def journalOff (slots : Nat) : Nat := imageOff slots + 65536 * slots
/-- Bytes of a copy area. -/
def areaBytes (slots gib : Nat) : Nat := journalOff slots + gib * 2 ^ 30

/-- Returns to their bitmaps the buffers an uncommitted ALLOC has taken (R262). -/
def Dev.untake (d : Dev) (acts : List CommitAct) : Dev :=
  acts.foldl
    (fun d a =>
      match a with
      | .alloc h p k _ => d.onHost fun s => { s with bufs := s.bufs.filter fun b => ¬ (b.half = h ∧ b.pool = p ∧ b.idx = k) }
      | _ => d)
    d

/-- Whether an outstanding read belongs to a node's attempt. -/
def ReadFor.ofNode (r : ReadFor) (seq i : Nat) : Bool :=
  match r with
  | .probe s n _ _ _ _ => s == seq && n == i
  | .load _ s n _ _ _ _ _ => s == seq && n == i
  | .expert s n _ _ _ _ _ => s == seq && n == i
  | _ => false

/-- Gives up outstanding reads: one that has gone out keeps its tag until its answer has come, which is dropped (R189, R363); one
that still waits for a slot is never sent. -/
def OutRead.giveUp (lead : Half) (p : ReadFor → Bool) (r : OutRead) : Option OutRead :=
  if ¬ p r.for_ then some r
  else if r.slot.isNone then none
  else some { r with for_ := .gone (r.for_.half lead) (match r.for_ with | .expert _ _ _ _ _ _ _ => true | _ => false) }

/-- Forgets the reads, probes and fences of a node's attempt: their answers find no one. -/
def Fab.dropAttempt (f : Fab) (lead : Half) (seq i : Nat) : Fab :=
  { f with dests := f.dests.map fun e => (e.1,
      { e.2 with reads := e.2.reads.filterMap (OutRead.giveUp lead (·.ofNode seq i)),
                 fences := e.2.fences.filter fun g => ¬ (g.seq = seq ∧ g.node = i) }) }

/-- Reads that a half's EFU has outstanding at peers (R105). -/
def Fab.efuReads (f : Fab) (h : Half) : Nat :=
  sumBy f.dests fun p => p.2.reads.countP fun r => match r.for_ with
    | .expert _ _ _ _ _ _ k => k == h
    | .gone k efu => efu && k == h
    | _ => false

/-- Takes ports out of service, as a link that fails does: their slots die, and what was sent on them waits for another (R375). A
port that ENABLE, a revision or three retrains hold keeps its state (R350). -/
def Dev.losePorts (d : Dev) (lost : Nat → Bool) : Dev :=
  let gone := (d.fab.ports.filter fun e => lost e.1 ∧ ¬ [PortSt.disabled, .refusedRevision, .failed].contains e.2.st).map (·.1)
  let down (e : Nat × FPort) : Nat × FPort :=
    if gone.contains e.1 then (e.1, { FPort.cold with upAt := d.time, arrived := e.2.arrived }) else e
  let d := d.onFab fun f => { f with ports := f.ports.map down }
  gone.foldl (fun d p => d.killPort p) d

/-- A removed job's request has no one who hears of it. -/
def ReqFor.orphan (f : ReqFor) (job : Nat) : ReqFor :=
  match f with
  | .node j _ _ h => if j = job then .gone h else f
  | _ => f

/-- What the fabric keeps under a removed job's name: ordered sums (R362), refusals, and whose its requests were. -/
def Fab.dropJob (f : Fab) (job : Nat) : Fab :=
  { f with ords := f.ords.filter (fun o => o.2.job ≠ job), gets := f.gets.filter (fun g => g.job ≠ job),
           dests := f.dests.map fun e => (e.1,
             { e.2 with held := e.2.held.map (fun h => { h with for_ := h.for_.orphan job }),
                        waiting := e.2.waiting.map (fun r => (r.1, r.2.orphan job)),
                        refused := e.2.refused.filter fun r => r.1 ≠ job }) }

/-- An FLR of a client's function removes the client's region entries (R369), which clears VALID of the retained set-up
(R388). -/
def Dev.dropClientRegions (d : Dev) (c : Nat) : Dev :=
  let gone := d.fab.regions.filter fun e => e.client = c
  if gone.isEmpty then d
  else
    let d := { d with fab := { d.fab with
      regions := d.fab.regions.filter (fun e => e.client ≠ c),
      ords := d.fab.ords.filter fun o => ¬ gone.any fun e => e.job = o.2.job ∧ e.id = o.2.region } }
    d.setupChanged

/-- The bitmaps of an instance end with it (R414). -/
def Dev.dropBitmaps (d : Dev) (seq : Nat) : Dev := { d with ce := { d.ce with bitmaps := d.ce.bitmaps.filter fun b => b.inst ≠ seq } }

/-- The operation of a node leaves its group, unless it waits for the verdict on a withdrawal. An exchange stays known, so that its
owner answers a late REPAIR (R122). -/
def Dev.endOps (d : Dev) (seq i : Nat) : Dev :=
  { d with ce := { d.ce with ops := d.ce.ops.filter (fun o => ¬ (o.inst = seq ∧ o.node = i ∧ ¬ o.left)),
                             past := d.ce.past ++ d.ce.ops.filter (fun o => o.inst = seq ∧ o.node = i ∧ o.exch),
                             retries := d.ce.retries.filter fun r => ¬ d.ce.ops.any fun o => o.inst = seq ∧ o.node = i ∧ o.id = r.op } }

/-- An operation leaves its group. -/
def Dev.dropOp (d : Dev) (id : Nat) : Dev := { d with ce := { d.ce with ops := d.ce.ops.filter fun (o : CeOp) => o.id ≠ id } }

/-- A member whose collective is killed without a re-run withdraws: WITHDRAW to its parent, or, at member 0, the verdict
WITHDRAWN to its children (R421). Its operation stays until the verdict comes, which it hands on to its own children (DEDUCED: no one
else sends it to them). A member past step 3 has no operation left. -/
def Dev.withdraw (d : Dev) (seq i : Nat) : Dev :=
  let d := (d.ce.ops.filter fun o => o.inst = seq ∧ o.node = i ∧ ¬ o.exch ∧ ¬ o.left).foldl
    (fun d o =>
      match d.group o.group with
      | none => d
      | some g =>
        if g.me ≠ 0 then
          ({ d with ce := { d.ce with ops := d.ce.ops.map fun (p : CeOp) => if p.id = o.id then { p with left := true } else p } }).frameTo
            o.half o.group ((g.me - 1) / g.fan) (g.frame o.seq 0x22 0 [])
        else
          ((g.children 0).foldl (fun d m => d.frameTo o.half o.group m (g.frame o.seq 0x21 0 (toBytes 4 3 ++ toBytes 4 0))) d).dropOp o.id)
    d
  { d with ce := { d.ce with ops := d.ce.ops.filter fun o => ¬ (o.inst = seq ∧ o.node = i ∧ ¬ o.exch ∧ ¬ o.left) } }

/-- Piccolo's state of a facet that has never been tested. -/
def Pic.cold : Pic :=
  { retired := false, quar := false, slice := none, sliceAt := 0, next := 0, rotated := false, overdue := 0, errs := [],
    redo := none, idleAt := 0 }

/-- Piccolo's state of a facet. -/
def Dev.picOf (d : Dev) (f : Nat) : Pic := (aget d.pic f).getD .cold

/-- Replaces Piccolo's state of a facet. -/
def Dev.setPic (d : Dev) (f : Nat) (p : Pic) : Dev := { d with pic := aput d.pic f p }

/-- A facet falls idle (R535). -/
def Dev.fallIdle (d : Dev) (f : Nat) : Dev := d.setPic f { d.picOf f with idleAt := d.time }

/-- Adds to a node the facet-ns of the facets it still holds, and counts the clk lent ones ran (R235, R342). -/
def Dev.holdNs (d : Dev) (seq i : Nat) : Dev :=
  (d.fac.runs.filter fun r => r.2.seq = seq ∧ r.2.node = i).foldl
    (fun d r =>
      let ns := d.time - r.2.takenAt
      let d := d.fallIdle r.1
      let h := if r.1 < 160 then Half.west else Half.east
      let d := if r.2.lent then d.count h Reg.TGU_LANE_LENT_LO (ns * (d.top.sc.get h).clk / 1000) else d
      match aget d.tgu.insts seq with
      | none => d
      | some x =>
        match x.nodes[i]? with
        | none => d
        | some n => { d with tgu := { d.tgu with insts := aput d.tgu.insts seq { x with nodes := x.nodes.set i { n with heldNs := n.heldNs + ns } } } })
    d

/-- A killed FETCH_EXPERTS gives up its streams, its staging and the copies it has made (R118, R330); a killed consumer
leaves the streams that feed it. An exchange keeps what has arrived for the re-run (DESIGN CHOICE). -/
def Efu.dropAttempt (u : Efu) (seq i : Nat) : Efu :=
  let own (f : Fetch) : Fetch :=
    { f with st := .waiting, entries := [], staged := [], predicted := [], begun := [], streams := [], made := [], passed := 0 }
  let leave (s : Stream) : Stream :=
    let l := s.users.filter fun x => x.1 ≠ i
    if l.length = s.users.length then s else { s with users := l, ended := s.ended || l.isEmpty }
  { u with fetches := u.fetches.map fun f =>
      if f.seq ≠ seq then f
      else if f.node = i then (if f.st = .running then own f else f)
      else { f with streams := f.streams.map leave } }

/-- A FETCH_EXPERTS that is done keeps only what its consumers ask of it: an exchange's staging stands until the consumers of
each expert are done, so that one re-run alone is served again (R115; DESIGN CHOICE). -/
def Dev.endFetch (d : Dev) (seq i : Nat) : Dev :=
  let close (f : Fetch) : Fetch :=
    if f.seq = seq ∧ f.node = i then { f with st := .ended, staged := [], predicted := [], made := [], op := none } else f
  { d with efu := { d.efu with fetches := (d.efu.fetches.filter fun f => ¬ (f.seq = seq ∧ f.node = i ∧ f.st = .prefetch)).map close } }

/-- The records of an instance's fetches end with it. -/
def Dev.dropFetches (d : Dev) (seq : Nat) : Dev :=
  { d with efu := { d.efu with fetches := d.efu.fetches.filter fun f => f.seq ≠ seq },
           ce := { d.ce with past := d.ce.past.filter fun o => o.inst ≠ seq } }

/-- Whether a committed frame of a range still waits for copy-back (R327). -/
def Dev.copyPending (d : Dev) (base size : Nat) : Bool :=
  d.tgu.outFrames.any fun f => decide (f.page < base + size ∧ base < f.page + f.size)

/-- Key slots that no page records any longer are released (R246): the pages of a buffer that has been freed are FREE. -/
def Dev.dropGoneSlots (d : Dev) : Dev :=
  d.onHost fun s => { s with goneSlots := s.goneSlots.filter fun g => s.bufs.any fun b => b.keyEpoch = g.2 ∧ b.st ≠ .freeing }

/-- Returns to their bitmaps the freed T2 buffers whose copy-back is complete (R264). -/
def Dev.returnFreed (d : Dev) : Dev :=
  (d.onHost fun s =>
    { s with bufs := s.bufs.filter fun b => ¬ (b.st = .freeing ∧ b.pool ≥ 8 ∧ ¬ d.copyPending b.base b.size) }).dropGoneSlots

/-- Frees a buffer: its pages become FREE (R264). -/
def Dev.freeBuf (d : Dev) (base : Nat) : Dev :=
  let h := halfOf base
  (d.onHost fun s =>
    { s with bufs := s.bufs.map fun b => if b.base = base ∧ b.st = .held then { b with st := .freeing, holders := [] } else b }).count
      h Reg.BPM_FREE_OK_LO 1 |>.returnFreed

/-- FREE of a handle on behalf of a job (R263): 0, or the refusal. -/
def Dev.freeFor (d : Dev) (job handle : Nat) : Dev × Nat :=
  match d.host.bufs.find? fun b => b.st = .held ∧ b.base = handle with
  | none => (d, 0x14)
  | some b =>
    if ¬ b.holders.contains job then (d, 0x14)
    else if b.owner ≠ job then (d, 0x12)
    else if b.holders.length > 1 then (d, 0x13)
    else (d.freeBuf handle, 0)

/-- Frees the BUFFERs of notices without a report. -/
def Dev.freeNotices (d : Dev) (l : List Notice) : Dev := l.foldl (fun d n => if n.buffer = 0 then d else (d.freeFor n.job n.buffer).1) d

/-- Counts one event in the Lens of each of some halves. -/
def Dev.countIn (d : Dev) (hs : List Half) (off : Nat) : Dev := hs.foldl (fun d h => d.count h off 1) d

/-- Whether a generation of a job is live (R92). -/
def Dev.genLive (d : Dev) (job gen : Nat) : Bool := d.prism.batches.any fun b => b.live ∧ b.job = job ∧ b.gen = gen

/-- Commands of a job that have been dispatched and have not completed. -/
def Dev.openCommands (d : Dev) (job : Nat) : List (Nat × Nat) :=
  d.tgu.insts.flatMap fun p =>
    if p.2.job ≠ job then []
    else (p.2.nodes.zipIdx.filter fun m => m.1.attempt > 0 ∧ m.1.st ≠ .done).map fun m => (p.1, m.2)

/-- The last context of a live generation is freed: the value is held back, and notices held for it are dropped (R92, R130). -/
def Dev.retireGen (d : Dev) (job gen : Nat) : Dev :=
  if ¬ d.genLive job gen then d
  else
    let mine (n : Notice) : Bool := n.job == job && n.gen == gen
    let held := d.lens.pending.filter fun p => mine p.2
    let d := { d with prism := { d.prism with batches := d.prism.batches.filter fun b => ¬ (b.job = job ∧ b.gen = gen),
                                              back := d.prism.back ++ [⟨job, gen, d.openCommands job⟩] },
                      lens := { d.lens with pending := d.lens.pending.filter fun p => ¬ mine p.2 } }
    held.foldl (fun d p => (d.freeNotices [p.2]).countIn p.1 Reg.LENS_LATE_DROP_LO) d

/-- A COMBINE completes with a status other than OK: slots are released, BUFFERs freed, and the generation retired (R132). -/
def Dev.combEnds (d : Dev) (seq i : Nat) : Dev :=
  match d.lens.combs.find? fun c => c.seq = seq ∧ c.node = i with
  | none => d
  | some c =>
    let d := { d with lens := { d.lens with combs := d.lens.combs.filter fun x => ¬ (x.seq = seq ∧ x.node = i) } }
    (d.freeNotices c.got).retireGen c.job c.gen

/-- Retires the generations of an instance's route nodes (R88). -/
def Dev.retireInstGens (d : Dev) (seq : Nat) : Dev :=
  (d.prism.batches.filter fun b => b.live ∧ b.seq = seq).foldl (fun d b => d.retireGen b.job b.gen) d

/-- A killed route attempt frees its contexts; its generation never becomes live (R88, R92, R100). -/
def Prism.dropAttempt (p : Prism) (seq i : Nat) : Prism :=
  { p with routes := p.routes.filter (fun r => ¬ (r.seq = seq ∧ r.node = i)), batches := p.batches.filter fun b => ¬ (b.seq = seq ∧ b.node = i ∧ ¬ b.live) }

/-- A killed COMBINE attempt keeps its notices with the batch (R132). -/
def Lens.dropAttempt (l : Lens) (seq i : Nat) : Lens :=
  { l with combs := l.combs.map fun c => if c.seq = seq ∧ c.node = i then { c with running := false } else c }

/-- What a job's removal takes from the Prisms and the Lenses. -/
def Dev.dropRouting (d : Dev) (job : Nat) : Dev :=
  { d with prism := { routes := d.prism.routes.filter (fun r => r.job ≠ job), batches := d.prism.batches.filter (fun b => b.job ≠ job),
                      back := d.prism.back.filter (fun b => b.job ≠ job), areas := d.prism.areas.filter fun a => a.job ≠ job },
           lens := { d.lens with combs := d.lens.combs.filter (fun c => c.job ≠ job), pending := d.lens.pending.filter fun p => p.2.job ≠ job } }

/-- Counts the waits that the end of an attempt cuts short: of its facets (R191), and of a route node for admission (R98). -/
def Dev.cutWaits (d : Dev) (seq i : Nat) : Dev :=
  let clk (h : Half) (t : Nat) : Nat := (d.time - t) * (d.top.sc.get h).clk / 1000
  let d := (d.fac.runs.filter fun r => r.2.seq = seq ∧ r.2.node = i).foldl
    (fun d r =>
      let h := if r.1 < 160 then Half.west else Half.east
      let op := (r.2.code[r.2.pc.toNat]?).map fun x => x.toNat / 2 ^ 56
      match r.2.waiting with
      | some t => if op = some 0x60 ∨ op = some 0x61 ∨ op = some 0x63 then d.count h Reg.TGU_FACET_WAIT_CLK_LO (clk h t) else d
      | none => d)
    d
  (d.prism.routes.filter fun r => r.seq = seq ∧ r.node = i).foldl
    (fun d r => [Half.west, Half.east].foldl
      (fun d h => match r.stallAt.get h with | some t => d.count h Reg.PRISM_ADMIT_STALL_LO (clk h t) | none => d) d)
    d

/-- Discards the state that one attempt holds outside its node. -/
def Wk.discard (w : Wk) (seq i : Nat) : Wk :=
  match aget w.dev.tgu.insts seq with
  | none => w
  | some x =>
    match x.nodes[i]? with
    | none => w
    | some n => w.upd fun d =>
      let d := d.withdraw seq i
      let d := (d.holdNs seq i).cutWaits seq i
      let d := { d with tgu := { d.tgu with batchOut := d.tgu.batchOut.filter (· ≠ (seq, i)), batchSeen := d.tgu.batchSeen.filter (· ≠ (seq, i)) } }
      { d.untake n.acts with fab := d.fab.dropAttempt d.leadHalf seq i,
                             efu := d.efu.dropAttempt seq i, prism := d.prism.dropAttempt seq i, lens := d.lens.dropAttempt seq i,
                             fac := { d.fac with runs := d.fac.runs.filter fun r => ¬ (r.2.seq = seq ∧ r.2.node = i) } }

/-- Bytes of prefetch staging that a fetch holds in a half. -/
def Fetch.stagedIn (f : Fetch) (h : Half) : Nat := sumBy (f.staged.filter fun s => s.half = h) fun s => 32 * s.entry.secs

/-- Bytes of exchange staging that a fetch holds. -/
def Fetch.exchBytes (f : Fetch) : Nat := sumBy f.exch fun x => sumBy x.tiles fun t => t.2.length

/-- Bytes of managed T1 that staging and residency hold for a client (R250). -/
def Dev.stagingUsed (d : Dev) (c : Nat) : Nat :=
  sumBy (d.efu.fetches.filter fun f => f.client = c) (fun f =>
      f.stagedIn .west + f.stagedIn .east + f.exchBytes + sumBy f.made fun m => m.2.bytes)
    + sumBy ((d.efu.residents.w ++ d.efu.residents.e).filter fun r => r.client = c) (·.bytes)

/-- What a job's removal takes from the CEs: its groups and what still waits on them (R397). -/
def Ce.dropJob (c : Ce) (job : Nat) : Ce :=
  let gone (k : Nat) : Bool := match aget c.groups k with | some g => g.job == job | none => false
  { c with groups := c.groups.filter (fun g => g.2.job ≠ job), ops := c.ops.filter (fun o => ¬ gone o.group),
           held := c.held.filter (fun h => ¬ gone h.1), retries := c.retries.filter fun r => ¬ gone r.group }

/-- What a job's removal takes from the EFUs: its copies and its predictor slots. -/
def Efu.dropJob (u : Efu) (job : Nat) : Efu :=
  let keep (r : Resident) : Bool := r.job != job
  let keepP (p : Nat × Pred) : Bool := p.2.job != job
  { u with residents := ⟨u.residents.w.filter keep, u.residents.e.filter keep⟩, preds := ⟨u.preds.w.filter keepP, u.preds.e.filter keepP⟩ }

/-- Drops the state that engines keep under a removed job's name. Its groups leave the group tables, which clears VALID (R388). -/
def Dev.dropJobState (d : Dev) (job : Nat) : Dev :=
  let d := d.dropRouting job
  let d := if d.ce.groups.any fun g => g.2.job = job then d.setupChanged else d
  { d with fab := d.fab.dropJob job, ce := d.ce.dropJob job, efu := d.efu.dropJob job,
           fac := { d.fac with retained := d.fac.retained.filter fun r => r.2.job ≠ job },
           tgu := { d.tgu with windows := d.tgu.windows.filter (fun x => x.1.1 ≠ job), frozen := d.tgu.frozen.filter fun k => k.1 ≠ job } }

/-- Evicts every retained entry of a facet (R148). -/
def Dev.evictRetained (d : Dev) (f : Nat) : Dev :=
  { d with fac := { d.fac with retained := d.fac.retained.filter fun r => r.1 ≠ f } }

/-- State that is lost with a half at a takeover (R463). -/
def Dev.loseHalf (d : Dev) (h : Half) : Dev :=
  let gens := d.prism.batches.filter fun b => b.live ∧ b.ctxs.any fun c => c.half = h
  let d := (gens.foldl (fun d b => d.retireGen b.job b.gen) d).losePorts fun p => p / 32 = h.code
  { d with fab := { d.fab with ords := d.fab.ords.filter fun o => o.1 ≠ h },
           fac := { d.fac with retained := d.fac.retained.filter fun r => facetHalf r.1 ≠ h },
           efu := { d.efu with residents := d.efu.residents.set h [], preds := d.efu.preds.set h [],
                               fetches := d.efu.fetches.filter fun f => f.st ≠ .prefetch },
           top := { d.top with stackUp := if h = .west then d.top.stackUp / 256 * 256 else d.top.stackUp % 256 } }

/-- The engines of a fenced half discard their attempts, and its fabric ports go down (R461). -/
def Dev.fenceEngines (d : Dev) (h : Half) : Dev := d.losePorts fun p => p / 32 = h.code

/-- Whether a job's remote access is enabled (R387). -/
def Dev.remoteOf (d : Dev) (job : Nat) : Bool := match aget d.host.jobs job with | some j => j.remote | none => false


/-- A CONTAINED error detected on a facet: ERR_LIMIT of them within 1 s quarantine it (R536). -/
def Dev.facetErr (d : Dev) (f : Nat) : Dev :=
  let p := d.picOf f
  let es := (p.errs.filter fun t => d.time < t + 1000000000) ++ [d.time]
  let limit := bits (d.rn (facetHalf f) Reg.DBG_SELFTEST_CFG) 20 4
  d.setPic f { p with errs := es, quar := p.quar || (!p.retired && decide (limit ≤ es.length)) }

/-- An uncorrectable error on a facet evicts the retained entry that its run replays, or, on a facet that runs nothing, where only
the retained area can have it, every entry (R148, R192; which entry a report means is DESIGN CHOICE). -/
def Dev.evictBad (d : Dev) (f : Nat) : Dev :=
  match aget d.fac.runs f with
  | none => d.evictRetained f
  | some r =>
    match r.expert with
    | some (base, e, crc) =>
      if ¬ r.replay then d
      else { d with fac := { d.fac with retained := d.fac.retained.filter fun x =>
              ¬ (x.1 = f ∧ x.2.job = r.job ∧ x.2.table = base ∧ x.2.expert = e ∧ x.2.crc = crc) } }
    | none => d

/-- A CONTAINED report reaches the Health Monitor (input 2 of R465) and Piccolo. -/
def Dev.noteContained (d : Dev) (h : Half) (status : Nat) (facet : Option Nat) : Dev :=
  let x := d.hm.get h
  let d := if status = stParity ∨ status = stTileCrc then { d with hm := d.hm.set h { x with parity := x.parity + 1 } } else d
  match facet with
  | some f => (if status = stParity then d.evictBad f else d).facetErr f
  | none => d

/-- Counts a killed attempt, and the facet-ns it held when it is a KERNEL or MATMUL (R342, R345). -/
def Dev.countKill (d : Dev) (seq i : Nat) : Dev :=
  match aget d.tgu.insts seq with
  | none => d
  | some x =>
    match x.nodes[i]? with
    | none => d
    | some n =>
      let d := d.count .west Reg.TGU_KILLS_LO 1
      if n.opcode / 256 = 1 then d.count (d.fnHome x.fn) (winOff x.fn 0x720) n.heldNs
      else d

end Sys2Proof.Machine
end

