-- ==== Sys2Proof/Machine/Sched.lean ====
section
/-! DEFINITION. Nodes, records, kills and the job-fatal step: the parts of chapters 10 and 14 that every opcode shares. -/

namespace Sys2Proof.Machine

open Sys2Proof

/-! ### Status classes (R303) -/

/-- Refusals of the BPM (R261). -/
def isRefusal (st : Nat) : Bool := [0x10, 0x11, 0x12, 0x13, 0x14, 0x15, 0x16, 0x17, 0x19, 0x1B].contains st

/-- Statuses whose class is JOB_FATAL when they end a command. -/
def isJobFatal (st : Nat) : Bool :=
  [0x05, 0x06, 0x18, 0x1A, 0x1C, 0x1E, 0x1F, 0x20, 0x21, 0x22, 0x24, 0x27, 0x28, 0x30, 0x31, 0x32, 0x33, 0x34, 0x35,
   0x36, 0x37, 0x38, 0x39, 0x3A, 0x3B, 0x3C, 0x3D, 0x41, 0x42, 0x43, 0x45, 0x52, 0x53, 0x60].contains st || isRefusal st

/-! ### Records (R297, R298) -/

/-- The 32 bytes of a Completion Record with PHASE 0. -/
def recBytes (tag start dur id tdc reruns status : Nat) (graph : Bool) (number : Nat) : List Byte :=
  toBytes 8 tag ++ toBytes 8 start ++ toBytes 4 (min dur 0xFFFFFFFF) ++ toBytes 4 id
    ++ toBytes 4 (min tdc 0xFFFF * 2 ^ 16 + min reruns 15 * 2 ^ 12 + status % 256)
    ++ toBytes 4 (b2n graph * 2 ^ 30 + number % 2 ^ 24)

/-- Hands a record to the write-back unit; a broken ring counts it as written (R306), and after a stop no command that is
left gets a record (R443, R448). -/
def Dev.hand (d : Dev) (fn r : Nat) (h : HeldRec) : Dev :=
  let x := d.ring fn r
  if x.broken ∨ d.top.stopped then d else d.setRing fn r { x with held := x.held ++ [h] }

/-- Counts a graph record that has been written, for the client of its ring (R343). -/
def Dev.countGraphRec (d : Dev) (fn : Nat) : Dev :=
  let h := d.fnHome fn
  let o := winOff fn 0x7F0
  d.setReg h o (w32 (d.rn h o + 1))

/-- Hands a graph record over. -/
def Dev.handGraph (d : Dev) (fn r : Nat) (bytes : List Byte) (irq : Bool) : Dev :=
  d.hand fn r { bytes := bytes, signal := irq, at_ := none }

/-! ### Access to instances and nodes -/

/-- An instance in flight. -/
def Dev.inst (d : Dev) (seq : Nat) : Option Inst := aget d.tgu.insts seq

/-- Replaces an instance. -/
def Dev.setInst (d : Dev) (seq : Nat) (x : Inst) : Dev := d.onTgu fun t => { t with insts := aput t.insts seq x }

/-- A node of an instance in flight. -/
def Dev.node (d : Dev) (seq i : Nat) : Option Node :=
  match d.inst seq with
  | none => none
  | some x => x.nodes[i]?

/-- Changes a node. -/
def Dev.onNode (d : Dev) (seq i : Nat) (f : Node → Node) : Dev :=
  match d.inst seq with
  | none => d
  | some x =>
    match x.nodes[i]? with
    | none => d
    | some n => d.setInst seq { x with nodes := x.nodes.set i (f n) }

/-- The clients' accounting counter at offset `x` (R346). -/
def Dev.acct (d : Dev) (fn x n : Nat) : Dev := d.count (d.fnHome fn) (winOff fn x) n

/-- A node becomes READY (R311). -/
def Dev.makeReady (d : Dev) (seq i : Nat) : Dev := d.onNode seq i fun n => { n with st := .ready, readyAt := d.time }

/-- An event of class JOB_FATAL or CONTAINED against a node. -/
def nodeEvent (x : Inst) (n : Node) (cls status d0 d1 d2 island : Nat) : Event :=
  { kind := 1, cls := cls, status := status, job := x.job, tag := x.tag, node := n.id, island := island,
    d0 := eventDetail status d0, d1 := d1, d2 := d2 }

/-- The slot of an expert-kind AFFINITY and its expert (R108). -/
def Node.expertOf (n : Node) : Option (Nat × Nat) :=
  if bits n.affinity 60 4 = 1 then some (bits n.affinity 40 8, bits n.affinity 0 16) else none

/-- The stream consumers among a fetch's successors, as (position, node, expert) (R109). -/
def Dev.consumers (d : Dev) (seq i slot : Nat) : List (Nat × Nat × Nat) :=
  match d.node seq i with
  | none => []
  | some n =>
    n.succ.zipIdx.filterMap fun p =>
      match d.node seq p.1 with
      | none => none
      | some m =>
        match m.expertOf with
        | none => none
        | some x => if x.1 = slot then some (p.2, p.1, x.2) else none

/-- Exchange staging whose experts no consumer waits for any longer is freed, once its fetch is done. -/
def Dev.freeExch (d : Dev) (seq : Nat) : Dev :=
  let wanted (f : Fetch) (x : ExchIn) : Bool := (d.consumers seq f.node f.slot).any fun c =>
    c.2.2 == x.expert && (match d.node seq c.2.1 with | some m => m.st != .done | none => false)
  { d with efu := { d.efu with fetches := d.efu.fetches.map fun f =>
      if f.seq = seq ∧ f.st = .ended then { f with exch := f.exch.filter (wanted f) } else f } }

/-! ### Completing nodes and instances -/

/-- Fixes the status of a node and hands its record over (step 6 of R325). No successor is touched. -/
def Dev.closeNode (d : Dev) (seq i status : Nat) : Dev :=
  match d.inst seq with
  | none => d
  | some x =>
    match x.nodes[i]? with
    | none => d
    | some n =>
      if n.st = .done then d
      else
        let dur := if n.start = 0 ∨ status = stNull then 0 else d.time - n.start
        let reruns := if status = stNull then 0 else n.reruns
        let b := recBytes x.tag n.start dur n.id n.tdc reruns status false x.number
        let bad := status != stOk && status != stNull
        let d := (d.endOps seq i).endFetch seq i
        let d := if n.passed then d.count .west Reg.TGU_TRAIN_OUT_OF_ORDER_LO 1 else d
        let d := if status = stOk then d else d.combEnds seq i
        let n' := { n with st := .done, status := status, staged := [], held := [], log := [], acts := [],
                           facets := [], logBy := [], eng := .idle, readyOrd := none, stalled := false }
        let x' := { x with nodes := x.nodes.set i n', tdc := x.tdc + n.tdc, reruns := x.reruns + reruns,
                           firstBad := if x.firstBad.isNone && bad then some (n.id, status) else x.firstBad }
        let rec_ : HeldRec :=
          if x.report then
            let at_ := x.recBase + 32 * (x.nodes.length * (x.number % x.recDepth) + i)
            { bytes := b.take 31 ++ [BitVec.ofNat 8 0x80 ||| (b.getD 31 0)], signal := false, at_ := some at_ }
          else { bytes := b, signal := n.notify, at_ := none }
        ((d.setInst seq x').freeExch seq).hand x.fn x.ring rec_

/-- The little-endian field of a node's bytes at an offset. -/
def fld (nb : List Byte) (off n : Nat) : Nat := ofBytes ((nb.drop off).take n)

/-- Whether bytes are all zero. -/
def zeroFrom (nb : List Byte) (off : Nat) : Bool := (nb.drop off).all (· == 0)

/-- Reads bytes at a LOCAL or HOST address for a job's command: the bytes, or the status and address of the refusal. -/
def Wk.rdForm (w : Wk) (job fn a n : Nat) : Except (Nat × Nat) (List Byte) :=
  if addrForm a = 2 then
    if w.dev.fnDelivers fn then .ok (w.rdH (busAddr a) n) else .error (stDenied, a)
  else
    let st := w.dev.checkRange job a n false
    if st ≠ 0 then .error (st, a)
    else match w.dev.poisonIn a n with
      | some p => .error (stUncorrectable, p)
      | none => .ok (w.rdN a n)

/-- Reads bytes at an address that only the LOCAL form may give (R237). -/
def Wk.rdLocal (w : Wk) (job a n : Nat) : Except (Nat × Nat) (List Byte) :=
  let st := w.dev.checkRange job a n false
  if st ≠ 0 then .error (st, a)
  else match w.dev.poisonIn a n with
    | some p => .error (stUncorrectable, p)
    | none => .ok (w.rdN a n)

/-- A COMBINE that ends with a status other than OK before the Lens holds it: the generation of the area it was to read is
retired (R132). A node still WAITING has no area yet. -/
def Wk.combRetire (w : Wk) (seq i : Nat) : Wk :=
  match w.dev.inst seq, w.dev.node seq i with
  | some x, some n =>
    if n.opcode ≠ 0x203 ∨ n.st = .waiting ∨ n.st = .done then w
    else
      match w.rdForm x.job x.fn (x.base + 128 * i) 128 with
      | .error _ => w
      | .ok nb =>
        match w.rdLocal x.job (fld nb 0x20 8) 64 with
        | .error _ => w
        | .ok h => if fld h 2 2 = 1 ∧ bits (fld h 0x20 4) 0 20 = x.job then w.upd (·.retireGen x.job (fld h 0 2)) else w
  | _, _ => w

/-- Fixes the status of a node as `Dev.closeNode` does, with what a COMBINE's end leaves in the Prisms. -/
def Wk.closeNode (w : Wk) (seq i status : Nat) : Wk :=
  (if status = stOk then w else w.combRetire seq i).upd (·.closeNode seq i status)

/-- Hands over the graph record of an instance whose nodes are all DONE, and takes the instance out of flight (R314). -/
def Dev.closeInst (d : Dev) (seq : Nat) : Dev :=
  match d.inst seq with
  | none => d
  | some x =>
    if x.nodes.all (·.st = .done) then
      let d := if x.nodes.any fun n => n.status ≠ stOk ∧ n.status ≠ stNull ∧ ¬ isRefusal n.status then d.retireInstGens seq else d
      let (id, st) := x.firstBad.getD (0xFFFFFFFF, stOk)
      let b := recBytes x.tag x.admitted (d.time - x.admitted) id x.tdc x.reruns st true x.number
      (((d.handGraph x.fn x.ring b x.irq).onTgu fun t =>
        { t with insts := adel t.insts seq, graces := t.graces.filter fun g => g.inst ≠ seq }).dropBitmaps seq).dropFetches seq
    else d

/-- The rings of a job in one of the states that satisfy a test. -/
def Dev.ringsOf (d : Dev) (job : Nat) (p : RingSt → Bool) : List (Nat × Nat) :=
  allFns.flatMap fun fn => (List.range 16).filterMap fun r =>
    if p (d.ring fn r).st ∧ d.ringJob fn r = job then some (fn, r) else none

/-- The rings bound to a job that can halt: those that are enabled or draining (R286, R447). -/
def Dev.jobRings (d : Dev) (job : Nat) : List (Nat × Nat) := d.ringsOf job fun st => st == .enabled || st == .draining

/-- The rings bound to a job that are on, those halted before included (R282). -/
def Dev.boundRings (d : Dev) (job : Nat) : List (Nat × Nat) :=
  d.ringsOf job fun st => st == .enabled || st == .draining || st == .halted

/-- Halts one ring with a status and reports it (R286); ABORTED, the status of FORCE_REMOVE, belongs to no class (R303). -/
def Wk.haltRing (w : Wk) (fn r job status : Nat) : Wk :=
  let w := w.upd fun d => d.setRing fn r { d.ring fn r with st := .halted, halt := status }
  w.postJob (w.dev.fnHome fn)
    { kind := 2, cls := if status = stAborted then 0 else 3, status := status, job := job, d0 := fn * 256 + r, island := portIsland (w.dev.fnHome fn) }

/-- Kills every node of an instance that has not passed step 3 and completes it with a status, in ascending index. -/
def Wk.killAll (w : Wk) (seq status : Nat) : Wk :=
  match w.dev.inst seq with
  | none => w
  | some x =>
    (List.range x.nodes.length).foldl
      (fun w i =>
        match w.dev.node seq i with
        | none => w
        | some n =>
          if n.st = .done then w
          else
            let w := if n.st = .running ∨ n.st = .committing then (w.discard seq i).upd (·.countKill seq i) else w
            w.closeNode seq i status)
      w

/-- Disarms frame-locked graphs that satisfy a test; armings that wait for space complete ABORTED (R292; the same under R447, where
each still needs its one record, is DEDUCED). -/
def Wk.disarm (w : Wk) (p : FrameGraph → Bool) : Wk × Bool :=
  w.dev.tgu.frames.foldl
    (fun wb fr =>
      let g := fr.2
      if p g ∧ (g.armed ∨ ¬ g.waiting.isEmpty) then
        let tag := ofBytes ((g.gsd.drop 16).take 8)
        let irq := bit (ofBytes ((g.gsd.drop 0x28).take 4)) 7
        let w := g.waiting.foldl
          (fun w a => w.upd fun d => d.handGraph g.fn g.ring (recBytes tag 0 0 0xFFFFFFFF 0 0 stAborted true a.1) irq)
          wb.1
        (w.upd fun d => d.onTgu fun t => { t with frames := aput t.frames fr.1 { g with armed := false, waiting := [] } },
          wb.2 || !g.waiting.isEmpty)
      else wb)
    (w, false)

/-- The job-fatal step of R447: rings halt, uncommitted nodes complete ABORTED, frame-locked graphs are disarmed. -/
def Wk.jobFatal (w : Wk) (job status : Nat) : Wk :=
  let w := (w.dev.jobRings job).foldl (fun w fr => w.haltRing fr.1 fr.2 job status) w
  let seqs := (w.dev.tgu.insts.filter fun p => p.2.job = job).map (·.1)
  let w := seqs.foldl (fun w s => (w.killAll s stAborted).upd (·.closeInst s)) w
  (w.disarm fun g => g.job = job).1

/-- A HOST write of a command is found to have failed at or after its step 3 (R580): the ERROR event and the step of R447. -/
def Wk.lateHostError (w : Wk) (h : Half) (job tag nodeId attempt addr : Nat) : Wk :=
  (w.postJob h { kind := 1, cls := 3, status := stDenied, job := job, tag := tag, node := nodeId, island := portIsland h,
                 d0 := addr, d1 := attempt }).jobFatal job stDenied

/-- Whether a counter is one of R210. -/
def isSparseCount (off : Nat) : Bool :=
  [Reg.TGU_SPARSE_BAD_GROUP_LO, Reg.TGU_SPARSE_DROP_INDEX_LO, Reg.TGU_SPARSE_MMA_LO, Reg.TGU_SPARSE_SKIP_KBLOCK_LO].contains off

/-- Applies the counts of R210 of a node that completes otherwise than by its commit: those of its last attempt. -/
def Dev.sparseCounts (d : Dev) (seq i : Nat) : Dev :=
  match d.node seq i with
  | none => d
  | some n =>
    n.acts.foldl
      (fun d a => match a with | .count h off k => if isSparseCount off then d.count h off k else d | _ => d) d

/-- Completes a node with a status of class JOB_FATAL: its attempt leaves no effect, its record and its event (R444). -/
def Wk.failNode (w : Wk) (seq i status d0 : Nat) : Wk :=
  match w.dev.inst seq with
  | none => w
  | some x =>
    match x.nodes[i]? with
    | none => w
    | some n =>
      if n.st = .done then w
      else
        let h := w.dev.leadHalf
        let w := (w.upd (·.sparseCounts seq i)).discard seq i
        let w := (w.closeNode seq i status).upd (·.count .west Reg.TOP_ERR_JOB_FATAL_LO 1)
        w.postJob h (nodeEvent x n 3 status d0 n.attempt 0 (tguIsland h))

/-- Ends a node with a status of class JOB_FATAL, and takes the job's step (R444, R447). -/
def Wk.fail (w : Wk) (seq i status d0 : Nat) : Wk :=
  match w.dev.inst seq with
  | none => w
  | some x =>
    match x.nodes[i]? with
    | none => w
    | some n => if n.st = .done then w else ((w.failNode seq i status d0).jobFatal x.job status).upd (·.closeInst seq)

/-- An instance with nothing left that can run fails: every node not DONE completes DESCRIPTOR_FORMAT (R313). -/
def Wk.checkStuck (w : Wk) (seq : Nat) : Wk :=
  match w.dev.inst seq with
  | none => w
  | some x =>
    let active := x.nodes.any fun n => n.st = .ready ∨ n.st = .running ∨ n.st = .committing
    let failed := x.nodes.any fun n => n.st = .done ∧ ¬ (n.status = stOk ∨ n.status = stNull ∨ isRefusal n.status)
    if active ∨ failed ∨ x.aborting ∨ x.nodes.all (·.st = .done) then w
    else
      let h := w.dev.leadHalf
      let w := (List.range x.nodes.length).foldl
        (fun w i =>
          match w.dev.node seq i with
          | none => w
          | some n =>
            if n.st = .done then w
            else
              let w := (w.closeNode seq i stFormat).upd (·.count .west Reg.TOP_ERR_JOB_FATAL_LO 1)
              w.postJob h (nodeEvent x n 3 stFormat 0 n.attempt 0 (tguIsland h)))
        w
      (w.jobFatal x.job stFormat).upd (·.closeInst seq)

/-- Adds one to the released count of a successor (R312, R313). -/
def Wk.releaseOne (w : Wk) (seq s : Nat) : Wk :=
  match w.dev.node seq s with
  | none => w
  | some n =>
    let w := w.upd fun d => d.onNode seq s fun n => { n with released := n.released + 1 }
    if n.released + 1 > n.pred then
      if n.st = .done then
        match w.dev.inst seq with
        | none => w
        | some x =>
          let h := w.dev.leadHalf
          (w.postJob h (nodeEvent x n 3 stFormat 0 n.attempt 0 (tguIsland h))).jobFatal x.job stFormat
      else w.fail seq s stFormat 0
    else if n.released + 1 = n.pred ∧ n.st = .waiting then w.upd (·.makeReady seq s)
    else w

/-- Releases successors by index. -/
def Wk.releaseList (w : Wk) (seq : Nat) (ss : List Nat) : Wk := ss.foldl (fun w s => w.releaseOne seq s) w

/-- Ends a node with OK, NULL_COMPLETED or a refusal under RECORD: its record, then its successors (R312, R325). -/
def Wk.complete (w : Wk) (seq i status : Nat) : Wk :=
  match w.dev.node seq i with
  | none => w
  | some n =>
    if n.st = .done then w
    else
      let w := w.closeNode seq i status
      let w := if status = stNull then w.upd (·.count .west Reg.TGU_NULL_COMPLETED_LO 1) else w
      let w := w.releaseList seq ((n.succ.zipIdx.filter fun p => ¬ n.given.contains p.2).map (·.1))
      (w.checkStuck seq).upd (·.closeInst seq)

/-- Ends a node with a status of no class that releases nothing (GROUP_REFORMED, DEADLINE_MISSED, ABORTED). -/
def Wk.endPlain (w : Wk) (seq i status : Nat) : Wk :=
  ((w.discard seq i).closeNode seq i status).upd (·.closeInst seq)

/-! ### Kill and re-run (R330 to R332, R446) -/

/-- Kills an attempt that is to run again: the node returns to READY with its shape. -/
def Wk.killOne (w : Wk) (seq i : Nat) (counted : Bool) : Wk :=
  match w.dev.node seq i with
  | none => w
  | some n =>
    if n.st ≠ .running ∧ n.st ≠ .committing then w
    else
      let w := (w.discard seq i).upd (·.countKill seq i)
      w.upd fun d => d.onNode seq i fun n =>
        { n with st := .ready, readyAt := d.time, reruns := n.reruns + 1, contained := n.contained + b2n counted,
                 taint := none, staged := [], held := [], log := [], acts := [], facets := [], logBy := [], eng := .idle,
                 readyOrd := none, acked := false, stalled := false, tdc := b2n n.passed, nextIndex := 0, ended := 0,
                 waitsOn := [], probes := [], tiles := false, heldNs := 0 }

/-- Kills an attempt that is to run again; a killed FETCH_EXPERTS takes its uncommitted consumers with it (R115). -/
def Wk.killRerun (w : Wk) (seq i : Nat) (counted : Bool) : Wk :=
  match w.dev.node seq i with
  | none => w
  | some n =>
    let live : Bool := decide (n.st = .running) || decide (n.st = .committing)
    let slot := (w.dev.efu.fetches.find? fun f => f.seq = seq ∧ f.node = i).map (·.slot)
    let w := w.killOne seq i counted
    if n.opcode ≠ 0x202 ∨ ¬ live then w
    else
      match slot with
      | none => w
      | some k => (((w.dev.consumers seq i k).map (·.2.1)).eraseDups).foldl (fun w s => w.killOne seq s false) w

/-- A PARITY failure of a FETCH_EXPERTS discards the keyed copies that its attempt read, so that the re-run reads the origin
(R244, R452): the resident copies that feed its streams and its exchange staging. A report does not say which copy failed,
and all of them go (DESIGN CHOICE). -/
def Dev.dropKeyed (d : Dev) (seq i : Nat) : Dev :=
  match d.efu.fetches.find? fun f => f.seq = seq ∧ f.node = i with
  | none => d
  | some f =>
    let fed := (f.streams.filter fun s => s.source = 2 ∧ ¬ s.ended).map fun s => (s.expert, s.entry.crc)
    let keep (r : Resident) : Bool := !(r.job == f.job && r.base == f.base && fed.contains (r.expert, r.crc))
    let wipe (x : ExchIn) : ExchIn := { x with parts := [], tiles := [], parked := [] }
    { d with efu := { d.efu with
        residents := ⟨d.efu.residents.w.filter keep, d.efu.residents.e.filter keep⟩,
        fetches := d.efu.fetches.map fun g => if g.seq = seq ∧ g.node = i then { g with exch := g.exch.map wipe } else g } }

/-- Whether a node is a collective, or an exchange's member, that its group's operation repairs by itself (R416, R427). -/
def Dev.joined (d : Dev) (seq i : Nat) (n : Node) : Bool := n.opcode == 0x500 && d.ce.ops.any fun o => o.inst == seq && o.node == i && !o.left

/-- A CONTAINED failure: a re-run, or RETRY_EXHAUSTED past TGU_RERUN_LIMIT. `facet` is the facet it was detected on. A
collective that has entered its operation repeats the step itself and is never re-run (R416, R427). -/
def Wk.contained (w : Wk) (seq i status d0 : Nat) (facet : Option Nat) (h : Half) (island : Nat) : Wk :=
  match w.dev.inst seq with
  | none => w
  | some x =>
    match x.nodes[i]? with
    | none => w
    | some n =>
      if (n.st ≠ .running ∧ n.st ≠ .committing) ∨ w.dev.joined seq i n then w
      else
        let limit := w.dev.rn .west Reg.TGU_RERUN_LIMIT
        let w := w.upd fun d => (d.count .west Reg.TOP_ERR_CONTAINED_LO 1).noteContained h status facet
        let w := if status = stParity ∧ n.opcode = 0x202 then w.upd (·.dropKeyed seq i) else w
        if n.contained ≥ limit then
          let w := (((w.discard seq i).upd (·.countKill seq i)).closeNode seq i stRetry).upd
            (·.count .west Reg.TOP_ERR_JOB_FATAL_LO 1)
          let w := w.postJob h (nodeEvent x n 3 stRetry d0 n.attempt status island)
          (w.jobFatal x.job stRetry).upd (·.closeInst seq)
        else
          let w := w.postJob h (nodeEvent x n 2 status d0 n.attempt 0 island)
          let w := w.upd (·.count .west Reg.TGU_RERUNS_CONTAINED_LO 1)
          let w := w.killRerun seq i true
          w.upd fun d => d.onNode seq i fun n => { n with avoid := facet.toList }

/-- A CONTAINED error in the state or the dispatch of a node that has no attempt under way (R347): it is counted and reported, and
there is nothing to kill. It does not count toward TGU_RERUN_LIMIT, since no re-run follows (DESIGN CHOICE). -/
def Wk.containedIdle (w : Wk) (seq i status d0 : Nat) (facet : Option Nat) (h : Half) (island : Nat) : Wk :=
  match w.dev.inst seq with
  | none => w
  | some x =>
    match x.nodes[i]? with
    | none => w
    | some n =>
      if n.st ≠ .waiting ∧ n.st ≠ .ready then w
      else
        (w.upd fun d => (d.count .west Reg.TOP_ERR_CONTAINED_LO 1).noteContained h status facet).postJob h
          (nodeEvent x n 2 status d0 n.attempt 0 island)

/-- Fails or re-runs a node by the class of a status met by its attempt. -/
def Wk.raiseStatus (w : Wk) (seq i status d0 : Nat) (h : Half) : Wk :=
  if status = stParity ∨ status = stTileCrc then w.contained seq i status d0 none h (tguIsland h)
  else
    let w := if (status = stDenied ∨ status = stReadOnly) ∧ isLocal d0 then w.upd (·.count (halfOf d0) Reg.MEM_ACCESS_DENIED_LO 1)
             else if status = stUncorrectable ∧ w.dev.poisoned d0 1 then
               w.upd (·.count (halfOf d0) Reg.MEM_POISON_READ_LO 1)
             else w
    w.fail seq i status d0

/-! ### Aborts (R292, R336) -/

/-- Aborts one instance: nodes past step 3 stand, every other node completes ABORTED. Answers whether any was killed. -/
def Wk.abortInst (w : Wk) (seq : Nat) : Wk × Bool :=
  match w.dev.inst seq with
  | none => (w, false)
  | some x =>
    let any := x.nodes.any fun n => n.st ≠ .done
    let w := w.upd fun d => d.setInst seq { x with aborting := true }
    (((w.killAll seq stAborted).upd (·.closeInst seq)), any)

/-- The descriptor indices a ring exposes and has not admitted. -/
def Ring.exposed (x : Ring) : List Nat :=
  (List.range ((x.sqTail + 2 ^ 32 - x.sqHead) % 2 ^ 32)).map fun k => (x.sqHead + k) % 2 ^ 32

/-- Bus address of a descriptor slot. -/
def Dev.gsdAddr (d : Dev) (fn r n : Nat) : Nat :=
  let lg := bits (d.ringReg fn r 0x18) 16 4 + 6
  d.ringReg64 fn r 0 + 64 * (n % 2 ^ lg)

/-- Aborts exposed, unadmitted descriptors of a ring that satisfy a test of their bytes: each completes with only its
graph record. -/
def Wk.abortQueued (w : Wk) (fn r : Nat) (p : List Byte → Bool) : Wk × Bool :=
  let x := w.dev.ring fn r
  (x.exposed.filter fun n => ¬ x.skip.contains n).foldl
    (fun wb n =>
      let g := wb.1.rdH (wb.1.dev.gsdAddr fn r n) 64
      if p g then
        let b := recBytes (ofBytes ((g.drop 16).take 8)) 0 0 0xFFFFFFFF 0 0 stAborted true 0
        let irq := bit (ofBytes ((g.drop 0x28).take 4)) 7
        (wb.1.upd fun d =>
          let d := d.setRing fn r { d.ring fn r with skip := (d.ring fn r).skip ++ [n] }
          d.handGraph fn r b irq, true)
      else wb)
    (w, false)

/-! ### Reading nodes and staging writes -/

/-- An attempt's own local writes, those that wait for a frame included. -/
def Node.ownRuns (n : Node) : List Run := n.staged ++ n.held

/-- Bytes of LOCAL memory as a node's attempt sees them: its own staged writes over the committed bytes (R187, R326). -/
def Wk.rdStaged (w : Wk) (n : Node) (a k : Nat) : List Byte :=
  (List.range k).map fun i => (runsGet n.ownRuns.reverse (a + i)).getD (w.rd (a + i))

/-- Whether every byte of a range is covered by an attempt's own staged writes. -/
def stagedCovers (n : Node) (a k : Nat) : Bool := (List.range k).all fun i => (runsGet n.ownRuns (a + i)).isSome

/-- Address of the first poisoned block of a range that an attempt's own writes do not cover. -/
def Dev.poisonFor (d : Dev) (n : Node) (a k : Nat) : Option Nat := if stagedCovers n a k then none else d.poisonIn a k

/-- Reads LOCAL bytes for an attempt, with the checks of R242 and R244. -/
def Wk.rdNode (w : Wk) (job : Nat) (n : Node) (a k : Nat) : Except (Nat × Nat) (List Byte) :=
  let st := w.dev.checkRange job a k false
  if st ≠ 0 then .error (st, a)
  else match w.dev.poisonFor n a k with
    | some p => .error (stUncorrectable, p)
    | none => .ok (w.rdStaged n a k)

/-- Pages that runs touch, without repeats. -/
def runPages (rs : List Run) : List Nat :=
  (rs.flatMap fun r => (pagesOf r.addr r.bytes.length).map pageBase).eraseDups

/-- Shadow bytes that runs hold in a half. -/
def shadowBytes (h : Half) (rs : List Run) : Nat := sumBy ((runPages rs).filter fun p => halfOf p = h) pageSize

/-- Shadow bytes in use in a half: frames of attempts and frames awaiting copy-back. -/
def Dev.shadowUsed (d : Dev) (h : Half) : Nat :=
  sumBy d.tgu.insts (fun p => sumBy p.2.nodes fun n => shadowBytes h n.staged)
    + sumBy (d.tgu.outFrames.filter fun f => f.half = h) (·.size)

/-- Whether runs can have their shadow frames now: no page that they touch first waits for its copy-back (R327), and each
half has space for the new frames (R328). -/
def Dev.runsFit (d : Dev) (n : Node) (rs : List Run) : Bool :=
  let old := runPages n.staged
  let new := (runPages rs).filter fun p => ¬ old.contains p
  let room (h : Half) : Bool := decide (d.shadowUsed h + sumBy (new.filter fun p => halfOf p = h) pageSize ≤ 2 ^ 31)
  new.all (fun p => !d.tgu.outFrames.any fun f => f.page == p) && room .west && room .east

/-- Gives an attempt's writes their frames, in order: from the first that cannot have one on, they wait and the engine stalls. -/
def Dev.takeFrames (seq i : Nat) : List Run → Dev → Dev
  | [], d => d.onNode seq i fun n => { n with held := [], stalled := false }
  | r :: l, d =>
    match d.node seq i with
    | none => d
    | some n =>
      if d.runsFit n [r] then Dev.takeFrames seq i l (d.onNode seq i fun n => { n with staged := n.staged ++ [r] })
      else d.onNode seq i fun n => { n with held := r :: l, stalled := true }

/-- Stages local writes of an attempt: it may hold 1 GiB of frames in a half (R326, R328). -/
def Wk.stage (w : Wk) (seq i : Nat) (rs : List Run) : Wk :=
  match w.dev.node seq i with
  | none => w
  | some n =>
    let own := n.ownRuns ++ rs
    if shadowBytes .west own > 2 ^ 30 ∨ shadowBytes .east own > 2 ^ 30 then w.fail seq i stShadowFull 0
    else if n.held.isEmpty ∧ w.dev.runsFit n rs then w.upd fun d => d.onNode seq i fun n => { n with staged := n.staged ++ rs }
    else w.upd (Dev.takeFrames seq i (n.held ++ rs))

/-- A node that meets the conditions of R324 is ready to commit: it takes the next place in commit order (step 1 of
R325). -/
def Dev.readyToCommit (d : Dev) (seq i : Nat) : Dev :=
  match d.node seq i with
  | none => d
  | some n =>
    if n.st = .running ∧ n.eng = .complete ∧ n.readyOrd.isNone ∧ n.taint.isNone ∧ ¬ n.stalled ∧ n.waitsOn.isEmpty ∧ n.gates.isEmpty ∧ ¬ n.tiles
        ∧ n.probes.all (·.ok) then
      (d.onNode seq i fun n => { n with readyOrd := some d.tgu.readyNext }).onTgu fun t =>
        { t with readyNext := t.readyNext + 1 }
    else d

/-- Writes that wait for a frame take one once it is free, and their attempts go on (R327, R328). -/
def Dev.unstall (d : Dev) : Dev :=
  d.tgu.insts.foldl
    (fun d p =>
      (List.range p.2.nodes.length).foldl
        (fun d i =>
          match d.node p.1 i with
          | some n =>
            if n.stalled then
              let d := Dev.takeFrames p.1 i n.held d
              if n.eng = .complete then d.readyToCommit p.1 i else d
            else d
          | none => d)
        d)
    d

/-- The engine reports an attempt complete. -/
def Dev.engineDone (d : Dev) (seq i : Nat) : Dev :=
  (d.onNode seq i fun n => { n with eng := .complete }).readyToCommit seq i

/-! ### Dispatch (R310, R316 to R322) -/

/-- Engines that a ready queue is kept for (R319, R323). -/
inductive Engine where
  | facets (lane : Nat)
  | prism | efu | lens | tm | bpm | ce | fu | tgu
  deriving DecidableEq, Repr

/-- The engine of an opcode. -/
def engineOf (op lane : Nat) : Engine :=
  if op = 0x0100 ∨ op = 0x0101 then .facets lane
  else if op = 0x0200 ∨ op = 0x0201 then .prism
  else if op = 0x0202 then .efu
  else if op = 0x0203 then .lens
  else if op / 256 = 3 then .tm
  else if op / 256 = 4 then .bpm
  else if op = 0x0500 then .ce
  else if op / 256 = 5 ∨ op = 0x0600 then .fu
  else .tgu

/-- The opcodes of R301. -/
def opcodes : List Nat :=
  [0x0100, 0x0101, 0x0200, 0x0201, 0x0202, 0x0203, 0x0300, 0x0301, 0x0302, 0x0303, 0x0400, 0x0401, 0x0402, 0x0403,
   0x0500, 0x0501, 0x0502, 0x0503, 0x0600, 0x0601, 0x0602, 0x0700, 0x0F00]

/-- Whether one (priority, sequence, index) goes before another (R322). -/
def keyBefore (p1 s1 i1 p2 s2 i2 : Nat) : Bool :=
  p1 > p2 || (p1 == p2 && (s1 < s2 || (s1 == s2 && i1 < i2)))

/-- Whether a ring's held records keep its graphs' nodes from being dispatched (R288). -/
def Dev.ringFull (d : Dev) (x : Inst) : Bool := decide ((d.ring x.fn x.ring).held.length ≥ 256)

/-- Halves whose Lens combines the batch of a COMBINE's route area: those that routed its tokens (R319). -/
def Wk.combineHalves (w : Wk) (x : Inst) (area : Nat) : List Half :=
  match w.rdLocal x.job area 4 with
  | .error _ => [.west, .east]
  | .ok h =>
    let cs := (w.dev.prism.batches.filter fun b => b.live ∧ b.job = x.job ∧ b.gen = fld h 0 2).flatMap (·.ctxs)
    let hs := [Half.west, Half.east].filter fun k => cs.any fun c => c.half == k
    if hs.isEmpty then [w.dev.leadHalf] else hs

/-- The halves of a node's engine (R319), from its operands as they stand; both for an engine that no half divides. -/
def Wk.halvesOf (w : Wk) (x : Inst) (i op : Nat) : List Half :=
  let both : List Half := [.west, .east]
  if ¬ (op / 256 = 3 ∨ op / 256 = 4 ∨ op = 0x200 ∨ op = 0x201 ∨ op = 0x203) then both
  else
    match w.rdForm x.job x.fn (x.base + 128 * i) 128 with
    | .error _ => both
    | .ok nb =>
      let sel (k : Nat) : List Half := match k with | 0 => [.west] | 1 => [.east] | _ => both
      let dst := fld nb (if op = 0x302 then 0x30 else 0x28) 8
      if op = 0x203 then w.combineHalves x (fld nb 0x20 8)
      else if op = 0x200 ∨ op = 0x201 then
        if w.dev.top.degraded then [w.dev.leadHalf] else match bits (fld nb 0x54 4) 4 2 with | 1 => [.west] | 2 => [.east] | _ => both
      else if op / 256 = 3 then [if addrForm dst = 2 then w.dev.fnHome x.fn else halfOf dst]
      else if op = 0x400 then if bit (fld nb 0x38 4) 3 then [halfOf (fld nb 0x30 8)] else sel (bits (fld nb 0x38 4) 16 2)
      else [halfOf (fld nb 0x20 8)]

/-- Whether two nodes are bound for one engine of one half (R319, R322). -/
def Wk.sameEngine (w : Wk) (x : Inst) (i op : Nat) (y : Inst) (j op' : Nat) : Bool :=
  engineOf op x.lane == engineOf op' y.lane && (w.halvesOf x i op).any fun h => (w.halvesOf y j op').contains h

/-- Whether a READY node of the same engine goes before this one; `free` tells which nodes their engine could take. A node
that its own ring holds back holds back no other (R288). -/
def Wk.outranked (w : Wk) (seq i : Nat) (x : Inst) (op : Nat) (free : Nat → Nat → Bool) : Bool :=
  w.dev.tgu.insts.any fun p =>
    (List.range p.2.nodes.length).any fun j =>
      match p.2.nodes[j]? with
      | none => false
      | some m =>
        m.st = .ready && !m.remoteOff && keyBefore p.2.prio p.1 j x.prio seq i && w.sameEngine x i op p.2 j m.opcode
          && free p.1 j && !w.dev.ringFull p.2

/-- Whether the TGU dispatches at all: READY, and neither stopped, lapsed nor fenced (R448, R459, R461). -/
def Dev.dispatching (d : Dev) : Bool :=
  d.top.ready && !d.top.dispatchOff && !d.top.stopped && d.leadOf.isSome

/-- Accounts the wait of a dispatch (R342) and starts an attempt. -/
def Dev.startAttempt (d : Dev) (seq i : Nat) (x : Inst) (n : Node) : Dev :=
  let wait := d.time - n.readyAt
  let h := d.fnHome x.fn
  let mx := winOff x.fn 0x708
  let d := d.acct x.fn 0x700 wait
  let d := if d.reg64 h mx < wait then d.setReg64 h mx wait else d
  let d := d.count .west Reg.TGU_NODES_DISPATCHED_LO 1
  let d := d.onNode seq i fun n =>
    { n with st := .running, start := d.time, attempt := n.attempt + 1, dispOrd := d.tgu.ord, eng := .working, tdc := b2n n.passed }
  d.onTgu fun t => { t with ord := t.ord + 1, graces := t.graces.filter fun g => ¬ (g.inst = seq ∧ g.node = i) }

/-- The successor list of a node, read at each dispatch. -/
def Wk.succList (w : Wk) (x : Inst) (n : Node) : Except (Nat × Nat) (List Nat) :=
  if n.succCount = 0 then .ok []
  else
    match w.rdForm x.job x.fn (x.base + 4 * n.succOff) (4 * n.succCount) with
    | .error e => .error e
    | .ok bs => .ok ((chunks 4 bs).map ofBytes)

/-- The value of SHAPE_REF, read at the first dispatch (R316). -/
def Wk.shapeOf (w : Wk) (x : Inst) (n : Node) : Except (Nat × Nat) (Option Nat) :=
  if n.shapeRef = 0 then .ok none
  else
    match n.shape with
    | some v => .ok (some v)
    | none =>
      match w.rdForm x.job x.fn n.shapeRef 4 with
      | .error e => .error e
      | .ok bs => .ok (some (ofBytes bs))

/-! ### Grace timers (R333) -/

/-- Engines whose nodes can be pre-empted (R334). -/
def Engine.preempts : Engine → Bool
  | .ce => false
  | .fu => false
  | .tgu => false
  | _ => true

/-- Whether a facet is enabled: fused on and not on the retirement list at boot (R537). -/
def Dev.facetFused (d : Dev) (f : Nat) : Bool :=
  decide (f < 320) && !d.top.fusedOff.contains f && !d.top.bootRetired.contains f

/-- Whether a facet is enabled and unretired. -/
def Dev.facetOn (d : Dev) (f : Nat) : Bool := d.facetFused f && !(d.picOf f).retired

/-- Facets of a half, ascending. -/
def facetsOf (h : Half) : List Nat := (List.range 160).map fun i => if h = .west then i else 160 + i

/-- The lane of a facet; none when its half is not split. -/
def Dev.laneOf (d : Dev) (f : Nat) : Option Nat :=
  let h := facetHalf f
  let on := (facetsOf h).filter d.facetOn
  let k := min (bits (d.rn h Reg.TGU_LANE_SPLIT) 0 8) (on.length - 1)
  if k = 0 then none else if (on.drop (on.length - k)).contains f then some 1 else some 0

/-- The lane of a facet: one that runs a node keeps the lane it had when it took it, until that node ends (R234). -/
def Dev.laneHeld (d : Dev) (f : Nat) : Option Nat := match aget d.fac.runs f with | some r => r.lane | none => d.laneOf f

/-- Whether a RUNNING node `m` of `y` holds the engine of a node `n` of `x`; for facets, facets of the node's lane. -/
def Wk.holdsEngine (w : Wk) (x : Inst) (i : Nat) (n : Node) (y : Inst) (j : Nat) (m : Node) : Bool :=
  if n.opcode / 256 = 1 then m.opcode / 256 == 1 && m.facets.any fun f => let l := w.dev.laneHeld f; l == none || l == some x.lane
  else w.sameEngine x i n.opcode y j m.opcode

/-- The earliest moment at which a READY node waits behind a RUNNING node of lower priority on its engine. -/
def Wk.waitsBehind (w : Wk) (x : Inst) (i : Nat) (n : Node) : Option Nat :=
  let starts := w.dev.tgu.insts.flatMap fun p =>
    if p.2.prio < x.prio then
      p.2.nodes.zipIdx.filterMap fun m => if m.1.st = .running ∧ w.holdsEngine x i n p.2 m.2 m.1 then some (max m.1.start n.readyAt) else none
    else []
  starts.foldl (fun o t => match o with | none => some t | some u => some (min u t)) none

/-- The grace timers whose conditions have come to hold. -/
def Wk.newGraces (w : Wk) (cfg : Nat) : List Grace :=
  w.dev.tgu.insts.flatMap fun p =>
    p.2.nodes.zipIdx.filterMap fun m =>
      let n := m.1
      let i := m.2
      let old := w.dev.tgu.graces.find? fun g => g.inst = p.1 ∧ g.node = i
      let running : Bool := match old with | some g => g.dropped.isNone | none => false
      if n.st ≠ .ready ∨ ¬ (engineOf n.opcode p.2.lane).preempts ∨ running then none
      else
        match w.waitsBehind p.2 i n with
        | none => none
        | some t =>
          let t := max t ((old.bind (·.dropped)).getD 0)
          let us := if p.2.policy = 2 ∧ p.2.frameId.isSome then 0 else bits cfg 0 16
          some ⟨p.1, i, t + 1000 * us, none⟩

/-- Starts the grace timers whose conditions hold. -/
def Wk.graceScan (w : Wk) : Wk :=
  let cfg := w.dev.rn w.dev.leadHalf Reg.TGU_PREEMPT_CFG
  if ¬ bit cfg 31 then w
  else
    let new := w.newGraces cfg
    w.upd fun d => d.onTgu fun t =>
      { t with graces := (t.graces.filter fun g => ¬ new.any fun h => h.inst = g.inst ∧ h.node = g.node) ++ new }

/-- A node whose attempt has started. -/
def Wk.begun (w : Wk) (seq i : Nat) (x : Inst) (n : Node) : Wk := w.upd fun d => d.startAttempt seq i x n

/-- A node whose successor list has been read. -/
def Wk.linked (w : Wk) (seq i : Nat) (ss : List Nat) : Wk := w.upd fun d => d.onNode seq i fun n => { n with succ := ss }

/-- A node whose shape has been read. -/
def Wk.shaped (w : Wk) (seq i : Nat) (v : Option Nat) : Wk := w.upd fun d => d.onNode seq i fun n => { n with shape := v }

/-- Whether a handle of gradient kind stands on an opcode that takes no part in training (R224). -/
def strayGradient (op a : Nat) : Bool := bits a 60 4 == 2 && op != 0x100 && op != 0x101

/-- Dispatches a READY node of an opcode: order, successor list before the attempt starts (R310), shape, null completion with no
operand read (R317), then the node's 128 bytes and the opcode's own work `run` on them. `can` tells whether a node's engine
could take it. -/
def Wk.dispatchNode (w : Wk) (seq i op : Nat) (can : Dev → Nat → Nat → Bool) (nullRuns : Bool)
    (onNull : Wk → Inst → Wk) (run : Wk → Inst → Node → List Byte → Wk) : Wk :=
  match w.dev.inst seq with
  | none => w
  | some x =>
    match x.nodes[i]? with
    | none => w
    | some n =>
      if n.st ≠ .ready ∨ n.remoteOff ∨ n.opcode ≠ op ∨ ¬ w.dev.dispatching ∨ ¬ can w.dev seq i
          ∨ (w.dev.ring x.fn x.ring).held.length ≥ 256 ∨ w.outranked seq i x op (can w.dev) then w
      else
        match w.succList x n with
        | .error e => w.raiseStatus seq i e.1 e.2 w.dev.leadHalf
        | .ok ss =>
          if ss.any fun s => s ≥ x.nodes.length then w.fail seq i stFormat 0
          else
            let w := (w.begun seq i x n).linked seq i ss
            match w.shapeOf x n with
            | .error e => w.raiseStatus seq i e.1 e.2 w.dev.leadHalf
            | .ok v =>
              let w := w.shaped seq i v
              if v = some 0 ∧ ¬ nullRuns then (onNull w x).complete seq i stNull
              else
                match w.rdForm x.job x.fn (x.base + 128 * i) 128 with
                | .error e => w.raiseStatus seq i e.1 e.2 w.dev.leadHalf
                | .ok nb =>
                  if strayGradient op n.affinity then w.fail seq i 0x3B 0
                  else
                    match w.dev.node seq i with
                    | none => w
                    | some n => run w x n nb

/-- Dispatches a READY node, and starts the grace timers that this makes due. -/
def Wk.dispatch (w : Wk) (seq i op : Nat) (can : Dev → Nat → Nat → Bool) (nullRuns : Bool)
    (onNull : Wk → Inst → Wk) (run : Wk → Inst → Node → List Byte → Wk) : Wk :=
  (w.dispatchNode seq i op can nullRuns onNull run).graceScan

/-- A node that any engine can always take. -/
def always : Dev → Nat → Nat → Bool := fun _ _ _ => true

/-- A null completion that reads nothing. -/
def noNull : Wk → Inst → Wk := fun w _ => w

end Sys2Proof.Machine
end

