-- ==== Sys2Proof/Machine/Bpm.lean ====
section
/-! DEFINITION. The Buffer Pool Manager (R248 to R266): pools, placement, quotas, and the ALLOC, FREE, RELEASE and SHARE
nodes. -/

namespace Sys2Proof.Machine

open Sys2Proof

/-- Unit of a pool's SIZE: 4 KiB for pools 0 to 7, 64 KiB for pools 8 to 15 (R253). -/
def poolUnit (p : Nat) : Nat := if p < 8 then 4096 else 65536

/-- Buffers of a pool, 0 when it is disabled. -/
def Dev.poolCount (d : Dev) (h : Half) (p : Nat) : Nat := d.rn h (Reg.BPM_POOL_CFG_HI + 8 * p)

/-- Bytes of a pool's buffers. -/
def Dev.poolSize (d : Dev) (h : Half) (p : Nat) : Nat := d.rn h (Reg.BPM_POOL_CFG_LO + 8 * p) * poolUnit p

/-- The pools of the tier of a pool. -/
def tierPools (t1 : Bool) : List Nat := if t1 then List.range 8 else (List.range 8).map (· + 8)

/-- Start of managed T1, or of a half's T2 pool space (R238, R239). -/
def tierBase (h : Half) (t1 : Bool) : Nat :=
  if t1 then 2 ^ 41 + h.code * 0x20000000 + 0x05000000 else h.code * 2 ^ 40

/-- Bytes that pools take together. -/
def Dev.poolSpan (d : Dev) (h : Half) (ps : List Nat) : Nat := sumBy ps fun p => d.poolSize h p * d.poolCount h p

/-- Base of a pool (R253). -/
def Dev.poolBase (d : Dev) (h : Half) (p : Nat) : Nat :=
  tierBase h (decide (p < 8)) + d.poolSpan h ((tierPools (decide (p < 8))).filter (· < p))

/-- Buffers of a pool that are outside its bitmap. -/
def Dev.poolOut (d : Dev) (h : Half) (p : Nat) : List Buf := d.host.bufs.filter fun b => b.half = h ∧ b.pool = p

/-- BPM_POOL_FREE. -/
def Dev.poolFree (d : Dev) (h : Half) (p : Nat) : Nat := d.poolCount h p - (d.poolOut h p).length

/-- BPM_POOL_HELD of a client. -/
def Dev.poolHeld (d : Dev) (h : Half) (p c : Nat) : Nat := ((d.poolOut h p).filter fun b => b.client = c).length

/-- BPM_POOL_RESERVE of a client. -/
def Dev.poolReserve (d : Dev) (h : Half) (p c : Nat) : Nat := d.rn h (Reg.BPM_POOL_RESERVE + 0x100 * p + 4 * c)

/-- Whether the reserve rule lets a client take one buffer of a pool (R256). -/
def Dev.reserveAllows (d : Dev) (h : Half) (p c : Nat) : Bool :=
  let owed := sumBy ((List.range 64).filter (· ≠ c)) fun o => d.poolReserve h p o - d.poolHeld h p o
  decide (1 ≤ d.poolFree h p ∧ owed ≤ d.poolFree h p - 1)

/-- Bytes a client is charged in T1 by buffers, or in T2 (R250). Staging is charged by `Dev.stagingUsed`. -/
def Dev.bufUsed (d : Dev) (c : Nat) (t1 : Bool) : Nat :=
  sumBy (d.host.bufs.filter fun b => b.client = c ∧ (b.pool < 8) = t1) (·.size)

/-- Bytes of a client's T1 or T2 charge, staging included. -/
def Dev.usedBytes (d : Dev) (c : Nat) (t1 : Bool) : Nat := d.bufUsed c t1 + (if t1 then d.stagingUsed c else 0)

/-- Limit of a client in a tier, in bytes (R271). -/
def Dev.quotaBytes (d : Dev) (c : Nat) (t1 : Bool) : Nat :=
  if t1 then d.rn .west (Reg.MEM_QUOTA_T1 + 16 * c) * 4096 else d.rn .west (Reg.MEM_QUOTA_T2 + 16 * c) * 65536

/-- Whether a charge stays within the client's limit (R251). -/
def Dev.quotaAllows (d : Dev) (c : Nat) (t1 : Bool) (n : Nat) : Bool := decide (d.usedBytes c t1 + n ≤ d.quotaBytes c t1)

/-- The enabled pools of a tier, in pool order. -/
def Dev.enabledPools (d : Dev) (h : Half) (t1 : Bool) : List Nat := (tierPools t1).filter fun p => d.poolCount h p ≠ 0

/-- The smallest enabled class of a tier that fits (R249). -/
def Dev.classFor (d : Dev) (h : Half) (t1 : Bool) (n : Nat) : Option Nat :=
  (d.enabledPools h t1).find? fun p => decide (n ≤ d.poolSize h p)

/-- The largest enabled buffer of a tier. -/
def Dev.largest (d : Dev) (h : Half) (t1 : Bool) : Nat :=
  (d.enabledPools h t1).foldl (fun m p => max m (d.poolSize h p)) 0

/-- The lowest-numbered free buffer of a pool (R255). -/
def Dev.lowestFree (d : Dev) (h : Half) (p : Nat) : Nat :=
  let out := (d.poolOut h p).map (·.idx)
  ((List.range (out.length + 1)).find? fun k => ¬ out.contains k).getD 0

/-- Takes the checks of R249 in one half: pool and index, or the refusal. -/
def Dev.placeIn (d : Dev) (h : Half) (c n flags : Nat) : Except Nat (Nat × Nat) :=
  if d.top.degraded ∧ d.leadOf ≠ some h then .error 0x10
  else
    let hot := bits flags 0 2 = 1 ∧ ¬ bit flags 4 ∧ ¬ bit flags 5
    let t1 := decide (hot ∧ n ≤ d.largest h true)
    match d.classFor h t1 n with
    | none => .error 0x1B
    | some p =>
      if ¬ d.reserveAllows h p c then .error 0x10
      else if ¬ d.quotaAllows c t1 (d.poolSize h p) then .error 0x11
      else .ok (p, d.lowestFree h p)

/-- Places an ALLOC (R249). -/
def Dev.place (d : Dev) (c n flags sel : Nat) : Except Nat (Half × Nat × Nat) :=
  let west := d.placeIn .west c n flags
  let east := d.placeIn .east c n flags
  let tag (h : Half) (r : Except Nat (Nat × Nat)) : Except Nat (Half × Nat × Nat) := r.map fun q => (h, q.1, q.2)
  if sel = 0 then tag .west west
  else if sel = 1 then tag .east east
  else
    match west with
    | .error 0x10 => tag .east east
    | .error 0x1B => tag .east east
    | r => tag .west r

/-- The pool and index whose buffer starts at a handle. -/
def Dev.handleOf (d : Dev) (a : Nat) : Option (Half × Nat × Nat) :=
  let h := halfOf a
  let t1 := isSram a
  (d.enabledPools h t1).findSome? fun p =>
    let b := d.poolBase h p
    let z := d.poolSize h p
    if b ≤ a ∧ a < b + z * d.poolCount h p ∧ (a - b) % z = 0 then some (h, p, (a - b) / z) else none

/-- Places a PINNED ALLOC at its handle. -/
def Dev.placePinned (d : Dev) (c a : Nat) : Except Nat (Half × Nat × Nat) :=
  match d.handleOf a with
  | none => .error 0x1A
  | some (h, p, k) =>
    if d.top.degraded ∧ d.leadOf ≠ some h then .error 0x10
    else if (d.poolOut h p).any (·.idx = k) then .error 0x19
    else if ¬ d.reserveAllows h p c then .error 0x10
    else if ¬ d.quotaAllows c (decide (p < 8)) (d.poolSize h p) then .error 0x11
    else .ok (h, p, k)

/-- The operand check of R260 for an ALLOC. -/
def Dev.allocOperandsOk (d : Dev) (nb : List Byte) : Bool :=
  let res := fld nb 0x20 8
  let n := fld nb 0x28 8
  let hd := fld nb 0x30 8
  let w := fld nb 0x38 4
  let flags := bits w 0 16
  let pinned := bit flags 3
  bits w 19 13 == 0 && bits w 16 2 != 3 && bits flags 7 9 == 0 && bits flags 0 2 != 3 && zeroFrom nb 0x3C
    && isLocal res && res % 16 == 0 && decide (1 ≤ n ∧ n ≤ 0xFF00000000) && (pinned || hd == 0)
    && (!pinned ||
      match (if isLocal hd then d.handleOf hd else none) with
      | none => false
      | some (h, p, _) =>
        d.classFor h (decide (p < 8)) n == some p && !(decide (p < 8) && (bit flags 4 || bit flags 5)))

/-- The 16-byte ALLOC result record (R258). -/
def allocRecord (handle granted tier half pool status : Nat) : List Byte :=
  toBytes 8 handle ++ toBytes 4 granted
    ++ toBytes 4 (tier * 2 ^ 14 + half * 2 ^ 13 + pool * 2 ^ 8 + status)

/-- Counter of a refusal (R272). -/
def refusalCounter (st : Nat) : Nat :=
  if st = 0x10 ∨ st = 0x1B then Reg.BPM_EMPTY_LO else if st = 0x11 then Reg.BPM_QUOTA_LO else Reg.BPM_OWNER_REFUSED_LO

/-- What an ALLOC does at execution (R260 to R262). -/
def Wk.runAlloc (w : Wk) (seq i : Nat) (x : Inst) (_n : Node) (nb : List Byte) : Wk :=
  if ¬ w.dev.allocOperandsOk nb then w.fail seq i 0x1A 0
  else
    let res := fld nb 0x20 8
    let c38 := fld nb 0x38 4
    let flags := bits c38 0 16
    let sel := bits c38 16 2
    let r := if bit flags 3 then w.dev.placePinned x.client (fld nb 0x30 8)
             else w.dev.place x.client (fld nb 0x28 8) flags sel
    let askHalf := if bit flags 3 then halfOf (fld nb 0x30 8) else if sel = 1 then Half.east else Half.west
    match r with
    | .error st =>
      if bit c38 18 then
        ((w.stage seq i [⟨res, allocRecord 0 0 0 askHalf.code 0 st⟩]).upd fun d =>
          d.onNode seq i fun n => { n with result := st, acts := [.count askHalf (refusalCounter st) 1] }).upd
            (·.engineDone seq i)
      else (w.upd fun d => d.count askHalf (refusalCounter st) 1).fail seq i st 0
    | .ok (h, p, k) =>
      let z := w.dev.poolSize h p
      let base := w.dev.poolBase h p + k * z
      let ep := match w.dev.job x.job with | some j => j.keyEpoch | none => 0
      let b : Buf := { half := h, pool := p, idx := k, base := base, size := z, st := .taken, holders := [x.job],
                       owner := x.job, client := x.client, flags := flags, isSealed := false, keyEpoch := ep }
      let rec_ := allocRecord base (z / 4096) (if p < 8 then 1 else 2) h.code p 0
      let w := w.upd fun d => (d.onHost fun s => { s with bufs := s.bufs ++ [b] }).onNode seq i fun n =>
        { n with result := 0, acts := [.alloc h p k flags, .count h Reg.BPM_ALLOC_OK_LO 1] }
      (w.stage seq i [⟨res, rec_⟩]).upd (·.engineDone seq i)

/-- A 64-byte unit of data that the key of one epoch encrypted, decrypted by the key of another (R245). -/
def otherKey (made key unit : Nat) (data : List Byte) : List Byte :=
  if made = key then data else (List.range 64).map fun k => Config.wrongKeyByte made key unit data k

/-- Puts a 64-byte unit under another key. Its ciphertext stays: what the old key showed is what it had encrypted, unless that
is only what it made of another key's ciphertext. -/
def Wk.rekeyUnit (w : Wk) (old new unit : Nat) : Wk :=
  let shown := w.rdN (64 * unit) 64
  let c : Cipher := match w.dev.host.ciphers.find? fun c => c.unit = unit with
    | some c => if otherKey c.epoch old unit c.data = shown then c else ⟨unit, old, shown⟩
    | none => ⟨unit, old, shown⟩
  (w.wr (64 * unit) (otherKey c.epoch new unit c.data)).upd fun d => d.onHost fun s =>
    let rest := s.ciphers.filter fun x => x.unit ≠ unit
    { s with ciphers := if c.epoch = new then rest else rest ++ [c] }

/-- Puts the pages of a stack buffer under a key. What another key wrote there reads as its decryption under the wrong key, and
reads as it was once the page is under that key again; ZERO clears the buffer (R245, R248, R264). -/
def Wk.rekey (w : Wk) (base size epoch : Nat) (zero : Bool) : Wk :=
  (List.range (size / 65536)).foldl
    (fun w k =>
      let p := base / 65536 + k
      let w :=
        if zero then
          (w.wr (p * 65536) (List.replicate 65536 0)).upd fun d => d.onHost fun s =>
            { s with ciphers := s.ciphers.filter fun c => c.unit / 1024 ≠ p }
        else match aget w.dev.host.pageKey p with
          | some old => if old = epoch then w else (List.range 1024).foldl (fun w u => w.rekeyUnit old epoch (1024 * p + u)) w
          | none => w
      w.upd fun d => d.onHost fun s => { s with pageKey := aput s.pageKey p epoch })
    w

/-- Clears a range: every byte that is listed, or that this command has written. -/
def Wk.clear (w : Wk) (a n : Nat) : Wk :=
  if w.mw.any fun r => r.addr < a + n ∧ a < r.addr + r.bytes.length then w.wr a (List.replicate n 0)
  else (w.mem.filter fun c => a ≤ c.1 ∧ c.1 < a + n).foldl (fun w c => w.wr c.1 [0]) w

/-- Step 3 of an ALLOC: the pages become HELD (R262). A T1 buffer reads as zero, whatever a reset left there (R248). -/
def Wk.commitAlloc (w : Wk) (h : Half) (p k flags : Nat) : Wk :=
  match w.dev.host.bufs.find? fun b => b.half = h ∧ b.pool = p ∧ b.idx = k with
  | none => w
  | some b =>
    let w := w.upd fun d => d.onHost fun s =>
      { s with bufs := s.bufs.map fun b => if b.half = h ∧ b.pool = p ∧ b.idx = k then { b with st := .held } else b }
    if p < 8 then w.clear b.base b.size else w.rekey b.base b.size b.keyEpoch (bit flags 6)

/-- Buffers of a half with more than one holder, which take share records (R263). -/
def Dev.shareRecords (d : Dev) (h : Half) : Nat :=
  (d.host.bufs.filter fun b => b.half = h ∧ b.holders.length > 1).length

/-- Replaces the held buffer at a base. -/
def Dev.onBuf (d : Dev) (base : Nat) (f : Buf → Buf) : Dev :=
  d.onHost fun s => { s with bufs := s.bufs.map fun b => if b.base = base ∧ b.st = .held then f b else b }

/-- The tests of R263 for FREE (0x401), RELEASE (0x402) and SHARE (0x403), in order: 0, or the refusal. -/
def Dev.bpmTest (d : Dev) (op job handle grantee owner : Nat) : Nat :=
  match d.host.bufs.find? fun b => b.st = .held ∧ b.base = handle with
  | none => 0x14
  | some b =>
    if ¬ b.holders.contains job then 0x14
    else if op = 0x401 then
      if b.owner ≠ job then 0x12 else if b.holders.length > 1 then 0x13 else 0
    else if op = 0x402 then (if b.owner = job then 0x15 else 0)
    else
      match d.job grantee with
      | none => if b.owner ≠ job then 0x12 else 0x15
      | some g =>
        if b.owner ≠ job then 0x12
        else if b.holders.contains grantee ∨ ¬ (b.holders ++ [grantee]).contains owner then 0x15
        else if ¬ bit b.flags 2 ∧ g.client ≠ b.client then 0x17
        else if b.holders.length ≥ 16 ∨ (b.holders.length = 1 ∧ d.shareRecords b.half ≥ 65536) then 0x16
        else
          let oc := match d.job owner with | some o => o.client | none => b.client
          if oc ≠ b.client ∧ ¬ d.quotaAllows oc (decide (b.pool < 8)) b.size then 0x11 else 0

/-- The BPM step of FREE, RELEASE or SHARE, when its tests pass. -/
def Dev.bpmApply (d : Dev) (op job handle grantee owner : Nat) : Dev :=
  if op = 0x401 then d.freeBuf handle
  else if op = 0x402 then d.onBuf handle fun b => { b with holders := b.holders.filter (· ≠ job) }
  else
    d.onBuf handle fun b =>
      { b with holders := b.holders ++ [grantee], owner := owner,
               client := (match d.job owner with | some o => o.client | none => b.client),
               isSealed := b.isSealed || bit b.flags 2 }

/-- The operand check of R260 for FREE, RELEASE and SHARE. -/
def bpmOperandsOk (op : Nat) (nb : List Byte) : Bool :=
  bits (fld nb 0x28 4) 20 12 == 0 && bits (fld nb 0x2C 4) 20 12 == 0 && bits (fld nb 0x30 4) 1 31 == 0
    && zeroFrom nb 0x34 && (op == 0x403 || (fld nb 0x28 4 == 0 && fld nb 0x2C 4 == 0))

/-- FREE, RELEASE and SHARE do nothing before their commit (R263). -/
def Wk.runBpm (w : Wk) (op seq i : Nat) (_x : Inst) (_n : Node) (nb : List Byte) : Wk :=
  if ¬ bpmOperandsOk op nb then w.fail seq i 0x1A 0
  else
    let a := CommitAct.bpm op (fld nb 0x20 8) (bits (fld nb 0x28 4) 0 20) (bits (fld nb 0x2C 4) 0 20) (bit (fld nb 0x30 4) 0)
    (w.upd fun d => d.onNode seq i fun n => { n with acts := [a] }).upd (·.engineDone seq i)

/-- ALLOC (R262). -/
def execAlloc (inst node now : Nat) (s : State) : Host.Outcome State Fault Refusal :=
  finish s ((s.start.at_ now).dispatch inst node 0x400 always false noNull fun w x n nb => w.runAlloc inst node x n nb)

/-- FREE (R263). -/
def execFreeBuf (inst node now : Nat) (s : State) : Host.Outcome State Fault Refusal :=
  finish s ((s.start.at_ now).dispatch inst node 0x401 always false noNull fun w x n nb => w.runBpm 0x401 inst node x n nb)

/-- RELEASE (R263). -/
def execRelease (inst node now : Nat) (s : State) : Host.Outcome State Fault Refusal :=
  finish s ((s.start.at_ now).dispatch inst node 0x402 always false noNull fun w x n nb => w.runBpm 0x402 inst node x n nb)

/-- SHARE (R263). -/
def execShareBuf (inst node now : Nat) (s : State) : Host.Outcome State Fault Refusal :=
  finish s ((s.start.at_ now).dispatch inst node 0x403 always false noNull fun w x n nb => w.runBpm 0x403 inst node x n nb)

/-- Zeroing of a freed T1 buffer completes: the buffer returns to its bitmap and its charge is released (R264). -/
def Wk.zeroed (w : Wk) (base : Nat) : Wk :=
  match w.dev.host.bufs.find? fun b => b.base = base ∧ b.st = .freeing ∧ b.pool < 8 with
  | none => w
  | some b =>
    if w.dev.copyPending b.base b.size then w
    else (w.wr b.base (List.replicate b.size 0)).upd fun d =>
      (d.onHost fun s => { s with bufs := s.bufs.filter fun c => ¬ (c.base = base ∧ c.st = .freeing) }).dropGoneSlots

/-- Zeroing of a freed T1 buffer completes (R264). -/
def execT1BufferZeroed (base now : Nat) (s : State) : Host.Outcome State Fault Refusal :=
  finish s ((s.start.at_ now).zeroed base)

/-! ### Pool set-up (R254, R272) -/

/-- The first failing check of R254 for a pool's new SIZE and COUNT as a RESULT code, or ACCEPTED. -/
def Dev.poolCfgResult (d : Dev) (h : Half) (p size count : Nat) : Nat :=
  let t1 := decide (p < 8)
  let sz := fun q => if q = p then size else d.rn h (Reg.BPM_POOL_CFG_LO + 8 * q)
  let ct := fun q => if q = p then count else d.poolCount h q
  let en := (tierPools t1).filter fun q => ct q ≠ 0
  if (tierPools t1).any fun q => q ≥ p && !(d.poolOut h q).isEmpty then 2
  else if count > 1048576 ∨ (count ≠ 0 ∧ (size < 1 ∨ size > 16711680)) then 7
  else if ¬ (en.zip (en.drop 1)).all fun q => sz q.1 < sz q.2 then 3
  else if sumBy en (fun q => sz q * ct q * poolUnit q) > (if t1 then 432 * 2 ^ 20 else 1020 * 2 ^ 30) then 4
  else if ¬ t1 ∧ (d.mir.host.get h).on ∧ (let m := d.mir.host.get h; let t := tierBase h false
      decide (m.base < t + sumBy en (fun q => sz q * ct q * poolUnit q) ∧ t < m.base + areaBytes m.slots m.gib)) then 4
  else if sumBy (List.range 16) ct > 2097152 then 5
  else if sumBy (List.range 64) (d.poolReserve h p) > count then 6
  else 1

/-- A _HI write of BPM_POOL_CFG with the SIZE of the pair (R254). A disabled pool stores SIZE as written. -/
def Dev.poolCfg (d : Dev) (h : Half) (p size count : Nat) : Dev :=
  let r := d.poolCfgResult h p size count
  let d := if r = 1 then (d.setReg h (Reg.BPM_POOL_CFG_LO + 8 * p) (w32 size)).setReg h (Reg.BPM_POOL_CFG_HI + 8 * p) (w32 count)
           else d
  d.setReg h Reg.BPM_CFG_STATUS (w32 (p * 256 + r))

/-- A write of BPM_POOL_RESERVE, refused when it would break check 6 of R254 (R272). -/
def Dev.setReserve (d : Dev) (h : Half) (p c v : Nat) : Dev :=
  let total := sumBy ((List.range 64).filter (· ≠ c)) (d.poolReserve h p) + v
  if total > d.poolCount h p then
    d.setReg h Reg.BPM_CFG_STATUS (w32 (setBits (d.rn h Reg.BPM_CFG_STATUS) 0 3 6))
  else d.setReg h (Reg.BPM_POOL_RESERVE + 0x100 * p + 4 * c) (w32 v)

/-! ### Removing a job's buffers (R265) -/

/-- Works through the buffers a removed job holds, in ascending handle order. -/
def Wk.dropBuffers (w : Wk) (job : Nat) : Wk :=
  let mine := sortBy (fun (a b : Buf) => decide (a.base < b.base))
    (w.dev.host.bufs.filter fun b => b.st = .held ∧ b.holders.contains job)
  mine.foldl
    (fun w b =>
      if b.owner ≠ job then w.upd fun d => d.onBuf b.base fun b => { b with holders := b.holders.filter (· ≠ job) }
      else
        let rest := b.holders.filter (· ≠ job)
        match rest with
        | [] => w.upd (·.freeBuf b.base)
        | r :: rs =>
          let o := rs.foldl min r
          let c := match w.dev.job o with | some j => j.client | none => b.client
          let w := w.upd fun d => d.onBuf b.base fun b => { b with holders := rest, owner := o, client := c }
          w.postJob b.half { kind := 9, job := job, d0 := b.base, d1 := o + c * 2 ^ 32 })
    w

end Sys2Proof.Machine
end

