-- ==== Sys2Proof/Machine/Rings.lean ====
section
/-! DEFINITION. Rings, doorbells, event rings, interrupts, write-back, jobs and resets of the host side (R275 to R307,
R580). -/

namespace Sys2Proof.Machine

open Sys2Proof

/-- Size of a ring's SQ or CQ (R284). -/
def Dev.sqSize (d : Dev) (fn r : Nat) : Nat := 2 ^ (bits (d.ringReg fn r 0x18) 16 4 + 6)
def Dev.cqLog2 (d : Dev) (fn r : Nat) : Nat := bits (d.ringReg fn r 0x18) 20 4 + 6

/-- Difference of two free-running 32-bit indices. -/
def idxSub (a b : Nat) : Nat := (a + 2 ^ 32 - b % 2 ^ 32) % 2 ^ 32

/-- Counts a dropped doorbell write (R291). -/
def Dev.dbDropped (d : Dev) (fn : Nat) : Dev := d.count (d.fnHome fn) Reg.HOST_DB_DROPPED_LO 1

/-- Whether a doorbell write to a ring pair's registers is taken: page not fenced, ring neither DISABLED nor REFUSED. -/
def Dev.dbTaken (d : Dev) (fn r : Nat) : Bool :=
  (d.func fn).pagesOn && !((d.ring fn r).st = .disabled || (d.ring fn r).st = .refused)

/-- Whether a function is reachable through its port and the ring number exists. -/
def Dev.dbReach (d : Dev) (fn r : Nat) : Bool := (d.fnHalf fn).isSome && decide (r < 16)

/-- A new SQ_TAIL (R291). -/
def Wk.sqTail (w : Wk) (fn r : Nat) (v : Word32) : Wk :=
  if ¬ w.dev.dbReach fn r then w
  else if ¬ w.dev.dbTaken fn r then w.upd (·.dbDropped fn)
  else
    let x := w.dev.ring fn r
    if idxSub v.toNat x.sqHead > w.dev.sqSize fn r then w.jobFatal (w.dev.ringJob fn r) stOverrun
    else w.upd fun d => d.setRing fn r { x with sqTail := v.toNat }

/-- A new CQ_HEAD (R291). -/
def Dev.cqHead (d : Dev) (fn r : Nat) (v : Word32) : Dev :=
  if ¬ d.dbReach fn r then d
  else if ¬ d.dbTaken fn r then d.dbDropped fn
  else
    let x := d.ring fn r
    if idxSub x.cqTail v.toNat > 2 ^ d.cqLog2 fn r then d.dbDropped fn
    else d.setRing fn r { x with cqHead := v.toNat }

/-- The abort of R292 on one ring. -/
def Wk.abortTag (w : Wk) (fn r tag : Nat) : Wk :=
  let job := w.dev.ringJob fn r
  let seqs := (w.dev.tgu.insts.filter fun p => p.2.fn = fn ∧ p.2.ring = r ∧ p.2.tag = tag).map (·.1)
  let (w, k1) := seqs.foldl (fun wb s => let (w, k) := wb.1.abortInst s; (w, wb.2 || k)) (w, false)
  let (w, k2) := w.abortQueued fn r fun g => ofBytes ((g.drop 16).take 8) = tag
  let (w, k3) := w.disarm fun g => g.fn = fn ∧ g.ring = r ∧ ofBytes ((g.gsd.drop 16).take 8) = tag
  let st := if k1 || k2 || k3 then stAborted else stAlready
  w.post (w.dev.fnHome fn) fn { kind := 3, status := st, job := job, tag := tag }

/-- A write to HOST_DB_ABORT_TAG_LO: held until the pair's _HI is written (R290, R291). -/
def Dev.abortLow (d : Dev) (fn r : Nat) (v : Word32) : Dev :=
  if ¬ d.dbReach fn r then d
  else if ¬ d.dbTaken fn r then d.dbDropped fn
  else d.setRing fn r { d.ring fn r with abortLo := some v }

/-- A write to HOST_DB_ABORT_TAG_HI (R290, R291). -/
def Wk.abortHigh (w : Wk) (fn r : Nat) (v : Word32) : Wk :=
  if ¬ w.dev.dbReach fn r then w
  else if ¬ w.dev.dbTaken fn r then w.upd (·.dbDropped fn)
  else
    let x := w.dev.ring fn r
    (w.upd fun d => d.setRing fn r { x with abortLo := none }).abortTag fn r ((x.abortLo.getD 0).toNat + 2 ^ 32 * v.toNat)

/-- The writes to the pair HOST_DB_ABORT_TAG that the command carries: the _LO, the _HI, or the one and then the other. -/
def Wk.abortDoorbell (w : Wk) (fn r : Nat) (lo hi : Option Word32) : Wk :=
  let w := match lo with | some v => w.upd (·.abortLow fn r v) | none => w
  match hi with | some v => w.abortHigh fn r v | none => w

/-- A new event-ring head (R291). -/
def Wk.evtHead (w : Wk) (fn r : Nat) (v : Word32) : Wk :=
  if ¬ w.dev.dbReach fn r then w
  else
    let f := w.dev.func fn
    if ¬ f.pagesOn ∨ ¬ f.evt.on then w.upd (·.dbDropped fn)
    else (w.upd fun d => d.setFunc fn { f with evt := { f.evt with head := v.toNat } }).reportLost fn

/-! ### Ring and event-ring set-up -/

/-- The condition of R285 for enabling a ring. -/
def Dev.ringOk (d : Dev) (fn r : Nat) : Bool :=
  let sq := d.ringReg64 fn r 0
  let cq := d.ringReg64 fn r 8
  let hw := d.ringReg64 fn r 0x10
  let cfg := d.ringReg fn r 0x18
  sq % 4096 == 0 && cq % 4096 == 0 && decide (sq < 2 ^ 62) && decide (cq < 2 ^ 62) && hw % 8 == 0
    && decide (hw < 2 ^ 62) && decide (bits cfg 16 4 ≤ 10) && decide (bits cfg 20 4 ≤ 10)
    && (match d.job (d.ringJob fn r) with | some j => j.client == clientOf fn | none => false)

/-- A write to HOST_RING_CFG of a function's ring by `who` (R285, R305). -/
def Dev.ringCfg (d : Dev) (who fn r : Nat) (v : Word32) : Dev :=
  let h := d.fnHome fn
  let o := winOff fn (0x40 * r + 0x18)
  let old := d.rn h o
  let x := d.ring fn r
  let idle := x.st = .disabled ∨ x.st = .refused
  let prio := if who = 0 ∨ bits v.toNat 8 3 ≤ bits old 8 3 then bits v.toNat 8 3 else bits old 8 3
  let sizes := if idle then bits v.toNat 16 8 else bits old 16 8
  let en := bit v.toNat 31
  let d := d.setReg h o (w32 (b2n en * 2 ^ 31 + sizes * 2 ^ 16 + prio * 2 ^ 8))
  if en then
    if idle then
      if d.ringOk fn r then d.setRing fn r { Ring.cold with st := .enabled } else d.setRing fn r { x with st := .refused }
    else d
  else if x.st = .enabled ∨ x.st = .halted then d.setRing fn r { x with st := .draining, halt := 0 }
  else if x.st = .refused then d.setRing fn r { x with st := .disabled }
  else d

/-- Instances of a ring in flight. -/
def Dev.ringInsts (d : Dev) (fn r : Nat) : Nat := (d.tgu.insts.filter fun p => p.2.fn = fn ∧ p.2.ring = r).length

/-- A draining ring with nothing left becomes DISABLED (R285). -/
def Dev.drained (d : Dev) (fn r : Nat) : Dev :=
  let x := d.ring fn r
  if x.st = .draining ∧ d.ringInsts fn r = 0 ∧ (x.held.isEmpty ∨ x.broken)
      ∧ ¬ d.tgu.frames.any (fun p => p.2.fn = fn ∧ p.2.ring = r ∧ (p.2.armed ∨ ¬ p.2.waiting.isEmpty)) then
    d.setRing fn r { x with st := .disabled, held := [] }
  else d

/-- A write to HOST_EVT_CFG of a function (R289). -/
def Dev.evtCfg (d : Dev) (fn : Nat) (v : Word32) : Dev :=
  let h := d.fnHome fn
  let o := winOff fn 0x408
  let f := d.func fn
  let old := d.rn h o
  let n := v.toNat
  let lg := if f.evt.on then bits old 16 4 else bits n 16 4
  let d := d.setReg h o (w32 (bits n 30 2 * 2 ^ 30 + lg * 2 ^ 16 + bits n 8 8 * 2 ^ 8 + bits n 0 5))
  let base := d.reg64 h (winOff fn 0x400)
  if ¬ bit n 31 then d.setFunc fn { f with evt := { f.evt with on := false } }
  else if f.evt.on then d
  else if base % 4096 = 0 ∧ base < 2 ^ 62 ∧ lg ≤ 10 then d.setFunc fn { f with evt := ⟨true, 0, 0, 0, 0, 0⟩ }
  else d

/-! ### Write-back -/

/-- A host write of the write-back unit ends in error: the ring writes no further record, and its job takes the
job-fatal step (R306). -/
def Wk.wbError (w : Wk) (fn r : Nat) : Wk :=
  let w := w.upd fun d => d.setRing fn r { d.ring fn r with broken := true, held := [], wbDue := false }
  w.jobFatal (w.dev.ringJob fn r) stDenied

/-- The coalesced SQ_HEAD write-back, at most one per µs (R287). -/
def Wk.headWb (w : Wk) (fn r : Nat) : Wk :=
  let x := w.dev.ring fn r
  let due : Bool := match x.wbLast with | none => true | some t => decide (t + 1000 ≤ w.dev.time)
  if ¬ x.wbDue ∨ ¬ due then w
  else if ¬ w.dev.fnDelivers fn then w.wbError fn r
  else
    (w.wrH (w.dev.ringReg64 fn r 0x10) (toBytes 8 x.sqHead)).upd fun d =>
      d.setRing fn r { x with wbDue := false, wbLast := some d.time }

/-- Writes the oldest held record of a ring once its CQ has room (R288, R298). -/
def Wk.writeRecord (w : Wk) (fn r : Nat) : Wk :=
  let x := w.dev.ring fn r
  match x.held with
  | [] => w
  | c :: rest =>
    let lg := w.dev.cqLog2 fn r
    let counted (d : Dev) : Dev :=
      let d := d.count (d.fnHome fn) Reg.HOST_RECORDS_WRITTEN_LO 1
      if bit (c.bytes.getD 31 0).toNat 6 then d.countGraphRec fn else d
    match c.at_ with
    | none =>
      if idxSub x.cqTail x.cqHead ≥ 2 ^ lg then w
      else if ¬ w.dev.fnDelivers fn then w.wbError fn r
      else
        let phase := !bit (x.cqTail / 2 ^ lg) 0
        let top := (c.bytes.getD 31 0) ||| (if phase then 0x80 else 0)
        let w := w.wrH (w.dev.ringReg64 fn r 8 + 32 * (x.cqTail % 2 ^ lg)) (c.bytes.take 31 ++ [top])
        w.upd fun d =>
          let d := counted (d.setRing fn r { x with held := rest, cqTail := (x.cqTail + 1) % 2 ^ 32 })
          if c.signal then d.raiseRing fn r else d
    | some a =>
      if addrForm a = 2 then
        if ¬ w.dev.fnDelivers fn then w.wbError fn r
        else (w.wrH (busAddr a) c.bytes).upd fun d => counted (d.setRing fn r { x with held := rest })
      else if w.dev.checkRange (w.dev.ringJob fn r) a 32 true ≠ 0 then w.wbError fn r
      else (w.wr a c.bytes).upd fun d => counted (d.setRing fn r { x with held := rest })

/-- A vector sends once a held cause's interval has passed (R304). -/
def Dev.msix (d : Dev) (fn v : Nat) : Dev :=
  let x := d.vec fn v
  if x.causes.any fun c => vecDue x d.time c.modUs then d.fireVec fn v else d

/-- The host clears a vector's mask; a pending vector sends (R304). -/
def Dev.unmask (d : Dev) (fn v : Nat) : Dev :=
  let x := d.vec fn v
  if v < 32 ∧ x.masked then
    let d := d.setVec fn v { x with masked := false }
    if x.pend then d.fireVec fn v else d
  else d

/-! ### Jobs (R282) -/

/-- Sets RESULT of a function's HOST_JOB_STATUS. -/
def Dev.jobResult (d : Dev) (fn res : Nat) : Dev := d.setReg (d.fnHome fn) (winOff fn 0x510) (w32 (res * 2 ^ 28))

/-- The lowest free key slot. -/
def Dev.freeSlot (d : Dev) : Option Nat :=
  let used := d.host.jobs.map (·.2.slot) ++ d.host.goneSlots.map (·.1)
  (List.range 4096).find? fun k => ¬ used.contains k

/-- CREATE (R282). -/
def Dev.jobCreate (d : Dev) (fn : Nat) : Dev :=
  let h := d.fnHome fn
  let id := d.rn h (winOff fn 0x500)
  if id = 0 then d.jobResult fn 7
  else if (d.job id).isSome then d.jobResult fn 2
  else
    match d.freeSlot with
    | none => d.jobResult fn 3
    | some slot =>
      let j : Job := { client := clientOf fn, fn := fn, seed := d.reg64 h (winOff fn 0x504), slot := slot,
                       keyEpoch := d.host.nextEpoch, genNext := 1, remote := false, guarded := false,
                       trainOn := false, trainTied := 0, trainBase := 0, trainCount := 0 }
      ((d.setJob id j).onHost fun s => { s with nextEpoch := s.nextEpoch + 1 }).jobResult fn 1

/-- Whether a job has an admitted instance that has not completed. -/
def Dev.jobBusy (d : Dev) (job : Nat) : Bool := d.tgu.insts.any fun p => p.2.job = job

/-- Takes a job out of residence: its frame-locked graphs, buffers and key slot (R246, R265, R282). -/
def Wk.removeJob (w : Wk) (job : Nat) : Wk :=
  match w.dev.job job with
  | none => w
  | some j =>
    let w := (w.disarm fun g => g.job = job).1
    let w := w.dropBuffers job
    w.upd fun d =>
      (d.onHost fun s =>
        { s with jobs := adel s.jobs job, goneSlots := s.goneSlots ++ [(j.slot, j.keyEpoch)] }).dropGoneSlots.dropJobState job

/-- FORCE_REMOVE of a job: aborts, halts its rings ABORTED, removes it (R282). -/
def Wk.forceRemove (w : Wk) (job : Nat) : Wk :=
  let rings := w.dev.boundRings job
  let seqs := (w.dev.tgu.insts.filter fun p => p.2.job = job).map (·.1)
  let w := seqs.foldl (fun w s => (w.abortInst s).1) w
  let w := rings.foldl (fun w fr => (w.abortQueued fr.1 fr.2 fun _ => true).1) w
  let w := (w.disarm fun g => g.job = job).1
  let w := rings.foldl (fun w fr => w.haltRing fr.1 fr.2 job stAborted) w
  w.removeJob job

/-- A write to HOST_JOB_CTL (R282). -/
def Wk.jobCtl (w : Wk) (fn action : Nat) : Wk :=
  let h := w.dev.fnHome fn
  let id := w.dev.rn h (winOff fn 0x500)
  if action = 0 then w
  else if action = 1 then w.upd (·.jobCreate fn)
  else if id = 0 then w.upd (·.jobResult fn 7)
  else
    match w.dev.job id with
    | none => w.upd (·.jobResult fn 5)
    | some j =>
      if j.client ≠ clientOf fn then w.upd (·.jobResult fn 5)
      else if action = 2 then
        if w.dev.jobBusy id then w.upd (·.jobResult fn 4) else (w.removeJob id).upd (·.jobResult fn 1)
      else (w.forceRemove id).upd (·.jobResult fn 1)

/-! ### Function Level Reset (R281) -/

/-- Drops every record a function's rings still owe, now and later. -/
def Dev.muteRings (d : Dev) (fn : Nat) : Dev :=
  (List.range 16).foldl (fun d r => d.setRing fn r { d.ring fn r with broken := true, held := [] }) d

/-- Kills the uncommitted commands of a function's rings without records. -/
def Wk.killFnInsts (w : Wk) (fn : Nat) : Wk :=
  let seqs := (w.dev.tgu.insts.filter fun p => p.2.fn = fn).map (·.1)
  let w := seqs.foldl (fun w s => w.killAll s stAborted) w
  w.upd fun d => d.onTgu fun t =>
    { t with insts := t.insts.filter fun p => p.2.fn ≠ fn, frames := t.frames.filter fun p => p.2.fn ≠ fn }

/-- Returns registers of a function's client window to their reset values: rings, event ring and job registers, and
for a VF its accounting. -/
def Dev.resetWindow (d : Dev) (fn : Nat) : Dev :=
  let h := d.fnHome fn
  let lo := h.code * 2 ^ 24 + winOff fn 0
  let hi := lo + (if fn = 0 ∨ fn = 0x40 then 0x700 else 0x800)
  { d with regs := d.regs.filter (fun p => ¬ (lo ≤ p.1 ∧ p.1 < hi)),
           hold := d.hold.filter (fun p => ¬ (lo ≤ p.1 ∧ p.1 < hi)) }

/-- A Function Level Reset. -/
def Wk.flr (w : Wk) (fn : Nat) : Wk :=
  if (w.dev.fnHalf fn).isNone then w
  else
    let w := (w.upd fun d => (d.setFunc fn { d.func fn with pagesOn := false }).muteRings fn).killFnInsts fn
    let w := w.upd fun d =>
      let d := d.dropClientRegions (clientOf fn)
      ((d.onHost fun s => { s with rings := s.rings.filter fun p => p.1 / 16 ≠ fn }).setFunc fn Func.cold).resetWindow fn
    let jobs := (w.dev.host.jobs.filter fun p => p.2.fn = fn).map (·.1)
    let w := jobs.foldl (fun w j => w.forceRemove j) w
    w.post (w.dev.fnHome fn) fn { kind := 0xE, d0 := fn * 256 }

/-! ### BAR4 (R280) -/

/-- The address of a BAR4 access and whether it is allowed. -/
def Dev.bar4 (d : Dev) (fn off n : Nat) (write : Bool) : Option (Nat × Bool) :=
  match d.fnHalf fn with
  | none => none
  | some h =>
    if fn ≠ 0 ∧ fn ≠ 0x40 then none
    else
      let a := d.reg64 h Reg.HOST_BAR4_BASE_LO + off
      let jr := d.rn h Reg.HOST_BAR4_JOB
      let job := bits jr 0 20
      let ok := bit jr 31 && localMapped a && localMapped (a + n - 1) && decide (off + n ≤ 2 ^ 36)
        && (if job = 0 then decide (d.top.lifecycle = .debugUnlocked) else d.checkRange job a n write = 0)
      some (a, ok)

/-- Counts a refused BAR4 access; one that the protection check refused counts there too (R271). -/
def Dev.bar4Refuse (d : Dev) (fn a : Nat) : Dev :=
  let h := d.fnHome fn
  let d := d.count h Reg.HOST_BAR4_REFUSED_LO 1
  let jr := d.rn h Reg.HOST_BAR4_JOB
  if bit jr 31 ∧ bits jr 0 20 ≠ 0 ∧ isLocal a then d.count (halfOf a) Reg.MEM_ACCESS_DENIED_LO 1 else d

/-- A host read through BAR4. -/
def Wk.bar4Read (w : Wk) (fn off n : Nat) : Wk :=
  match w.dev.bar4 fn off n false with
  | none => w
  | some (a, ok) =>
    if ¬ ok then w.upd fun d => { d.bar4Refuse fn a with resp := .completerAbort }
    else
      match w.dev.poisonIn a n with
      | some k => w.upd fun d => { d.count (halfOf k) Reg.MEM_POISON_READ_LO 1 with resp := .completerAbort }
      | none =>
        let bs := w.rdN a n
        w.upd fun d => { d with resp := .bytes bs }

/-- A host write through BAR4. -/
def Wk.bar4Write (w : Wk) (fn off : Nat) (bs : List Byte) : Wk :=
  match w.dev.bar4 fn off bs.length true with
  | none => w
  | some (a, ok) => if ¬ ok then w.upd (·.bar4Refuse fn a) else w.wr a bs

/-! ### Meanings -/

/-- HOST_DB_SQ_TAIL. -/
def execHostDbSqTail (fn ring : Nat) (value : Word32) (now : Nat) (s : State) : Host.Outcome State Fault Refusal :=
  finish s ((s.start.at_ now).sqTail fn ring value)

/-- HOST_DB_CQ_HEAD. -/
def execHostDbCqHead (fn ring : Nat) (value : Word32) (s : State) : Host.Outcome State Fault Refusal :=
  onDev s (·.cqHead fn ring value)

/-- HOST_DB_ABORT_TAG_HI, with a _LO write before it, if any; with no value, the _LO write alone. -/
def execHostDbAbortTagHi (fn ring : Nat) (lo : Option Word32) (value : Option Word32) (now : Nat) (s : State) :
    Host.Outcome State Fault Refusal :=
  finish s ((s.start.at_ now).abortDoorbell fn ring lo value)

/-- HOST_DB_EVT_HEAD. -/
def execHostDbEvtHead (fn ring : Nat) (value : Word32) (now : Nat) (s : State) : Host.Outcome State Fault Refusal :=
  finish s ((s.start.at_ now).evtHead fn ring value)

/-- RING_DRAINED. -/
def execRingDrained (fn ring : Nat) (s : State) : Host.Outcome State Fault Refusal := onDev s (·.drained fn ring)

/-- SQ_HEAD_WRITEBACK. -/
def execSqHeadWriteback (fn ring now : Nat) (s : State) : Host.Outcome State Fault Refusal :=
  finish s ((s.start.at_ now).headWb fn ring)

/-- RECORD_WRITEBACK. -/
def execRecordWriteback (fn ring now : Nat) (s : State) : Host.Outcome State Fault Refusal :=
  finish s ((s.start.at_ now).writeRecord fn ring)

/-- MSIX_MESSAGE. -/
def execMsixMessage (fn vector now : Nat) (s : State) : Host.Outcome State Fault Refusal :=
  onDev s fun d => (d.at_ now).msix fn vector

/-- MSIX_VECTOR_UNMASK. -/
def execMsixVectorUnmask (fn vector now : Nat) (s : State) : Host.Outcome State Fault Refusal :=
  onDev s fun d => (d.at_ now).unmask fn vector

/-- BAR4_READ. -/
def execBar4Read (fn off len : Nat) (s : State) : Host.Outcome State Fault Refusal := finish s (s.start.bar4Read fn off len)

/-- BAR4_WRITE. -/
def execBar4Write (fn off : Nat) (data : List Byte) (s : State) : Host.Outcome State Fault Refusal :=
  finish s (s.start.bar4Write fn off data)

/-- Changes one host port. -/
def Dev.onPort (d : Dev) (h : Half) (f : Port → Port) : Dev :=
  d.onHost fun s => { s with ports := s.ports.set h (f (s.ports.get h)) }

/-- The Device ID of a function (R276). -/
def deviceId (fn : Nat) : Nat := if fn = 0 then 0x0C40 else if fn = 0x40 then 0x0C42 else 0x0C41

/-- The size of a BAR of a function, 0 for one it has not, and whether it is prefetchable (R276). -/
def barOf (fn n : Nat) : Nat × Bool :=
  let vf := fn != 0 && fn != 0x40
  if n = 0 then (if vf then 2 ^ 13 else 2 ^ 25, false)
  else if n = 2 then (2 ^ 16, false)
  else if n = 4 ∧ ¬ vf then (2 ^ 36, true)
  else (0, false)

/-- What a BAR reads after all ones are written to it: a 64-bit memory BAR of its size, bit 3 for prefetchable. -/
def barSizing (fn n : Nat) : Nat :=
  let b := barOf fn n
  if b.1 = 0 then 0 else 2 ^ 64 - b.1 + 4 + b2n b.2 * 8

/-- The value of a configuration register of a function. -/
def Dev.configRead (d : Dev) (half : Half) (fn : Nat) (reg : ConfigReg) : List Byte :=
  match reg with
  | .id => toBytes 4 (deviceId fn * 2 ^ 16 + Config.vendorId.toNat)
  | .classRevision => toBytes 4 (0x120000 * 2 ^ 8 + d.top.stepping % 16)
  | .bar n => toBytes 8 (barSizing fn n)
  | .payload => toBytes 4 (d.func fn).payload
  | .readRequest => toBytes 4 (d.func fn).readReq
  | .power => toBytes 4 (if (d.func fn).d3hot then 3 else 0)
  | .numVfs => toBytes 4 (if fn = 0 then (d.host.ports.get half).numVfs else 0)

/-- A write to a configuration register; a setting that R275 does not list changes nothing (DESIGN CHOICE). The spec gives these
settings no other effect. -/
def Dev.configWrite (d : Dev) (half : Half) (fn : Nat) (reg : ConfigReg) (v : Nat) : Dev :=
  let f := d.func fn
  match reg with
  | .payload => if v ≤ 2 then d.setFunc fn { f with payload := v } else d
  | .readRequest => if v ≤ 5 then d.setFunc fn { f with readReq := v } else d
  | .power => if v = 0 ∨ v = 3 then d.setFunc fn { f with d3hot := v == 3 } else d
  | .numVfs => if fn = 0 ∧ v ≤ 63 then d.onPort half fun p => { p with numVfs := v } else d
  | .id => d
  | .classRevision => d
  | .bar _ => d

/-- A configuration request to a function of a port: Retry Status until the port's configuration space is ready (R277), then
the function answers; a function the port does not present answers Unsupported Request. -/
def Dev.configRequest (d : Dev) (r : ConfigRequest) : Dev :=
  if ¬ (d.host.ports.get r.half).cfgReady then { d with resp := .retryStatus }
  else if d.fnHalf r.fn ≠ some r.half then { d with resp := .unsupported }
  else
    match r.value with
    | none => { d with resp := .bytes (d.configRead r.half r.fn r.reg) }
    | some v => { d.configWrite r.half r.fn r.reg v with resp := .ok }

/-- CONFIGURATION_REQUEST. -/
def execConfigurationRequest (req : ConfigRequest) (s : State) : Host.Outcome State Fault Refusal :=
  onDev s fun d => d.configRequest req

/-- PERST_N of a port: its deassertion after the election has named the lead port makes the port present its functions;
its assertion takes the port down (R277, R492 step 4). -/
def Dev.perst (d : Dev) (h : Half) (deasserted : Bool) : Dev :=
  if deasserted then d.onPort h fun p => { p with perst := true, cfgReady := d.top.portLead.isSome }
  else
    let d := (allFns.filter fun fn => d.fnHalf fn = some h).foldl
      (fun d fn => d.setFunc fn { d.func fn with payload := 0, readReq := 2, d3hot := false }) d
    d.onPort h fun _ => Port.cold

/-- PERST_N. -/
def execPerstN (half : Half) (now : Nat) (deasserted : Bool) (s : State) : Host.Outcome State Fault Refusal :=
  onDev s fun d => (d.at_ now).perst half deasserted

/-- The SC fences the doorbell pages of the functions that satisfy a test (R19, place 1). -/
def Dev.fencePages (d : Dev) (p : Nat → Bool) : Dev :=
  (allFns.filter p).foldl (fun d fn => d.setFunc fn { d.func fn with pagesOn := false }) d

/-- VF Enable of the lead port's SR-IOV capability; clearing it takes the VFs' pages away (R277). -/
def Dev.vfEnable (d : Dev) (on : Bool) : Dev :=
  match d.top.portLead with
  | none => d
  | some h =>
    let d := d.onPort h fun p => { p with vfEnable := on }
    if on then d else d.fencePages fun fn => fn != 0 && fn != 0x40

/-- VF_ENABLE. -/
def execVfEnable (now : Nat) (on : Bool) (s : State) : Host.Outcome State Fault Refusal :=
  onDev s fun d => (d.at_ now).vfEnable on

/-- Whether the SC may enable a function's pages (R277, R507). -/
def Dev.mayEnable (d : Dev) (fn : Nat) : Bool :=
  d.top.ready && !d.top.stopped && !d.top.maintStop &&
    (match d.fnHalf fn with
     | none => false
     | some h => fn == 0 || fn == 0x40 || (d.host.ports.get h).vfEnable)

/-- DOORBELL_ENABLE (R277). -/
def execDoorbellEnable (fn now : Nat) (s : State) : Host.Outcome State Fault Refusal :=
  onDev s fun d =>
    let d := d.at_ now
    if d.mayEnable fn then d.setFunc fn { d.func fn with pagesOn := true } else d

/-- The lanes a PCIe link trains to: the widest width of R275 that is not above what the lanes could carry (R11; that an
unsupported setting falls back to the next one below is a DESIGN CHOICE). -/
def linkWidth (w : Nat) : Nat := if 16 ≤ w then 16 else if 8 ≤ w then 8 else if 4 ≤ w then 4 else min w 1

/-- The code of the rate a PCIe link trains to: 64 GT/s is the highest (R11, R275). -/
def linkSpeed (s : Nat) : Nat := min s 6

/-- A change of a port's PCIe link (R275, HOST_LINK_STATUS of R305). A link of no lanes or no rate is down. -/
def execPcieLinkState (half : Half) (speed width : Nat) (flit ide : Bool) (now : Nat) (s : State) :
    Host.Outcome State Fault Refusal :=
  let speed := if linkWidth width = 0 then 0 else linkSpeed speed
  onDev s fun d =>
    (d.at_ now).onPort half fun p =>
      { p with speed := speed, width := (if speed = 0 then 0 else linkWidth width), flit := flit && speed != 0,
               ide := ide && speed != 0, ideStopped := if ide then false else p.ideStopped }

/-- SQ_HEAD passes the descriptor at the head of a ring. -/
def Dev.passHead (d : Dev) (fn r : Nat) : Dev :=
  let x := d.ring fn r
  d.setRing fn r { x with sqHead := (x.sqHead + 1) % 2 ^ 32, wbDue := true, skip := x.skip.filter (· ≠ x.sqHead) }

/-- A descriptor at the head completes with only its graph record, with a status of class JOB_FATAL (R294, R306). -/
def Wk.gsdFail (w : Wk) (fn r tag status : Nat) (irq : Bool) : Wk :=
  let job := w.dev.ringJob fn r
  let w := w.upd fun d =>
    ((d.passHead fn r).handGraph fn r (recBytes tag 0 0 0xFFFFFFFF 0 0 status true 0) irq).count .west
      Reg.TOP_ERR_JOB_FATAL_LO 1
  let w := w.postJob w.dev.leadHalf { kind := 1, cls := 3, status := status, job := job, tag := tag, island := tguIsland w.dev.leadHalf }
  w.jobFatal job status

/-- A host read of a descriptor ends in error: the descriptor counts as admitted and completes with only a graph
record (R306). -/
def Wk.gsdError (w : Wk) (fn r : Nat) : Wk :=
  let x := w.dev.ring fn r
  if x.st ≠ .enabled ∨ x.exposed.isEmpty then w
  else (w.upd fun d => d.count (d.fnHome fn) Reg.HOST_GRAPHS_ADMITTED_LO 1).gsdFail fn r 0 stDenied false

/-- HOST_READ_ERROR (R237, R306). -/
def execHostReadError (fn ring inst node : Nat) (descriptor : Bool) (now : Nat) (s : State) :
    Host.Outcome State Fault Refusal :=
  let w := s.start.at_ now
  finish s (if descriptor then w.gsdError fn ring else w.fail inst node stDenied 0)

/-- A HOST write of a command ends in error (R580): before step 3 the command fails; after it, an event and the job-fatal
step. -/
def Wk.commandWriteError (w : Wk) (seq i job nodeId tag attempt addr : Nat) : Wk :=
  match w.dev.inst seq, w.dev.node seq i with
  | some x, some n =>
    if n.st ≠ .done then w.fail seq i stDenied addr else w.lateHostError (w.dev.fnHome x.fn) x.job x.tag n.id n.attempt addr
  | _, _ => if (w.dev.job job).isNone then w else w.lateHostError (w.dev.fnHome (w.dev.jobFn job)) job tag nodeId attempt addr

/-- An error report names a host write (R289, R306, R580). The ring's number of an Event Record so lost was taken when it was
written, and its slot stays as it is (DESIGN CHOICE). -/
def Wk.hostWriteError (w : Wk) (x : HostWrite) (job nodeId tag addr : Nat) : Wk :=
  match x with
  | .command seq i attempt => w.commandWriteError seq i job nodeId tag attempt addr
  | .record fn r => if (w.dev.ring fn r).st = .disabled then w else w.wbError fn r
  | .event fn => if (w.dev.func fn).evt.on then w.upd (·.evtDrop fn 0) else w

/-- HOST_WRITE_ERROR. -/
def execHostWriteError (target : HostWrite) (job nodeId tag addr now : Nat) (s : State) : Host.Outcome State Fault Refusal :=
  finish s ((s.start.at_ now).hostWriteError target job nodeId tag addr)

end Sys2Proof.Machine
end

