-- ==== Sys2Proof/Machine/Boot.lean ====
section
/-! DEFINITION. Power, reset, boot, election and the way to READY (R489 to R499), and facet retirement (R537). -/

namespace Sys2Proof.Machine

open Sys2Proof

/-! ### Facets that may run -/

/-- Raises a half's HM floor at a retirement (R467). -/
def Dev.raiseFloor (d : Dev) (h : Half) : Dev :=
  let x := d.hm.get h
  let bump := bits (d.rn h Reg.HM_CFG) 4 4
  { d with hm := d.hm.set h { x with floor := min 15 (x.floor + bump), floorAt := d.time } }

/-- Island of a facet (R21). -/
def facetIsland (f : Nat) : Nat :=
  let g := f % 160
  (if f < 160 then 0 else 19) + (if g / 16 < 5 then 0 else 2) + (if g % 16 < 8 then 0 else 1)

/-- Retires a facet: it leaves every eligible set, attempts on it re-run elsewhere uncounted, its event is written and
its half's floor rises (R537). The retirement list in flash follows within a second. -/
def Wk.retire (w : Wk) (f : Nat) : Wk :=
  let h := facetHalf f
  let w := w.upd fun d => (d.setPic f { d.picOf f with retired := true, quar := false, slice := none }).evictRetained f
  let users := w.dev.tgu.insts.flatMap fun p =>
    (List.range p.2.nodes.length).filterMap fun i =>
      match p.2.nodes[i]? with
      | some n => if n.facets.contains f then some (p.1, i) else none
      | none => none
  let w := users.foldl (fun w u => w.killRerun u.1 u.2 false) w
  let w := w.post h 0
    { kind := 5, island := facetIsland f, d0 := h.code * 256 + f % 160 / 16 * 16 + f % 160 % 16 }
  w.upd (·.raiseFloor h)

/-! ### Reset (R490 to R492, R499) -/

/-- The flash after a reset: a slot being staged is INVALID, and so is a staged image that did not reach READY on its
first boot (R532, R533). -/
def Flash.afterReset (f : Flash) : Flash :=
  let fix (s : FlashSlot) : FlashSlot :=
    if s.st = .writing ∨ (s.st = .staged ∧ s.tried) then { s with st := .invalid } else s
  { f with images := ⟨fix f.images.w, fix f.images.e⟩, records := ⟨fix f.records.w, fix f.records.e⟩ }

/-- The lifecycle after a reset: DEBUG_UNLOCKED lasts until RESET_N (R526). -/
def Lifecycle.afterReset : Lifecycle → Lifecycle
  | .debugUnlocked => .deployed
  | l => l

/-- The device after RESET_N: cold, with its fuses, flash and TOP_FATAL_STATUS kept (R491). The keys pages were written
under stay known to the model as the keys they no longer have. -/
def Dev.coldAgain (d : Dev) (pref : Half) (level : Bool) : Dev :=
  let t := d.top
  let r0 := Config.freeWord d.free
  let r1 := Config.freeWord (d.free + 1)
  let c := Top.cold t.grade t.stepping t.fusedOff t.lifecycle.afterReset t.ownerHash t.minSvn t.fatal
    t.flash.afterReset pref (w32 r0.toNat) (w32 r1.toNat)
  let sc (h : Half) : Sc :=
    { Sc.cold with st := if level then .starting else .off, temps := (t.sc.get h).temps, stackTemp := (t.sc.get h).stackTemp }
  let c := { c with resetN := level, thermAlert := t.thermAlert, identityKey := t.identityKey,
                    sc := ⟨sc .west, sc .east⟩, maintBoot := t.maintStop || (t.maintBoot && !t.resetN), xspiReset := !level,
                    jtag := t.jtag }
  let x := Dev.cold c ⟨d.hm.w.prior, d.hm.e.prior⟩ (d.free + 2)
  { x with host := { x.host with pageKey := d.host.pageKey, ciphers := d.host.ciphers, nextEpoch := d.host.nextEpoch } }

/-- PWR_GOOD rises (R490, R564). -/
def Dev.powerRise (d : Dev) : Dev :=
  if d.top.pwrGood then d else d.onTop fun t => { t with pwrGood := true, xspiReset := true }

/-- RESET_N is asserted: the device stops at once (R491). -/
def Dev.resetAssert (d : Dev) : Dev := if d.top.resetN then d.coldAgain .west false else d

/-- PWR_GOOD falls: as RESET_N, and TOP_FATAL_STATUS clears (R491). -/
def Dev.powerFall (d : Dev) : Dev :=
  if ¬ d.top.pwrGood then d
  else
    (d.coldAgain .west false).onTop fun t =>
      { t with pwrGood := false, fatal := ⟨false, 0, 0, 0⟩, thermAlert := false, maintBoot := false }

/-- RESET_N is deasserted: LEAD_PREF is sampled, time starts at 0, the SCs start from ROM (R490, R492, R494). -/
def Dev.resetRelease (d : Dev) (pref : Half) : Dev := if d.top.pwrGood ∧ ¬ d.top.resetN then d.coldAgain pref true else d

/-- PWR_GOOD_RISE. -/
def execPwrGoodRise (s : State) : Host.Outcome State Fault Refusal := onDev s (·.powerRise)
/-- PWR_GOOD_FALL. -/
def execPwrGoodFall (s : State) : Host.Outcome State Fault Refusal := onDev s (·.powerFall)
/-- RESET_N_ASSERT. -/
def execResetNAssert (s : State) : Host.Outcome State Fault Refusal := onDev s (·.resetAssert)
/-- RESET_N_DEASSERT. -/
def execResetNDeassert (pref : Half) (s : State) : Host.Outcome State Fault Refusal := onDev s (·.resetRelease pref)

/-! ### Messages over the bridge and to the BMC -/

/-- A 16-byte bridge message with its CRC (R457, R496). -/
def bridgeMsg (a b c : Nat) : List Byte :=
  let bs := toBytes 4 a ++ toBytes 4 b ++ toBytes 4 c
  bs ++ toBytes 4 (crc32c bs)

/-- The three words of a bridge message whose CRC holds. -/
def parseBridge (m : List Byte) : Option (Nat × Nat × Nat) :=
  if m.length = 16 ∧ crc32c (m.take 12) = fld m 12 4 then some (fld m 0 4, fld m 4 4, fld m 8 4) else none

/-- Changes one half's lead view. -/
def Dev.onLead (d : Dev) (h : Half) (f : LeadView → LeadView) : Dev :=
  d.onTop fun t => { t with lead := t.lead.set h (f (t.lead.get h)) }

/-- Changes one half's SC. -/
def Dev.onSc (d : Dev) (h : Half) (f : Sc → Sc) : Dev := d.onTop fun t => { t with sc := t.sc.set h (f (t.sc.get h)) }

/-- Sends a LEAD_REQUEST over a half's I3C target (R459, R512): KIND 1 CONFIRM, 2 TAKEOVER. -/
def Dev.leadRequest (d : Dev) (h : Half) (kind : Nat) : Dev :=
  let v := d.top.lead.get h
  (d.toBmc h 0x05 (toBytes 1 (h.code + 2 * kind + 8 * v.health) ++ toBytes 4 v.term)).onLead h fun v =>
    { v with reqKind := kind, reqAt := some d.time }

/-! ### Boot (R495, R533) -/

/-- The slot an SC tries first and second: a STAGED image at a full maintenance stop, else the ACTIVE one, and the
other slot when it holds an image. -/
def bootOrder (t : Top) : Option Half × Option Half :=
  let f := t.flash.images
  let find (p : FlashSlot → Bool) : Option Half := if p f.w then some .west else if p f.e then some .east else none
  let act := find fun s => s.st = .active
  let stg := if t.maintBoot then find fun s => s.st = .staged else none
  match stg with
  | some h => (some h, act)
  | none => (act, find fun s => s.st = .previous)

/-- Sends this half's ELECT (R496). -/
def Dev.sendElect (d : Dev) (h : Half) : Dev :=
  let v := d.top.lead.get h
  let m := bridgeMsg (0x01 * 2 ^ 24 + v.health * 4 + v.pref.code * 2 + h.code) ((d.top.sc.get h).digest % 2 ^ 32) 0
  (d.emit (.bridge h m)).onLead h fun v => { v with electAt := some (v.electAt.getD d.time) }

/-- The directory is written: the copy that is due, with the next generation (R530). -/
def Flash.dirWrite (f : Flash) : Flash := { f with dirGen := f.dirGen + 1, dirCopy := !f.dirCopy }

/-- Loads the board configuration record: FAB_DEVICE_ID, mem clk and FAB_PORT_CFG (step 3 of R492), taking a STAGED
record at a full maintenance stop (R533). -/
def Dev.loadBoard (d : Dev) : Dev :=
  let f := d.top.flash.records
  let stg : Option Half := if d.top.maintBoot then (if f.w.st = .staged then some .west else if f.e.st = .staged then some .east else none) else none
  let f : Both FlashSlot :=
    match stg with
    | none => f
    | some h =>
      let o := h.other
      let f := if (f.get o).st = .active then f.set o { f.get o with st := .previous } else f
      f.set h { f.get h with st := .active }
  let r := if f.w.st = .active then f.w else f.e
  let d := d.onTop fun t => { t with flash := (if stg.isSome then { t.flash with records := f }.dirWrite else t.flash), memClk := r.memClk, stage := .training }
  let d := (d.setReg .west Reg.FAB_DEVICE_ID (w32 r.devId)).setReg .east Reg.FAB_DEVICE_ID (w32 r.devId)
  let d := (List.range 32).foldl
    (fun d b => d.setReg (if b < 16 then .west else .east) (Reg.FAB_PORT_CFG + 4 * (b % 16)) (r.portCfg.getD b 0xA0000000)) d
  d.onHost fun s =>
    { s with ports := ⟨{ s.ports.w with cfgReady := s.ports.w.perst }, { s.ports.e with cfgReady := s.ports.e.perst }⟩ }

/-- Records a fault of the SC without stopping a running device: FAULT_N and TOP_FATAL_STATUS (R495, R496). -/
def Dev.scFault (d : Dev) (h : Half) : Dev :=
  d.onTop fun t => { t with faultN := true, fatal := ⟨true, 0, 6, scIsland h⟩ }

/-- One half decides the election by the first row of R496 that applies. -/
def Dev.decideElection (d : Dev) (h : Half) : Dev :=
  let v := d.top.lead.get h
  let sc := d.top.sc.get h
  if sc.st ≠ .booted ∨ v.st ≠ .electing ∨ v.granted ∨ v.reqKind ≠ 0 then d
  else
    match v.peerElect with
    | none => d
    | some (hl, dg) =>
      if hl = 1 then (d.leadRequest h 2).onLead h fun v => { v with lapseAt := some d.time }
      else if v.health = 1 then d.onLead h fun v => { v with lapseAt := some (v.lapseAt.getD d.time) }
      else if dg ≠ sc.digest % 2 ^ 32 then ((d.emit (.report h 1)).scFault h)
      else
        let d := d.onLead h fun v => { v with st := .normal, lead := v.pref, term := 1, lastValid := d.time }
        let d := d.onTop fun t => { t with portLead := some v.pref }
        if (d.top.lead.get h.other).st = .normal then d.loadBoard else d

/-- An SC finishes its boot (R495, R524, R533). -/
def Dev.scBoot (d : Dev) (h : Half) (selfTestOk firstOk secondOk : Bool) : Dev :=
  let sc := d.top.sc.get h
  if sc.st ≠ .starting ∨ ¬ d.top.resetN ∨ (h = .east ∧ d.top.sc.w.st = .starting) then d
  else
    let (a, b) := bootOrder d.top
    let pick : Option Half := if a.isSome && firstOk then a else if b.isSome && secondOk then b else none
    let markTried (d : Dev) : Dev :=
      d.onTop fun t =>
        let fix (s : FlashSlot) : FlashSlot := if t.maintBoot ∧ s.st = .staged then { s with tried := true } else s
        { t with flash := { t.flash with images := ⟨fix t.flash.images.w, fix t.flash.images.e⟩ } }
    match (if selfTestOk then pick else none) with
    | none =>
      let d := (d.onSc h fun s => { s with st := if selfTestOk then .recovery else .error }).emit (.report h 0)
      let o := (d.top.sc.get h.other).st
      if o = .recovery ∨ o = .error then d.scFault h else d
    | some k =>
      let d := (markTried d).onSc h fun s => { s with st := .booted, slot := k, digest := (d.top.flash.images.get k).digest,
                                                      watchdog := d.time, selfTest := d.time }
      let d := d.onTop fun t => { t with stage := if t.stage = .boot then .election else t.stage }
      (d.sendElect h).decideElection h

/-- An ELECT arrives (R496, R497). One that repeats the last decides nothing again. -/
def Dev.elect (d : Dev) (h : Half) (m : List Byte) : Dev :=
  match parseBridge m with
  | none => d
  | some (a, dg, _) =>
    let v := d.top.lead.get h
    if a / 2 ^ 24 ≠ 1 ∨ a % 2 ≠ h.other.code ∨ v.granted ∨ v.st ≠ .electing ∨ v.peerElect = some (bits a 2 1, dg) then d
    else (d.onLead h fun v => { v with peerElect := some (bits a 2 1, dg) }).decideElection h

/-- No peer ELECT within 200 ms of the half's own first one (R496). -/
def Dev.electTimeout (d : Dev) (h : Half) : Dev :=
  let v := d.top.lead.get h
  match v.electAt with
  | none => d
  | some t =>
    if v.st = .electing ∧ v.peerElect = none ∧ v.reqKind = 0 ∧ ¬ v.granted ∧ t + 200000000 ≤ d.time then
      (d.leadRequest h 2).onLead h fun v => { v with lapseAt := some d.time }
    else d

/-- SC_BOOT. -/
def execScBoot (half : Half) (now : Nat) (selfTestOk firstOk secondOk : Bool) (s : State) :
    Host.Outcome State Fault Refusal :=
  onDev s fun d => (d.at_ now).scBoot half selfTestOk firstOk secondOk
/-- ELECT. -/
def execElect (half : Half) (now : Nat) (msg : List Byte) (s : State) : Host.Outcome State Fault Refusal :=
  onDev s fun d => (d.at_ now).elect half msg
/-- ELECTION_TIMEOUT. -/
def execElectionTimeout (half : Half) (now : Nat) (s : State) : Host.Outcome State Fault Refusal :=
  onDev s fun d => (d.at_ now).electTimeout half

/-! ### Training, baseline, READY (R492, R498) -/

/-- Island of the controllers of a stack (R21). -/
def stackIsland (k : Nat) : Nat := if k < 8 then 11 + k / 2 else 30 + (k - 8) / 2

/-- The stacks a device needs: all 16, or its survivor's 8. -/
def Dev.stacksNeeded (d : Dev) : List Nat :=
  if d.top.degraded then (if d.leadHalf = .west then List.range 8 else (List.range 8).map (· + 8)) else List.range 16

/-- Stack training ends; `up` tells which stacks trained, after a second try (R498). -/
def Wk.stackTraining (w : Wk) (up : BitVec 16) : Wk :=
  if w.dev.top.stage ≠ .training ∨ w.dev.top.stopped then w
  else
    let w := w.upd fun d => d.onTop fun t => { t with stackUp := up.toNat }
    match w.dev.stacksNeeded.find? fun k => ¬ bit up.toNat k with
    | some k => w.deviceFatal (if k < 8 then .west else .east) stUncorrectable 4 (stackIsland k) true 0
    | none => w.upd fun d => d.onTop fun t => { t with stage := .baseline }

/-- A booted staged image that reaches READY becomes ACTIVE (R533). -/
def Top.adopt (t : Top) (k : Half) : Top :=
  let f := t.flash.images
  if (f.get k).st ≠ .staged then t
  else
    let o := k.other
    let f := if (f.get o).st = .active then f.set o { f.get o with st := .previous } else f
    let f := f.set k { f.get k with st := .active, tried := false }
    { t with flash := { t.flash with images := f }.dirWrite,
             minSvn := if (f.get k).raise then max t.minSvn (f.get k).svn else t.minSvn }

/-- The baseline rotation ends: failing facets are retired and READY is set (steps 7 and 8 of R492). -/
def Wk.baseline (w : Wk) (failed : List Nat) : Wk :=
  if w.dev.top.stage ≠ .baseline ∨ w.dev.top.stopped then w
  else
    let w := (failed.filter w.dev.facetOn).foldl (fun w f => w.retire f) w
    w.upd fun d => d.onTop fun t =>
      let k := if t.sc.w.st = .booted then t.sc.w.slot else t.sc.e.slot
      let t := t.adopt k
      { t with baselineDone := true, ready := true, stage := .ready, maintBoot := false }

/-- STACK_TRAINING_DONE. -/
def execStackTrainingDone (now : Nat) (up : BitVec 16) (s : State) : Host.Outcome State Fault Refusal :=
  finish s ((s.start.at_ now).stackTraining up)
/-- BASELINE_DONE. -/
def execBaselineDone (now : Nat) (failed : List Nat) (s : State) : Host.Outcome State Fault Refusal :=
  finish s ((s.start.at_ now).baseline failed)

/-- REFCLK_SYS stops: DEVICE_FATAL with cause SC_FAULT (R569). -/
def execRefclkSysStop (now : Nat) (s : State) : Host.Outcome State Fault Refusal :=
  finish s <|
    let w := s.start.at_ now
    if ¬ w.dev.top.pwrGood ∨ w.dev.top.stopped then w
    else (w.deviceFatal .west 0 6 39 false 0).upd fun d => d.onTop fun t => { t with refclkOk := false }

end Sys2Proof.Machine
end

