-- ==== Sys2Proof/Machine/Lead.lean ====
section
/-! DEFINITION. Which half is in charge (R457 to R464): the lease, the shadow's batches, lapse, takeover and split halt;
and detector reports (R444 to R455). -/

namespace Sys2Proof.Machine

open Sys2Proof

/-! ### The lease (R457) -/

/-- The STATE code of TOP_LEAD_STATUS. -/
def LeadSt.code : LeadSt → Nat
  | .electing => 0
  | .normal => 1
  | .lapsed => 2
  | .confirming => 3
  | .degraded => 4
  | .splitHalt => 5
  | .fenced => 6

/-- TOP_LEAD_STATUS as one half's window returns it (R464). -/
def Dev.leadStatus (d : Dev) (h : Half) : Nat :=
  let v := d.top.lead.get h
  v.st.code * 2 ^ 29 + v.lead.code * 2 ^ 28 + v.pref.code * 2 ^ 27 + h.code * 2 ^ 26 + v.bmc % 4 * 2 ^ 24 + v.term % 2 ^ 16

/-- Every 100 µs the lead sends a LEASE. -/
def Dev.leaseRenew (d : Dev) : Dev :=
  match d.leadOf with
  | none => d
  | some h =>
    let v := d.top.lead.get h
    let due : Bool := match v.leaseAt with | none => true | some t => decide (t + 100000 ≤ d.time)
    if v.st = .normal ∧ due then
      (d.emit (.bridge h (bridgeMsg v.term v.leaseSeq d.tgu.commits))).onLead h fun v =>
        { v with leaseAt := some d.time, leaseSeq := (v.leaseSeq + 1) % 2 ^ 32 }
    else d

/-- A LEASE reaches the shadow half, which answers with LEASE_ECHO. -/
def Dev.lease (d : Dev) (h : Half) (m : List Byte) : Dev :=
  let v := d.top.lead.get h
  match parseBridge m with
  | none => d
  | some (term, seq, mark) =>
    if v.st = .normal ∧ v.lead ≠ h ∧ term = v.term then
      (d.onLead h fun v => { v with lastValid := d.time, seenSeq := seq, seenMark := mark }).emit
        (.bridge h (bridgeMsg term seq d.tgu.ackedCommits))
    else d

/-- A LEASE_ECHO renews the lease at the lead. -/
def Dev.leaseEcho (d : Dev) (h : Half) (m : List Byte) : Dev :=
  let v := d.top.lead.get h
  match parseBridge m with
  | none => d
  | some (term, seq, mark) =>
    if v.st = .normal ∧ v.lead = h ∧ term = v.term then
      d.onLead h fun v => { v with lastValid := d.time, seenSeq := seq, seenMark := mark }
    else d

/-! ### Lapse (R459) -/

/-- No valid message for 2 ms: LAPSED, dispatch stops, LEAD_REQUEST goes to the BMC, CONFIRMING. Dispatch and commit
stop because no half then leads (`Dev.leadOf`). -/
def Dev.leaseLapse (d : Dev) (h : Half) : Dev :=
  let v := d.top.lead.get h
  if v.st = .normal ∧ v.lastValid + 2000000 ≤ d.time then
    let d := d.onLead h fun v => { v with st := .lapsed, lapseAt := some d.time }
    (d.leadRequest h (if v.lead = h then 1 else 2)).onLead h fun v => { v with st := .confirming }
  else d

/-- Every 20 ms without a reply the LEAD_REQUEST is sent again. -/
def Dev.requestResend (d : Dev) (h : Half) : Dev :=
  let v := d.top.lead.get h
  match v.reqAt with
  | none => d
  | some t =>
    if (v.st = .confirming ∨ v.st = .electing) ∧ v.reqKind ≠ 0 ∧ v.bmc = 0 ∧ t + 20000000 ≤ d.time then
      d.leadRequest h v.reqKind
    else d

/-- Whether a half can still be, or become, the half in charge. -/
def LeadSt.alive : LeadSt → Bool
  | .fenced => false
  | .splitHalt => false
  | _ => true

/-! ### Split halt (R462) -/

/-- Kills what has not passed step 3 among the commands of the functions that one half's port carries. -/
def Wk.haltFnsOf (w : Wk) (h : Half) : Wk :=
  let seqs := (w.dev.tgu.insts.filter fun p => w.dev.fnHalf p.2.fn = some h).map (·.1)
  seqs.foldl (fun w s => (w.killAll s stAborted).upd (·.closeInst s)) w

/-- 100 ms after the lapse without LEAD_REPLY. -/
def Wk.splitHalt (w : Wk) (h : Half) : Wk :=
  let v := w.dev.top.lead.get h
  match v.lapseAt with
  | none => w
  | some t =>
    if (v.st = .confirming ∨ v.st = .electing) ∧ t + 100000000 ≤ w.dev.time then
      let w := (w.haltFnsOf h).upd fun d => d.fencePages fun fn => d.fnHalf fn = some h
      w.upd fun d =>
        let d := d.onLead h fun v => { v with st := .splitHalt, bmc := 3 }
        let o := (d.top.lead.get h.other).st
        let f : FatalStatus := ⟨true, 0, 5, 0x3F⟩
        let d := d.onTop fun t =>
          { t with faultN := true, fatal := f, ready := t.ready && decide (o = .degraded),
                   stage := if o = .degraded then t.stage else .stopped, stopped := t.stopped || !o.alive }
        d.logFatal h { kind := 1, cls := 4 }
    else w

/-! ### Shadow batches (R458, R548) -/

/-- A batch reaches the shadow, which records it and acknowledges it: the commits sent, and the writes to lead-only
registers taken into it. A batch that fails its CRC is discarded and sent again. Completions of step 6 are reported
with it. -/
def Dev.shadowBatch (d : Dev) (intact : Bool) : Dev :=
  match d.leadOf with
  | none => d
  | some h =>
    if (d.top.lead.get h).st = .normal ∧ (d.top.lead.get h.other).st = .normal ∧ intact then
      d.onTgu fun t =>
        { t with batchSeen := t.batchSeen ++ t.batchOut, batchOut := [], ackedCommits := t.ackedCommits + t.batchOut.length,
                 lwrites := t.lwrites.map (fun x => { x with sent := true }),
                 shadowAcked := t.shadowAcked.filter fun k =>
                   match (aget t.insts k.1).bind (fun x => x.nodes[k.2]?) with
                   | some n => n.st ≠ .done
                   | none => false }
    else d

/-! ### LEAD_REPLY (R461, R463) -/

/-- Functions lost with a half's port: their commands end without records and their jobs are removed. -/
def Wk.loseFn (w : Wk) (fn : Nat) : Wk :=
  let w := (w.upd (·.muteRings fn)).killFnInsts fn
  let jobs := (w.dev.host.jobs.filter fun p => p.2.fn = fn).map (·.1)
  let w := jobs.foldl (fun w j => w.forceRemove j) w
  w.upd fun d => d.setFunc fn { d.func fn with pagesOn := false, evt := { (d.func fn).evt with on := false } }

/-- A commit that the old shadow had acknowledged and whose completion it had not received is in doubt. One that the
old lead had in fact finished keeps its record; its job takes the job-fatal step all the same. -/
def Wk.inDoubt (w : Wk) (k : Nat × Nat) : Wk :=
  match w.dev.inst k.1, w.dev.node k.1 k.2 with
  | some x, some n =>
    if n.st = .done then
      (w.postJob w.dev.leadHalf (nodeEvent x n 3 stInDoubt 0 n.attempt 0 0x3F)).jobFatal x.job stInDoubt
    else w.fail k.1 k.2 stInDoubt 0
  | _, _ => w

/-- Kills every uncommitted attempt for a re-run that counts toward no limit. -/
def Wk.killRunning (w : Wk) : Wk :=
  let ks := w.dev.tgu.insts.flatMap fun p => (List.range p.2.nodes.length).map fun i => (p.1, i)
  ks.foldl (fun w k => w.killRerun k.1 k.2 false) w

/-- GRANT: the half becomes the survivor. -/
def Wk.grant (w : Wk) (h : Half) (term : Nat) : Wk :=
  let v := w.dev.top.lead.get h
  let booting := v.st = .electing
  let oldShadow := ¬ booting ∧ v.lead ≠ h
  let lost := h.other
  let doubt := if oldShadow then w.dev.tgu.batchSeen ++ w.dev.tgu.shadowAcked else []
  let w := if booting then w else (allFns.filter fun fn => w.dev.fnHalf fn = some lost).foldl (fun w fn => w.loseFn fn) w
  let w := w.upd fun d =>
    let d := d.onLead h fun v =>
      { v with st := .degraded, lead := h, term := term, bmc := 1, granted := true, reqKind := 0, lapseAt := none }
    let d := d.onTop fun t =>
      { t with degraded := true, portLost := t.portLost.set lost true,
               portLead := if booting then some h else t.portLead,
               ready := if booting then false else t.baselineDone && !t.stopped,
               stage := if ¬ booting ∧ t.baselineDone ∧ ¬ t.stopped then .ready else t.stage }
    let d := d.onTgu fun t =>
      { t with batchOut := [], batchSeen := [], shadowAcked := [],
               lwrites := if oldShadow then t.lwrites.filter (·.sent) else [] }
    if booting then d.loadBoard else d.loseHalf lost
  let w := doubt.foldl (fun w k => w.inDoubt k) w
  let w := w.killRunning
  w.post h 0 { kind := 0xB, d0 := w.dev.leadStatus h }

/-- FENCE: engines discard their attempts, ports go down, nothing is dispatched until RESET_N. -/
def Dev.fence (d : Dev) (h : Half) (term : Nat) : Dev :=
  let d := d.onLead h fun v => { v with st := .fenced, bmc := 2, term := term, reqKind := 0, lapseAt := none }
  let d := d.onPort h fun p => { p with speed := 0, width := 0, flit := false, ide := false }
  let d := d.fenceEngines h
  if (d.top.lead.get h.other).st.alive then d
  else d.onTop fun t => { t with ready := false, stage := .stopped, stopped := true }

/-! ### Detector reports (R444 to R449) -/

/-- Poisons a block found uncorrectable (R244). -/
def Dev.poisonBlock (d : Dev) (a : Nat) : Dev :=
  let k := a / 64
  if d.host.poison.contains k then d
  else (d.onHost fun s => { s with poison := s.poison ++ [k] }).count (halfOf a) Reg.MEM_ECC_UE_LO 1

/-- A stack-interface error: the access is repeated, up to 4 times; the fifth takes the stack out of service (R454). -/
def Wk.stackError (w : Wk) (k n : Nat) : Wk :=
  if n < 5 then w.upd (·.count .west Reg.TOP_ERR_CORRECTED_LO 1)
  else if w.dev.top.stopped ∨ ¬ bit w.dev.top.stackUp k then w
  else
    (w.upd fun d => d.onTop fun t => { t with stackUp := t.stackUp - 2 ^ k }).deviceFatal (if k < 8 then .west else .east) stUncorrectable 4
      (stackIsland k) true 0

/-- Data of a job that no re-run can restore is lost: an ERROR event, and the job's step of R447 with UNCORRECTABLE. -/
def Wk.jobData (w : Wk) (h : Half) (island job a : Nat) : Wk :=
  if (w.dev.job job).isNone then w
  else
    (w.postJob h { kind := 1, cls := 3, status := stUncorrectable, job := job, island := island,
                   d0 := eventDetail stUncorrectable a }).jobFatal job stUncorrectable

/-! ### Meanings -/

/-- LEASE. -/
def execLease (half : Half) (msg : List Byte) (now : Nat) (s : State) : Host.Outcome State Fault Refusal :=
  onDev s fun d => (d.at_ now).lease half msg
/-- LEASE_ECHO. -/
def execLeaseEcho (half : Half) (msg : List Byte) (now : Nat) (s : State) : Host.Outcome State Fault Refusal :=
  onDev s fun d => (d.at_ now).leaseEcho half msg
/-- LEASE_RENEWAL. -/
def execLeaseRenewal (now : Nat) (s : State) : Host.Outcome State Fault Refusal := onDev s fun d => (d.at_ now).leaseRenew
/-- LEASE_LAPSE. -/
def execLeaseLapse (half : Half) (now : Nat) (s : State) : Host.Outcome State Fault Refusal :=
  onDev s fun d => (d.at_ now).leaseLapse half
/-- LEAD_REQUEST_RESEND. -/
def execLeadRequestResend (half : Half) (now : Nat) (s : State) : Host.Outcome State Fault Refusal :=
  onDev s fun d => (d.at_ now).requestResend half
/-- SPLIT_HALT. -/
def execSplitHalt (half : Half) (now : Nat) (s : State) : Host.Outcome State Fault Refusal :=
  finish s ((s.start.at_ now).splitHalt half)
/-- SHADOW_BATCH. -/
def execShadowBatch (intact : Bool) (now : Nat) (s : State) : Host.Outcome State Fault Refusal :=
  onDev s fun d => (d.at_ now).shadowBatch intact
end Sys2Proof.Machine
end

