-- ==== Sys2Proof/Machine/Graph.lean ====
section
/-! DEFINITION. Graphs: admission and header scan (R293 to R310), frame lock (R337 to R341), mode changes (R429), host
signals and waits (R301, R302), shadow space (R327, R328). -/

namespace Sys2Proof.Machine

open Sys2Proof

/-! ### The Graph Submission Descriptor (R293, R294) -/

/-- Whether an address is LOCAL or HOST, as a graph base and a record base must be. -/
def localOrHost (a : Nat) : Bool := isLocal a || addrForm a == 2

/-- The descriptor check of R294 against the job of its ring. -/
def gsdOk (g : List Byte) (job : Nat) : Bool :=
  let base := fld g 0 8
  let n := fld g 8 4
  let c := fld g 0xC 4
  let rb := fld g 0x20 8
  let f := fld g 0x28 4
  let frame := bit f 0
  let graph := bit f 6
  localOrHost base && base % 128 == 0 && decide (1 ≤ n ∧ n ≤ 4194304) && bits c 28 4 == 0 && bits c 20 4 == 0
    && bits c 0 20 == job && bits f 12 20 == 0 && bits f 1 3 == 0 && bits f 4 2 != 3
    && (frame || bits f 4 2 == 0)
    && (if graph then localOrHost rb && rb % 32 == 0 else rb == 0 && bits f 8 4 == 0)
    && bits (fld g 0x30 4) 16 16 == 0 && fld g 0x38 8 == 0
    && (if frame then fld g 0x2C 4 != 0 && bits (fld g 0x30 4) 0 16 != 0
        else fld g 0x2C 4 == 0 && fld g 0x30 4 == 0 && fld g 0x34 4 == 0)

/-- The SETUP_HASH check of R389. -/
def Dev.setupOk (d : Dev) (hash : Nat) : Bool :=
  hash == 0 || (bit (d.rn d.leadHalf Reg.FAB_SETUP_STATUS) 0 && d.reg64 d.leadHalf Reg.FAB_SETUP_HASH_LO == hash)

/-- Space for one more instance of `n` nodes (R309). -/
def Dev.hasSpace (d : Dev) (n : Nat) : Bool :=
  decide (d.tgu.insts.length < 8192) && decide (sumBy d.tgu.insts (fun p => p.2.nodes.length) + n ≤ 134217728)

/-! ### Header scan (R296, R310, R315, R320) -/

/-- A node from its 32-byte header. -/
def Node.ofHeader (h : List Byte) : Node :=
  { st := .waiting, released := 0, pred := fld h 8 2, succ := [], succCount := fld h 0xA 2, succOff := fld h 0xC 4,
    opcode := fld h 0 2, notify := bit (fld h 0 4) 16, id := fld h 4 4, affinity := fld h 0x10 8,
    shapeRef := fld h 0x18 8, shape := none, status := 0, reruns := 0, contained := 0, attempt := 0, tdc := 0,
    start := 0, readyAt := 0, dispOrd := 0, readyOrd := none, acked := false, taint := none, given := [],
    gates := [], heldNs := 0, eng := .idle, staged := [], held := [], log := [], acts := [], facets := [], avoid := [],
    nextIndex := 0, ended := 0, logBy := [], count := 0, waitsOn := [], probes := [], tiles := false,
    sfod := none, remoteOff := false, gen := 0, stalled := false, passed := false, pinned := false, result := 0 }

/-- The forms of AFFINITY (R108, R223, R320). -/
def affinityOk (op a : Nat) : Bool :=
  let k := bits a 60 4
  if k = 0 then a == 0
  else if k = 1 then bits a 48 12 == 0 && bits a 16 24 == 0
  else if k = 2 then true
  else if k = 3 then bits a 2 58 == 0 && (op == 0x100 || op == 0x101)
  else false

/-- The header checks of R296 and the form checks of R315 and R320. -/
def headerOk (h : List Byte) : Bool :=
  let op := fld h 0 2
  let sh := fld h 0x18 8
  opcodes.contains op && bits (fld h 0 4) 17 15 == 0 && (fld h 0xA 2 != 0 || fld h 0xC 4 == 0)
    && affinityOk op (fld h 0x10 8) && (sh == 0 || (isLocal sh && sh % 4 == 0))

/-- The headers of an instance's nodes, or how their reads fail. -/
def Wk.headers (w : Wk) (job fn base n : Nat) : List (Except (Nat × Nat) (List Byte)) :=
  (List.range n).map fun i => w.rdForm job fn (base + 128 * i) 32

/-- Creates an instance of a descriptor and scans its headers in ascending index: a root becomes READY, a faulty header
ends its node. -/
def Wk.createInst (w : Wk) (fn r : Nat) (g : List Byte) (frame : Option Nat) (number tick : Nat) (deadline : Option Nat) : Wk :=
  let c := fld g 0xC 4
  let f := fld g 0x28 4
  let n := fld g 8 4
  let job := bits c 0 20
  let base := fld g 0 8
  let hs := w.headers job fn base n
  let nodes := hs.map fun h => match h with | .ok b => Node.ofHeader b | .error _ => Node.ofHeader []
  let seq := w.dev.tgu.nextSeq
  let x : Inst :=
    { fn := fn, ring := r, job := job, client := clientOf fn, gsd := g, base := base, tag := fld g 0x10 8,
      setupHash := fld g 0x18 8, recBase := fld g 0x20 8, recDepth := bits f 8 4 + 1, report := bit f 6,
      irq := bit f 7, lane := b2n (bit c 27), prio := min (bits c 24 3) (bits (w.dev.ringReg fn r 0x18) 8 3),
      policy := bits f 4 2, frameId := frame, number := number, tick := tick, deadline := deadline,
      admitted := w.dev.time, strict := w.dev.top.strict, nodes := nodes, firstBad := none, tdc := 0, reruns := 0,
      aborting := false }
  let w := w.upd fun d => d.onTgu fun t => { t with insts := t.insts ++ [(seq, x)], nextSeq := seq + 1 }
  let w := (hs.zip (List.range n)).foldl
    (fun w hi =>
      match hi.1 with
      | .error e => w.raiseStatus seq hi.2 e.1 e.2 w.dev.leadHalf
      | .ok b =>
        if ¬ headerOk b then w.fail seq hi.2 stFormat 0
        else
          match w.dev.node seq hi.2 with
          | none => w
          | some m => if m.pred = 0 ∧ m.st = .waiting then w.upd (·.makeReady seq hi.2) else w)
    w
  w.checkStuck seq

/-! ### Frame lock -/

/-- Whether a change of mode is open (R429). -/
def Dev.modeChanging (d : Dev) : Bool := d.top.strictReq != d.top.strict

/-- Instances of a frame-locked graph in flight or waiting for space. -/
def Dev.frameFlying (d : Dev) (key : Nat) (g : FrameGraph) : Nat :=
  (d.tgu.insts.filter fun p => p.2.frameId = some key).length + g.waiting.length

/-- A skipped arming: one graph record and one DEADLINE event (R339). -/
def Wk.skipArming (w : Wk) (g : FrameGraph) (number : Nat) : Wk :=
  let tag := fld g.gsd 0x10 8
  let w := w.upd fun d =>
    (d.handGraph g.fn g.ring (recBytes tag 0 0 0xFFFFFFFF 0 0 stSkipped true number) (bit (fld g.gsd 0x28 4) 7)).count .west
      Reg.TGU_FRAMES_SKIPPED_LO 1
  w.postJob w.dev.leadHalf
    { kind := 0xA, status := stSkipped, job := g.job, tag := tag, d0 := w.dev.tgu.tickCount, d1 := number }

/-- Replaces a frame-locked graph. -/
def Dev.setFrame (d : Dev) (key : Nat) (g : FrameGraph) : Dev := d.onTgu fun t => { t with frames := aput t.frames key g }

/-- Creates the instance of an arming, with its deadline from the tick that armed it. -/
def Wk.armInst (w : Wk) (key : Nat) (g : FrameGraph) (number tick tickTime : Nat) : Wk :=
  (w.upd (·.count .west Reg.TGU_INSTANCES_ARMED_LO 1)).createInst g.fn g.ring g.gsd (some key) number tick
    (some (tickTime + 1000 * fld g.gsd 0x2C 4))

/-- One due arming: it takes an instance number, and is skipped, waits for space, or creates an instance. -/
def Wk.arm (w : Wk) (key : Nat) : Wk :=
  match aget w.dev.tgu.frames key with
  | none => w
  | some g =>
    if ¬ g.armed then w
    else if g.ticks > 0 then w.upd (·.setFrame key { g with ticks := g.ticks - 1 })
    else
      let number := g.given
      let count := fld g.gsd 0x34 4
      let limit := if bits (fld g.gsd 0x28 4) 4 2 = 1 then 2 else 1
      let g' := { g with given := number + 1, ticks := bits (fld g.gsd 0x30 4) 0 16 - 1,
                         armed := !(count != 0 && number + 1 == count) }
      let full := decide (w.dev.frameFlying key g ≥ limit)
      let w := w.upd (·.setFrame key g')
      if full ∨ w.dev.modeChanging then w.skipArming g number
      else if ¬ w.dev.hasSpace (fld g.gsd 8 4) then
        w.upd (·.setFrame key { g' with waiting := g'.waiting ++ [(number, w.dev.tgu.tickCount, w.dev.tgu.tickTime)] })
      else w.armInst key g' number w.dev.tgu.tickCount w.dev.tgu.tickTime

/-- Creates the instances of armings that waited for space, in order, while space lasts (R309). -/
def Wk.armWaiting (w : Wk) : Wk :=
  w.dev.tgu.frames.foldl
    (fun w kg =>
      match aget w.dev.tgu.frames kg.1 with
      | none => w
      | some g =>
        match g.waiting with
        | [] => w
        | (number, tick, time) :: rest =>
          if ¬ w.dev.hasSpace (fld g.gsd 8 4) ∨ w.dev.modeChanging then w
          else
            let g' := { g with waiting := rest }
            (w.upd (·.setFrame kg.1 g')).armInst kg.1 g' number tick time)
    w

/-- Abandons an instance at its deadline (R341). -/
def Wk.abandon (w : Wk) (seq : Nat) : Wk :=
  match w.dev.inst seq with
  | none => w
  | some x =>
    let w := w.upd fun d => (d.setInst seq { x with aborting := true }).count .west Reg.TGU_DEADLINES_MISSED_LO 1
    let w := (w.killAll seq stDeadline).upd fun d => (d.retireInstGens seq).closeInst seq
    w.postJob w.dev.leadHalf
      { kind := 0xA, status := stDeadline, job := x.job, tag := x.tag, d0 := x.tick, d1 := x.number }

/-- Instances past their deadline at a time. -/
def Dev.overdue (d : Dev) (t : Nat) : List Nat :=
  (d.tgu.insts.filter fun p => match p.2.deadline with | some x => decide (x ≤ t) | none => false).map (·.1)

/-- Priority of a frame-locked graph under its ring's limit. -/
def Dev.framePrio (d : Dev) (g : FrameGraph) : Nat :=
  min (bits (fld g.gsd 0xC 4) 24 3) (bits (d.ringReg g.fn g.ring 0x18) 8 3)

/-- An accepted tick at a device time: the count, abandonment, then arming by (priority, admission sequence) (R340). -/
def Wk.tick (w : Wk) (time : Nat) : Wk :=
  let w := w.upd fun d =>
    let out := bit (d.rn d.leadHalf Reg.TGU_TICK_CFG) 29
    (d.onTgu fun t =>
      { t with tickCount := (t.tickCount + 1) % 2 ^ 64, tickTime := time, lastTick := some time,
               tickGap := match t.lastTick with | some u => time - u | none => 0 }).onTop fun t =>
      { t with tickOut := if out then some time else t.tickOut }
  let w := (w.dev.overdue time).foldl (fun w s => w.abandon s) w
  if ¬ w.dev.dispatching then w
  else
    let keys := sortBy (fun (a b : Nat × FrameGraph) => keyBefore (w.dev.framePrio a.2) a.1 0 (w.dev.framePrio b.2) b.1 0)
      (w.dev.tgu.frames.filter (·.2.armed))
    ((keys.foldl (fun w k => w.arm k.1) w).armWaiting).graceScan

/-- A FRAME_TICK_IN edge (R337). -/
def Wk.tickIn (w : Wk) : Wk :=
  let cfg := w.dev.rn w.dev.leadHalf Reg.TGU_TICK_CFG
  if bits cfg 30 2 ≠ 1 ∨ ¬ w.dev.top.resetN then w
  else
    let near : Bool := match w.dev.tgu.lastTick with | some t => decide (w.dev.time < t + 1000 * bits cfg 0 16) | none => false
    if near then w.upd (·.count .west Reg.TGU_TICKS_IGNORED_LO 1) else w.tick w.dev.time

/-- An INTERNAL tick: a device time that is a whole multiple of the period (R337). -/
def Wk.tickInternal (w : Wk) : Wk :=
  let h := w.dev.leadHalf
  if bits (w.dev.rn h Reg.TGU_TICK_CFG) 30 2 ≠ 2 ∨ w.dev.time % (1000 * w.dev.rn h Reg.TGU_TICK_PERIOD) ≠ 0
      ∨ w.dev.tgu.lastTick = some w.dev.time then w
  else w.tick w.dev.time

/-- FRAME_TICK_IN. -/
def execFrameTickIn (now : Nat) (s : State) : Host.Outcome State Fault Refusal := finish s (s.start.at_ now).tickIn
/-- INTERNAL_TICK. -/
def execInternalTick (now : Nat) (s : State) : Host.Outcome State Fault Refusal := finish s (s.start.at_ now).tickInternal
/-- DEADLINE_EXPIRY. -/
def execDeadlineExpiry (inst now : Nat) (s : State) : Host.Outcome State Fault Refusal :=
  finish s <|
    let w := s.start.at_ now
    if (w.dev.overdue w.dev.time).contains inst then (w.abandon inst).armWaiting else w

/-! ### Admission (R308) -/

/-- The TGU takes the next descriptor of a ring. -/
def Wk.admitGraph (w : Wk) (fn r : Nat) : Wk :=
  let x := w.dev.ring fn r
  if x.st ≠ .enabled ∨ x.exposed.isEmpty ∨ ¬ w.dev.dispatching ∨ ¬ (w.dev.func fn).pagesOn ∨ w.dev.modeChanging then w
  else if x.skip.contains x.sqHead then w.upd (·.passHead fn r)
  else if ¬ w.dev.fnDelivers fn then w.gsdError fn r
  else
    let g := w.rdH (w.dev.gsdAddr fn r x.sqHead) 64
    let tag := fld g 0x10 8
    let f := fld g 0x28 4
    if ¬ gsdOk g (w.dev.ringJob fn r) then w.gsdFail fn r tag stFormat (bit f 7)
    else if ¬ w.dev.setupOk (fld g 0x18 8) then
      w.upd fun d => (d.passHead fn r).handGraph fn r (recBytes tag 0 0 0xFFFFFFFF 0 0 stSetup true 0) (bit f 7)
    else if ¬ w.dev.hasSpace (fld g 8 4) then w
    else
      let w := w.upd fun d => (d.passHead fn r).count (d.fnHome fn) Reg.HOST_GRAPHS_ADMITTED_LO 1
      if bit f 0 then
        w.upd fun d => d.onTgu fun t =>
          let fg : FrameGraph := { fn := fn, ring := r, job := bits (fld g 0xC 4) 0 20, gsd := g, seq := t.nextFrame, armed := true,
                                   given := 0, ticks := 0, waiting := [] }
          { t with frames := t.frames ++ [(t.nextFrame, fg)], nextFrame := t.nextFrame + 1 }
      else w.createInst fn r g none 0 0 none

/-- DESCRIPTOR_ADMISSION. Armings that wait for space go before it. -/
def execDescriptorAdmission (fn ring now : Nat) (s : State) : Host.Outcome State Fault Refusal :=
  finish s ((((s.start.at_ now).armWaiting).admitGraph fn ring).graceScan)

/-- A change of mode takes effect once no instance is in flight (R429). -/
def execModeChange (now : Nat) (s : State) : Host.Outcome State Fault Refusal :=
  onDev s fun d =>
    let d := d.at_ now
    if d.modeChanging ∧ d.tgu.insts.isEmpty then d.onTop fun t => { t with strict := t.strictReq } else d

/-- JOB_FATAL_STEP: an error found after a commit is JOB_FATAL for a job (R447). -/
def execJobFatalStep (job status now : Nat) (s : State) : Host.Outcome State Fault Refusal :=
  finish s <|
    let w := s.start.at_ now
    if (w.dev.job job).isSome ∧ isJobFatal status then w.jobFatal job status else w

/-! ### NOP, HOST_SIGNAL, HOST_WAIT (R301, R302) -/

/-- NOP. -/
def execNopNode (inst node now : Nat) (s : State) : Host.Outcome State Fault Refusal :=
  finish s ((s.start.at_ now).dispatch inst node 0xF00 always false noNull fun w _ _ nb =>
    if zeroFrom nb 0x20 then w.upd (·.engineDone inst node) else w.fail inst node stFormat 0)

/-- The operand check of HOST_SIGNAL. -/
def signalOk (nb : List Byte) : Bool :=
  let a := fld nb 0x20 8
  let c := fld nb 0x30 4
  localOrHost a && a % 8 == 0 && bits c 8 24 == 0 && decide (bits c 0 2 < 2) && zeroFrom nb 0x34
    && !(bits c 0 2 == 1 && addrForm a == 2)

/-- What a HOST_SIGNAL stages: its write, and its interrupt. -/
def Wk.runSignal (w : Wk) (seq i : Nat) (nb : List Byte) : Wk :=
  if ¬ signalOk nb then w.fail seq i stFormat 0
  else
    let a := fld nb 0x20 8
    let v := fld nb 0x28 8
    let c := fld nb 0x30 4
    let irq := if bit c 7 then [(0, LogEntry.irq (bits c 2 5))] else []
    let w :=
      if addrForm a = 2 then w.upd fun d => d.onNode seq i fun n => { n with log := (0, LogEntry.hostWrite (busAddr a) (toBytes 8 v)) :: irq }
      else if bits c 0 2 = 1 then
        w.upd fun d => d.onNode seq i fun n => { n with acts := [.add64 a v], log := irq }
      else (w.upd fun d => d.onNode seq i fun n => { n with log := irq }).stage seq i [⟨a, toBytes 8 v⟩]
    w.upd (·.engineDone seq i)

/-- HOST_SIGNAL. -/
def execHostSignal (inst node now : Nat) (s : State) : Host.Outcome State Fault Refusal :=
  finish s ((s.start.at_ now).dispatch inst node 0x601 always false noNull fun w _ _ nb => w.runSignal inst node nb)

/-- The operand check of HOST_WAIT. -/
def waitOk (nb : List Byte) : Bool :=
  let a := fld nb 0x20 8
  let c := fld nb 0x30 4
  localOrHost a && a % 8 == 0 && bits c 16 16 == 0 && bits c 3 5 == 0 && decide (bits c 0 3 < 4) && bits c 8 8 != 0
    && zeroFrom nb 0x38

/-- The comparisons of HOST_WAIT. -/
def condHolds (cond x v : Nat) : Bool :=
  if cond = 0 then x == v else if cond = 1 then x != v else if cond = 2 then decide (v ≤ x) else decide (x < v)

/-- One poll of a HOST_WAIT; `next` is the moment it falls at. -/
def Wk.pollOnce (w : Wk) (seq i next addr value cond poll timeout : Nat) : Wk :=
  match w.dev.inst seq, w.dev.node seq i with
  | some x, some n =>
    match w.rdForm x.job x.fn addr 8 with
    | .error e => w.raiseStatus seq i e.1 e.2 w.dev.leadHalf
    | .ok bs =>
      if condHolds cond (ofBytes bs) value then w.upd (·.engineDone seq i)
      else if timeout ≠ 0 ∧ next + 1000 * poll > n.start + 1000 * timeout then w.fail seq i stWaitTimeout 0
      else w.upd fun d => d.onNode seq i fun n =>
        { n with eng := .polling (next + 1000 * poll) addr value cond poll timeout }
  | _, _ => w

/-- HOST_WAIT nodes that poll. -/
def Dev.pollers (d : Dev) : Nat :=
  sumBy d.tgu.insts fun p => (p.2.nodes.filter fun n => n.st = .running ∧ n.opcode = 0x602).length

/-- Whether a HOST_WAIT may take a poll slot. Nodes of other opcodes of the TGU need none. -/
def pollFree (d : Dev) (seq i : Nat) : Bool :=
  match d.node seq i with
  | some n => n.opcode != 0x602 || decide (d.pollers < 1024)
  | none => false

/-- HOST_WAIT: the first poll is at dispatch. -/
def execHostWait (inst node now : Nat) (s : State) : Host.Outcome State Fault Refusal :=
  finish s ((s.start.at_ now).dispatch inst node 0x602 pollFree false noNull fun w _ n nb =>
    if ¬ waitOk nb then w.fail inst node stFormat 0
    else
      let c := fld nb 0x30 4
      w.pollOnce inst node n.start (fld nb 0x20 8) (fld nb 0x28 8) (bits c 0 3) (bits c 8 8) (fld nb 0x34 4))

/-- HOST_WAIT_POLL: the next poll of a HOST_WAIT, at or after the moment it falls at. -/
def Wk.waitPoll (w : Wk) (seq i : Nat) : Wk :=
  match w.dev.node seq i with
  | none => w
  | some n =>
    match n.eng with
    | .polling next addr value cond poll timeout =>
      if n.st = .running ∧ next ≤ w.dev.time then w.pollOnce seq i next addr value cond poll timeout else w
    | _ => w

/-- HOST_WAIT_POLL. -/
def execHostWaitPoll (inst node now : Nat) (s : State) : Host.Outcome State Fault Refusal :=
  finish s ((s.start.at_ now).waitPoll inst node)

/-! ### Shadow space (R327, R328) -/

/-- COPY_BACK: the copy of one committed frame completes, and its shadow space is free again. -/
def execCopyBack (page now : Nat) (s : State) : Host.Outcome State Fault Refusal :=
  onDev s fun d =>
    let d := d.at_ now
    if d.tgu.outFrames.any (·.page = page) then
      ((d.onTgu fun t => { t with outFrames := t.outFrames.filter (·.page ≠ page) }).returnFreed).unstall
    else d

/-- Whether an attempt is stalled for shadow space: its next write touches no page under copy-back, and no frame is free for it. -/
def Dev.noSpace (d : Dev) (n : Node) : Bool :=
  match n.held with
  | [] => false
  | r :: _ => n.stalled && !d.runsFit n [r] && (runPages [r]).all fun p => !d.tgu.outFrames.any fun f => f.page == p

/-- RUNNING commands that hold frames in a half, as (priority, dispatch order, instance, node, stalled for space). -/
def Dev.frameHolders (d : Dev) (h : Half) : List (Nat × Nat × Nat × Nat × Bool) :=
  d.tgu.insts.flatMap fun p =>
    (List.range p.2.nodes.length).filterMap fun i =>
      match p.2.nodes[i]? with
      | some n => if n.st = .running ∧ shadowBytes h n.staged > 0 then some (p.2.prio, n.dispOrd, p.1, i, d.noSpace n) else none
      | none => none

/-- The victim of R328: the most recently dispatched among the lowest priority present. -/
def pickVictim (l : List (Nat × Nat × Nat × Nat × Bool)) : Option (Nat × Nat × Nat × Nat × Bool) :=
  l.foldl
    (fun o v =>
      match o with
      | none => some v
      | some u => if v.1 < u.1 ∨ (v.1 = u.1 ∧ v.2.1 > u.2.1) then some v else some u)
    none

/-- SHADOW_DEADLOCK_KILL. -/
def Wk.shadowKill (w : Wk) (h : Half) : Wk :=
  let l := w.dev.frameHolders h
  if l.isEmpty ∨ l.any (fun v => !v.2.2.2.2) then w
  else
    match pickVictim l with
    | none => w
    | some v => (w.killRerun v.2.2.1 v.2.2.2.1 false).upd fun d => (d.count .west Reg.TGU_SHADOW_KILLS_LO 1).unstall

/-- SHADOW_DEADLOCK_KILL. -/
def execShadowDeadlockKill (half : Half) (now : Nat) (s : State) : Host.Outcome State Fault Refusal :=
  finish s ((s.start.at_ now).shadowKill half)

end Sys2Proof.Machine
end

