-- ==== Sys2Proof/Machine/Fabric.lean ====
section
/-! DEFINITION. Released requests, slots that die, and the receive side of the Solbite link (chapter 11). -/

namespace Sys2Proof.Machine

open Sys2Proof

/-- The FENCE nodes of a job that cover a request held toward a destination: their FENCE to it is out, and its MARK is at or after
the request (R381). -/
def Dev.coveringFences (d : Dev) (job dest seq : Nat) : List (Nat × Nat) :=
  ((d.dest dest).fences.filter fun f => f.job = job ∧ (f.ahead ≠ 0 ∨ seqLe seq f.mark)).map fun f => (f.seq, f.node)

/-- The ERROR event and the job's step for a released request that was refused (R370), or that a member lost (R382). The FENCEs
`fs` that cover it complete with its status before the job's nodes are aborted. -/
def Wk.refusedAfter (w : Wk) (f : ReqFor) (dest status : Nat) (fs : List (Nat × Nat)) : Wk :=
  match f with
  | .node job tag nodeId half =>
    let w := w.postJob w.dev.leadHalf { kind := 1, cls := 3, status := status, job := job, tag := tag, node := nodeId, d0 := dest,
                                        island := fuIsland half }
    let w := fs.foldl (fun w x => w.failNode x.1 x.2 status dest) w
    w.jobFatal job status
  | _ => w

/-- Releases a request, which is held until it is acknowledged (R363). One to an unreachable device is refused (R372). -/
def Wk.release (w : Wk) (t : Txn) (why : ReqFor) : Wk :=
  let d := w.dev
  if ¬ d.reachable t.dest then w.refusedAfter why t.dest stMemberLost [] else w.upd (·.holdReq t why)

/-! ### Port states (R350) -/

/-- A port changes state: a LINK_STATE event, and its slots die when it leaves UP. Requests queued for a link that goes
down are discarded; a retrain keeps the responses (R354, R375). -/
def Wk.portTo (w : Wk) (p : Nat) (st : PortSt) : Wk :=
  let x := w.dev.fport p
  if x.st = st then w
  else
    let wasUp : Bool := x.st == .up
    let x' := { x with st := st, keyed := if st = .up ∨ st = .securing then x.keyed else false,
                       upAt := if st = .up then w.dev.time else x.upAt,
                       queue := if st = .retraining then x.queue.filter (·.isResp) else
                                if st = .up ∨ st = .securing ∨ st = .training then x.queue else [],
                       replay := if st = .up ∨ st = .securing ∨ st = .training ∨ st = .retraining then x.replay else [],
                       stream := if st = .up ∨ st = .securing then x.stream else [],
                       heldGroup := if st = .up ∨ st = .securing then x.heldGroup else [],
                       refused := x.refused || st == .refusedRevision }
    let w := w.upd (·.setPort p x')
    let w := w.post (portHalf p) 0 { kind := 12, d0 := p + st.code * 256, island := portIsle p }
    let w := if wasUp then w.upd (·.killPort p) else w
    if st = .up then w.upd fun d => (d.fab.dests.map (·.1)).foldl (fun d dest => d.pump dest) (d.drain p) else w

/-- A protocol error (R360): the port retrains, and an ERROR event of no class is written. -/
def Wk.protocolError (w : Wk) (p : Nat) : Wk :=
  let w := w.post (portHalf p) 0 { kind := 1, island := portIsle p }
  w.portTo p .retraining

/-- New link keys: tag groups are numbered afresh, and what an earlier session left of a group is gone (R355). -/
def FPort.keyOn (x : FPort) : FPort :=
  { x with keyed := true, retrains := 0, again := false, txGroup := 0, txGroups := 0, txOpen := [], rxGroups := 0, heldGroup := [], ackHeld := 0,
           redo := 0 }

/-! ### Receiving flits (R354) -/

/-- Asks for the first flit that has not been accepted, and counts the NAKs that name it. -/
def Dev.sendNak (d : Dev) (p : Nat) : Dev :=
  let x := d.fport p
  let n := if x.nakName = x.rxNum then x.nakOut + 1 else 1
  (d.setPort p { x with discarding := true, nakName := x.rxNum, nakOut := n }).sendFlit p (some 1) (toBytes 2 x.rxNum) []

/-- A receiving port whose 16th NAK names the same flit retrains (R354, R395). -/
def Wk.nakLimit (w : Wk) (p : Nat) : Wk := if (w.dev.fport p).nakOut ≥ 16 then w.portTo p .retraining else w

/-- Parses what has arrived on a port. Transactions for another device are dropped, and so is, while the port is SECURING, whatever
is not MANAGEMENT (R355); what is dropped frees its credits (R357). -/
def Wk.parsePort (w : Wk) (p : Nat) : Wk :=
  let x := w.dev.fport p
  let (ts, rest, bad) := parseAll (x.stream.length + 1) x.stream []
  let mine (t : Txn) : Bool := t.dest == w.dev.me && (x.st != .securing || t.tc == 6)
  let freed := (ts.filter fun t => ¬ mine t).foldl (fun l t => setNth l t.chan (nth l t.chan 0 + t.units)) x.freed
  let w := w.upd (·.setPort p { x with stream := rest, arrived := x.arrived ++ ts.filter mine, freed := freed })
  if bad then w.protocolError p else w

/-- Adds credits of a class and channel. -/
def FPort.addCredit (x : FPort) (i n : Nat) : FPort := { x with credits := setNth x.credits i (nth x.credits i 0 + n) }

/-- Takes the header of an accepted flit: acknowledged flits leave the replay buffer, and credits return. A flit that NAKs named
and that has left the buffer is named no longer. -/
def FPort.takeHdr (x : FPort) (hdr : Nat) : FPort :=
  let r := x.replay.drop (hdr % 256)
  let x := { x with replay := r, nakCount := if r.any fun f => f.num = x.nakNum then x.nakCount else 0 }
  if bit hdr 15 then x else x.addCredit (2 * bits hdr 12 3 + bits hdr 11 1) (bits hdr 8 3)

/-- Whether a flit is whole: 256 bytes with a good CRC. -/
def flitGood (flit : List Byte) : Bool := flit.length == 256 && ofBytes (flit.drop 252) == crc32c (flit.take 252)

/-- A port accepts the flit of the next number. What stands behind an unverified flit of a tag group is acknowledged with the group, as
a failed tag undoes it (R355; DEDUCED), and the header of an encrypted data flit is taken when its group is verified. A control flit
that comes again behind a failed tag has had its effect. -/
def FPort.accept (x : FPort) (data : Bool) (hdr : Nat) : FPort :=
  let open_ : Bool := x.keyed && (data || !x.heldGroup.isEmpty)
  let y := { x with rxNum := (x.rxNum + 1) % 65536, discarding := false, redo := x.redo - 1,
                    ackOwed := if open_ then x.ackOwed else x.ackOwed + 1, ackHeld := if open_ then x.ackHeld + 1 else x.ackHeld,
                    nakOut := if open_ then x.nakOut else 0 }
  if (x.keyed ∧ data) ∨ (x.redo ≠ 0 ∧ ¬ data) then y else y.takeHdr hdr

/-- A numbered flit arrives. `ctrl` is the CTRL_TYPE that the command names, none for a data flit. Answers the payload
when the flit is accepted and has not had its effect before. -/
def Dev.acceptFlit (d : Dev) (p seq : Nat) (ctrl : Option Nat) (flit : List Byte) : Dev × Option (List Byte) :=
  let x := d.fport p
  let hdr := ofBytes (flit.take 2)
  let kind : Option Nat := if bit hdr 15 then some (bits hdr 8 7) else none
  if ¬ d.portExists p ∨ (x.st ≠ .training ∧ x.st ≠ .securing ∧ x.st ≠ .up) then (d, none)
  else if ¬ flitGood flit then
    let d := (d.count (portHalf p) Reg.FAB_FLIT_CRC_ERR_LO 1).count .west Reg.TOP_ERR_CORRECTED_LO 1
    if x.discarding ∧ seq ≠ x.rxNum then (d, none) else (d.sendNak p, none)
  else if kind ≠ ctrl then (d, none)
  else if seq ≠ x.rxNum then (if x.discarding then (d, none) else (d.sendNak p, none))
  else (d.setPort p (x.accept ctrl.isNone hdr), if x.redo ≠ 0 ∧ ctrl.isSome ∧ ctrl ≠ some 3 then none else some ((flit.drop 2).take 250))

/-- A numbered flit arrives, and `f` is its effect once it is accepted. -/
def Wk.onFlit (w : Wk) (p seq : Nat) (ctrl : Option Nat) (flit : List Byte) (f : Wk → List Byte → Wk) : Wk :=
  match w.dev.acceptFlit p seq ctrl flit with
  | (d, none) => (w.upd fun _ => d).nakLimit p
  | (d, some pl) => f (w.upd fun _ => d) pl

/-- A data flit arrives. -/
def Wk.dataFlit (w : Wk) (p seq : Nat) (flit : List Byte) : Wk :=
  w.onFlit p seq none flit fun w pl =>
    let x := w.dev.fport p
    let w :=
      if x.keyed then w.upd (·.setPort p { x with heldGroup := x.heldGroup ++ [(seq, flit.take 2 ++ pl)] })
      else (w.upd (·.setPort p { x with stream := x.stream ++ pl })).parsePort p
    w.upd (·.drain p)

/-- The tag of a held group verifies: its headers are taken, its payloads join the stream, and what it held back is acknowledged. -/
def FPort.groupGood (x : FPort) : FPort :=
  let y := x.heldGroup.foldl (fun (x : FPort) g => x.takeHdr (ofBytes (g.2.take 2))) x
  { y with stream := y.stream ++ x.heldGroup.flatMap (·.2.drop 2), heldGroup := [], rxGroups := x.rxGroups + 1,
           ackOwed := y.ackOwed + x.ackHeld, ackHeld := 0, nakOut := 0 }

/-- The tag of a held group fails, as a CRC failure of the group's first flit: it and what follows are to come again. -/
def FPort.groupBad (x : FPort) : FPort :=
  let first := match x.heldGroup with | [] => x.rxNum | g :: _ => g.1
  { x with heldGroup := [], rxNum := first, redo := (x.rxNum + 65536 - first) % 65536, ackHeld := 0 }

/-- A MAC flit arrives: the tag of the group held verifies, or fails (R355). -/
def Wk.macFlit (w : Wk) (p seq : Nat) (flit : List Byte) (tagOk : Bool) : Wk :=
  w.onFlit p seq (some 3) flit fun w pl =>
    let x := w.dev.fport p
    if ¬ x.keyed ∨ x.heldGroup.isEmpty then w
    else if tagOk ∧ ofBytes (pl.take 8) = x.rxGroups then ((w.upd (·.setPort p x.groupGood)).parsePort p).upd (·.drain p)
    else
      (w.upd fun d =>
        (((d.setPort p x.groupBad).count (portHalf p) Reg.FAB_TAG_FAIL_LO 1).count .west Reg.TOP_ERR_CORRECTED_LO 1).sendNak p).nakLimit p

/-- A CREDIT flit arrives. -/
def Wk.creditFlit (w : Wk) (p seq : Nat) (flit : List Byte) : Wk :=
  w.onFlit p seq (some 5) flit fun w pl =>
    w.upd fun d =>
      let x := (List.range 14).foldl (fun (x : FPort) i => x.addCredit i (ofBytes ((pl.drop (2 * i)).take 2))) (d.fport p)
      (d.setPort p x).drain p

/-- A NAK arrives: the sender resends from the flit it names, and 16 for one flit retrain the port. A NAK is not
numbered; what it has acknowledged is what its header reports. One that names no flit still held resends nothing. -/
def Wk.nakFlit (w : Wk) (p : Nat) (flit : List Byte) : Wk :=
  let x := w.dev.fport p
  let hdr := ofBytes (flit.take 2)
  if ¬ w.dev.portExists p ∨ (x.st ≠ .training ∧ x.st ≠ .securing ∧ x.st ≠ .up) then w
  else if ¬ flitGood flit then
    w.upd fun d => (d.count (portHalf p) Reg.FAB_FLIT_CRC_ERR_LO 1).count .west Reg.TOP_ERR_CORRECTED_LO 1
  else if hdr / 2 ^ 8 ≠ 0x81 then w
  else
    let x := x.takeHdr hdr
    let num := ofBytes ((flit.drop 2).take 2)
    let again := x.replay.dropWhile fun f => f.num ≠ num
    let n := if x.nakNum = num ∧ x.nakCount > 0 then x.nakCount + 1 else 1
    if again.isEmpty then w.upd (·.setPort p x)
    else
      let w := w.upd (·.setPort p { x with nakNum := num, nakCount := n })
      if n ≥ 16 then w.portTo p .retraining
      else
        w.upd fun d =>
          again.foldl (fun d f => (d.count (portHalf p) Reg.FAB_FLITS_TX_LO 1).emit (.flit p f.bytes))
            (d.count (portHalf p) Reg.FAB_REPLAYS_LO 1)

/-- The payload of this device's INIT flit: what is granted is the receive buffer that arrived transactions do not
fill. -/
def Dev.initPayload (d : Dev) (p : Nat) : List Byte :=
  let x := d.fport p
  let grant (i : Nat) : Nat := d.bufferUnits p i - sumBy (x.arrived.filter fun t => t.chan = i) Txn.units
  toBytes 2 (d.rn (portHalf p) Reg.FAB_REVISION) ++ toBytes 4 d.me ++ toBytes 1 p ++ toBytes 1 1
    ++ toBytes 1 (bits (d.portCfg p) 29 1) ++ (List.range 14).flatMap fun i => toBytes 2 (grant i)

/-- An INIT flit arrives (R350, R353). -/
def Wk.initFlit (w : Wk) (p seq : Nat) (flit : List Byte) : Wk :=
  w.onFlit p seq (some 2) flit fun w pl =>
    let d := w.dev
    if (d.fport p).st ≠ .training then w
    else
      let f (o n : Nat) : Nat := ofBytes ((pl.drop o).take n)
      let enc : Bool := f 8 1 % 2 == 1
      let x := { d.fport p with peerDev := f 2 4 % 2 ^ 18, peerPort := f 6 1, peerKind := f 7 1, peerEncrypt := enc,
                                credits := (List.range 14).map fun i => f (9 + 2 * i) 2 }
      let w := w.upd (·.setPort p x)
      if f 0 2 ≠ d.rn (portHalf p) Reg.FAB_REVISION then w.portTo p .refusedRevision
      else if enc ∨ bit (d.portCfg p) 29 then w.portTo p .securing
      else
        let w := w.upd fun d => let x := d.fport p; d.setPort p { x with retrains := 0, again := false }
        w.portTo p .up

/-- Training begins: a peer appears on a DOWN port, or a retrain begins. -/
def Wk.trainStart (w : Wk) (p : Nat) : Wk :=
  let x := w.dev.fport p
  if ¬ w.dev.portExists p ∨ ¬ (x.st = .down ∨ x.st = .retraining) then w
  else (w.upd (·.setPort p { x with again := decide (x.st = .retraining) })).portTo p .training

/-- Training ends: flit numbers start at 0 and an INIT flit goes out, with what the replay buffer held queued again
(R354); or it fails. -/
def Wk.trainEnd (w : Wk) (p : Nat) (ok : Bool) : Wk :=
  let x := w.dev.fport p
  if x.st ≠ .training then w
  else if ok then
    let x := { x with txNum := 0, rxNum := 0, owed := 0, nakNum := 0, nakCount := 0, nakOut := 0, nakName := 0, txGroup := 0,
                      txGroups := 0, txOpen := [], rxGroups := 0, discarding := false, ackOwed := 0, ackHeld := 0, redo := 0, stream := [],
                      heldGroup := [], queue := x.replay.flatMap (·.ends) ++ x.queue, replay := [], freed := List.replicate 14 0,
                      deficit := List.replicate 5 0, turn := 1, mgmtDebt := 0 }
    w.upd fun d => let d := d.setPort p x; d.sendFlit p (some 2) (d.initPayload p) []
  else if ¬ x.again then w.portTo p .down
  else
    let w := w.upd (·.setPort p { x with retrains := x.retrains + 1 })
    w.portTo p (if x.retrains + 1 ≥ 3 then .failed else .retraining)

/-- A port leaves UP because its link fails: it goes DOWN. -/
def Wk.linkDown (w : Wk) (p : Nat) : Wk :=
  let x := w.dev.fport p
  if ¬ w.dev.portExists p ∨ ¬ (x.st = .up ∨ x.st = .securing ∨ x.st = .training ∨ x.st = .retraining) then w
  else
    let w := w.portTo p .down
    w.upd fun d => d.setPort p { FPort.cold with upAt := x.upAt, arrived := x.arrived, refused := x.refused }

end Sys2Proof.Machine
end

