-- ==== Sys2Proof/Machine/Num.lean ====
section
/-! DEFINITION. Numbers: the element formats of R34, exact arithmetic on their values, and the one rounding of R40 to
R43. A value is kept exact until it is rounded once. -/

namespace Sys2Proof.Machine

open Sys2Proof

/-- An element value: a NaN, an infinity, or (-1)^neg × m × 2^e exactly. -/
inductive Num where
  | nan (neg : Bool)
  | inf (neg : Bool)
  | fin (neg : Bool) (m : Nat) (e : Int)
  deriving DecidableEq, Repr

/-- +0. -/
def Num.zero : Num := .fin false 0 0
/-- 1. -/
def Num.one : Num := .fin false 1 0

/-- The sign bit. -/
def Num.sign : Num → Bool
  | .nan s => s
  | .inf s => s
  | .fin s _ _ => s

/-- Whether a value is +0 or -0. -/
def Num.isZero : Num → Bool
  | .fin _ 0 _ => true
  | _ => false

/-- Whether a value is a NaN. -/
def Num.isNan : Num → Bool
  | .nan _ => true
  | _ => false

/-- Whether a value is an infinity. -/
def Num.isInf : Num → Bool
  | .inf _ => true
  | _ => false

/-- Whether a value is finite. -/
def Num.isFin : Num → Bool
  | .fin _ _ _ => true
  | _ => false

/-- The value with its sign reversed. -/
def Num.neg : Num → Num
  | .nan s => .nan (!s)
  | .inf s => .inf (!s)
  | .fin s m e => .fin (!s) m e

/-- A natural number times a power of two. -/
def Num.ofNat (m : Nat) (e : Int) : Num := .fin false m e

/-- An integer times a power of two. -/
def Num.ofInt (x : Int) (e : Int) : Num := .fin (decide (x < 0)) x.natAbs e

/-- `m` in units of 2^u, for u ≤ e. -/
def atUnit (m : Nat) (e u : Int) : Nat := m <<< (e - u).toNat

/-- The signed significand of a finite value in units of 2^u; 0 for the others. -/
def Num.scaled (u : Int) : Num → Int
  | .fin s m e => if s then -(atUnit m e u : Int) else (atUnit m e u : Int)
  | _ => 0

/-- The exponent of a finite value's unit; 0 for the others. -/
def Num.exp2 : Num → Int
  | .fin _ m e => if m = 0 then 0 else e
  | _ => 0

/-- The exact sum. An exact zero is +0 unless both addends are -0, as IEEE 754 has it under round to nearest. -/
def Num.add : Num → Num → Num
  | .nan s, _ => .nan s
  | _, .nan s => .nan s
  | .inf s, .inf t => if s = t then .inf s else .nan false
  | .inf s, _ => .inf s
  | _, .inf s => .inf s
  | .fin s m e, .fin t n f =>
    if m = 0 ∧ n = 0 then .fin (s && t) 0 0
    else if m = 0 then .fin t n f
    else if n = 0 then .fin s m e
    else
      let u := min e f
      let x := (Num.fin s m e).scaled u + (Num.fin t n f).scaled u
      if x = 0 then .fin false 0 0 else .ofInt x u

/-- The exact product. -/
def Num.mul : Num → Num → Num
  | .nan s, _ => .nan s
  | _, .nan s => .nan s
  | .inf s, .inf t => .inf (s != t)
  | .inf s, .fin t n _ => if n = 0 then .nan false else .inf (s != t)
  | .fin s m _, .inf t => if m = 0 then .nan false else .inf (s != t)
  | .fin s m e, .fin t n f => .fin (s != t) (m * n) (e + f)

/-- The exact sum of a list of terms with the special values of R172: all terms -0 give -0. -/
def exactSum (l : List Num) : Num :=
  if l.any Num.isNan then .nan false
  else
    let pos := l.any fun x => x == .inf false
    let neg := l.any fun x => x == .inf true
    if pos && neg then .nan false
    else if pos then .inf false
    else if neg then .inf true
    else
      let u := l.foldl (fun u x => if x.isZero then u else min u x.exp2) 0
      let t := l.foldl (fun t x => t + x.scaled u) 0
      if t = 0 then .fin (!l.isEmpty && l.all fun x => x.isZero && x.sign) 0 0 else .ofInt t u

/-- Ordering of two finite or infinite values: whether the first is less. -/
def Num.lt (a b : Num) : Bool :=
  match a, b with
  | .nan _, _ => false
  | _, .nan _ => false
  | .inf s, .inf t => s && !t
  | .inf s, .fin _ _ _ => s
  | .fin _ _ _, .inf t => !t
  | .fin s m e, .fin t n f =>
    let u := min (if m = 0 then f else e) (if n = 0 then e else f)
    decide ((Num.fin s m (if m = 0 then u else e)).scaled u < (Num.fin t n (if n = 0 then u else f)).scaled u)

/-- The IEEE 754-2019 maximum: a NaN propagates and +0 is above -0. -/
def Num.max (a b : Num) : Num :=
  if a.isNan || b.isNan then .nan false
  else if a.isZero && b.isZero then .fin (a.sign && b.sign) 0 0
  else if Num.lt a b then b else a

/-- The IEEE 754-2019 minimum. -/
def Num.min (a b : Num) : Num :=
  if a.isNan || b.isNan then .nan false
  else if a.isZero && b.isZero then .fin (a.sign || b.sign) 0 0
  else if Num.lt b a then b else a

/-! ### Formats (R34) -/

/-- How a floating format spends its top codes. -/
inductive FmtKind where
  | ieee       -- all-ones exponent: infinities and NaNs
  | e4m3       -- only S.1111.111 is NaN
  | finite     -- no special code
  deriving DecidableEq, Repr

/-- A floating format: exponent and mantissa bits, bias, kind. -/
structure Fmt where
  eb : Nat
  mb : Nat
  bias : Nat
  kind : FmtKind
  deriving DecidableEq, Repr

def fmtFp32 : Fmt := ⟨8, 23, 127, .ieee⟩
def fmtFp16 : Fmt := ⟨5, 10, 15, .ieee⟩
def fmtBf16 : Fmt := ⟨8, 7, 127, .ieee⟩
def fmtE4m3 : Fmt := ⟨4, 3, 7, .e4m3⟩
def fmtE5m2 : Fmt := ⟨5, 2, 15, .ieee⟩
def fmtE3m2 : Fmt := ⟨3, 2, 3, .finite⟩
def fmtE2m3 : Fmt := ⟨2, 3, 1, .finite⟩
def fmtE2m1 : Fmt := ⟨2, 1, 1, .finite⟩

/-- TYPE codes of R34. -/
def tyFp32 : Nat := 0x00
def tyFp16 : Nat := 0x01
def tyBf16 : Nat := 0x02
def tyE4m3 : Nat := 0x03
def tyE5m2 : Nat := 0x04
def tyInt8 : Nat := 0x05
def tyInt32 : Nat := 0x06
def tyMxInt8 : Nat := 0x15

/-- Whether a TYPE code is not reserved. -/
def tyOk (t : Nat) : Bool := decide (t ≤ 6) || decide (0x10 ≤ t ∧ t ≤ 0x15)

/-- Whether a TYPE is an MX type. -/
def isMx (t : Nat) : Bool := decide (0x10 ≤ t ∧ t ≤ 0x15)

/-- Whether a TYPE carries a per-tensor scale (R37). -/
def hasScale (t : Nat) : Bool := decide (3 ≤ t ∧ t ≤ 5)

/-- Bits of an element. -/
def elemBits (t : Nat) : Nat :=
  if t = 0 ∨ t = 6 then 32 else if t = 1 ∨ t = 2 then 16 else if t = 0x12 ∨ t = 0x13 then 6 else if t = 0x14 then 4 else 8

/-- The floating format of a TYPE; none for the integer types. -/
def fmtOf (t : Nat) : Option Fmt :=
  if t = 0 then some fmtFp32
  else if t = 1 then some fmtFp16
  else if t = 2 then some fmtBf16
  else if t = 3 ∨ t = 0x10 then some fmtE4m3
  else if t = 4 ∨ t = 0x11 then some fmtE5m2
  else if t = 0x12 then some fmtE3m2
  else if t = 0x13 then some fmtE2m3
  else if t = 0x14 then some fmtE2m1
  else none

/-- emax of an MX type (R34). -/
def emaxOf (t : Nat) : Nat := if t = 0x10 then 8 else if t = 0x11 then 15 else if t = 0x12 then 4 else if t = 0x15 then 0 else 2

/-- The value of a code of a floating format. -/
def Fmt.decode (f : Fmt) (c : Nat) : Num :=
  let s := bit c (f.eb + f.mb)
  let x := bits c f.mb f.eb
  let m := bits c 0 f.mb
  let top := x == 2 ^ f.eb - 1
  if f.kind = .ieee ∧ top then (if m = 0 then .inf s else .nan s)
  else if f.kind = .e4m3 ∧ top ∧ m = 2 ^ f.mb - 1 then .nan s
  else if x = 0 then .fin s m (1 - (f.bias : Int) - f.mb)
  else .fin s (m + 2 ^ f.mb) ((x : Int) - f.bias - f.mb)

/-- The element value of a code of a TYPE, before block or tensor scale (R34). -/
def decodeElem (t c : Nat) : Num :=
  match fmtOf t with
  | some f => f.decode c
  | none => .ofInt (sext c (elemBits t)) (if t = tyMxInt8 then -6 else 0)

/-- The value of an FP32 code. -/
def f32 (c : Nat) : Num := fmtFp32.decode c

/-! ### Rounding (R40 to R43) -/

/-- Rounding modes of R40; code 3 is reserved and refused where it is carried. -/
inductive Rnd where
  | rne
  | rtz
  | stoch
  deriving DecidableEq, Repr

/-- The mode of a ROUND code. -/
def Rnd.ofCode (n : Nat) : Option Rnd :=
  if n = 0 then some .rne else if n = 1 then some .rtz else if n = 2 then some .stoch else none

/-- ⌊log2 (n / d)⌋ for n and d above 0. -/
def floorLog2 (n d : Nat) : Int :=
  let k : Int := (Nat.log2 n : Int) - (Nat.log2 d : Int)
  let lo := if 0 ≤ k then decide (n < d <<< k.toNat) else decide (n <<< (-k).toNat < d)
  if lo then k - 1 else k

/-- n / d × 2^e rounded to a whole number of units of 2^ue; `r` is the draw of R43. -/
def roundUnits (n d : Nat) (e ue : Int) (mode : Rnd) (r : Nat) : Nat :=
  let a := if ue ≤ e then n <<< (e - ue).toNat else n
  let b := if ue ≤ e then d else d <<< (ue - e).toNat
  let q := a / b
  let rem := a % b
  match mode with
  | .rtz => q
  | .rne => if 2 * rem > b ∨ (2 * rem = b ∧ q % 2 = 1) then q + 1 else q
  | .stoch => if rem * 2 ^ 32 / b + r ≥ 2 ^ 32 then q + 1 else q

/-- The magnitude code of n / d × 2^e in a floating format, before overflow is judged. -/
def Fmt.roundMag (f : Fmt) (n d : Nat) (e : Int) (mode : Rnd) (r : Nat) : Nat :=
  if n = 0 then 0
  else
    let emin : Int := 1 - f.bias
    let x := max (floorLog2 n d + e) emin
    roundUnits n d e (x - f.mb) mode r + (x - emin).toNat * 2 ^ f.mb

/-- The largest finite magnitude code. -/
def Fmt.maxCode (f : Fmt) : Nat :=
  match f.kind with
  | .ieee => (2 ^ f.eb - 1) * 2 ^ f.mb - 1
  | .e4m3 => 2 ^ (f.eb + f.mb) - 2
  | .finite => 2 ^ (f.eb + f.mb) - 1

/-- The NaN code of a format that has one (R41). -/
def Fmt.nanCode (f : Fmt) : Nat :=
  match f.kind with
  | .ieee => (2 ^ f.eb - 1) * 2 ^ f.mb + 2 ^ (f.mb - 1)
  | .e4m3 => 2 ^ (f.eb + f.mb) - 1
  | .finite => 0

/-- Puts a sign bit on a magnitude code. -/
def Fmt.signed (f : Fmt) (s : Bool) (c : Nat) : Nat := b2n s * 2 ^ (f.eb + f.mb) + c

/-- Rounds ±n / d × 2^e to a format under R41. `sat` saturates finite overflow: FP8 and MX elements. -/
def Fmt.roundQ (f : Fmt) (sat : Bool) (s : Bool) (n d : Nat) (e : Int) (mode : Rnd) (r : Nat) : Nat :=
  let c := f.roundMag n d e mode r
  if c ≤ f.maxCode then f.signed s c
  else if sat ∨ mode = .rtz then f.signed s f.maxCode
  else f.signed s (f.maxCode + 1)

/-- The code of an exact value in a format under R41. An infinity becomes E4M3's NaN. -/
def Fmt.round (f : Fmt) (sat : Bool) (mode : Rnd) (r : Nat) : Num → Nat
  | .nan s => f.signed s f.nanCode
  | .inf s => match f.kind with
    | .ieee => f.signed s (f.maxCode + 1)
    | .e4m3 => f.signed s f.nanCode
    | .finite => f.signed s f.maxCode
  | .fin s m e => f.roundQ sat s m 1 e mode r

/-- fl: rounds an exact value to FP32 under RNE (R172). A NaN keeps its sign (R41). -/
def fl (x : Num) : Nat := fmtFp32.round false .rne 0 x

/-- The canonical NaN that arithmetic writes (R172, R178). -/
def nan32 : Nat := 0x7FC00000

/-- fl with every NaN written as 0x7FC0_0000. -/
def flc (x : Num) : Nat := if x.isNan then nan32 else fl x

/-- A value of one format rounded by fl, as a value. -/
def flv (x : Num) : Num := f32 (fl x)

/-- Rounds to an integer type of `w` bits with saturation (R41). -/
def roundInt (w : Nat) (s : Bool) (n d : Nat) (e : Int) (mode : Rnd) (r : Nat) : Nat :=
  let q := roundUnits n d e 0 mode r
  if s then wrapInt (-(min q (2 ^ (w - 1)) : Nat) : Int) w else min q (2 ^ (w - 1) - 1)

/-- A quotient of two values in the form R175 rounds once: sign, numerator, denominator, exponent; or its special
value. -/
inductive Quot2 where
  | special (x : Num)
  | ratio (s : Bool) (n d : Nat) (e : Int)

/-- IEEE division, exact. -/
def Num.quot : Num → Num → Quot2
  | .nan s, _ => .special (.nan s)
  | _, .nan s => .special (.nan s)
  | .inf _, .inf _ => .special (.nan false)
  | .inf s, .fin t _ _ => .special (.inf (s != t))
  | .fin s _ _, .inf t => .special (.fin (s != t) 0 0)
  | .fin s m e, .fin t n f =>
    if n = 0 then (if m = 0 then .special (.nan false) else .special (.inf (s != t)))
    else .ratio (s != t) m n (e - f)

/-- The code of a value in a TYPE that is not MX, divided by the tile's TENSOR_SCALE where the TYPE has one (R41,
R175). -/
def encodeElem (t : Nat) (scale : Nat) (mode : Rnd) (r : Nat) (x : Num) : Nat :=
  let q : Quot2 := if hasScale t then x.quot (f32 scale) else
    match x with
    | .fin s m e => .ratio s m 1 e
    | y => .special y
  match fmtOf t with
  | some f =>
    match q with
    | .special y => f.round (hasScale t) mode r y
    | .ratio s n d e => f.roundQ (hasScale t) s n d e mode r
  | none =>
    let w := elemBits t
    match q with
    | .special (.nan _) => 0
    | .special (.inf s) => if s then 2 ^ (w - 1) else 2 ^ (w - 1) - 1
    | .special (.fin _ _ _) => 0
    | .ratio s n d e => roundInt w s n d e mode r

/-- The draw of R43. -/
def srBits (seed salt tileRow tileCol row col : Nat) : Nat :=
  let m := 2 ^ 64
  let x := (seed % m) ^^^ ((salt % 256) <<< 56) ^^^ ((tileRow * 65536 + tileCol) <<< 12) ^^^ (row * 64 + col)
  let x := ((x ^^^ (x >>> 30)) * 0xBF58476D1CE4E5B9) % m
  let x := ((x ^^^ (x >>> 27)) * 0x94D049BB133111EB) % m
  (x ^^^ (x >>> 31)) >>> 32

/-- An element of an MX block: rounds v × 2^(-x) and saturates to the largest finite magnitude (R42). A value of
magnitude 2 saturates in MXINT8 (DEDUCED: R34 gives 1.984375 as its largest magnitude). -/
def mxElem (t : Nat) (x : Int) (mode : Rnd) (r : Nat) (v : Num) : Nat :=
  match v with
  | .fin s m e =>
    match fmtOf t with
    | some f => f.roundQ true s m 1 (e - x) mode r
    | none =>
      let q := min (roundUnits m 1 (e - x) (-6) mode r) 127
      if s then wrapInt (-(q : Int)) 8 else q
  | _ => 0

/-- Quantises a block of values to an MX type: scale byte and element codes (R42). -/
def mxQuantise (t : Nat) (mode : Rnd) (vs : List (Num × Nat)) : Nat × List Nat :=
  if vs.any fun p => !p.1.isFin then (0xFF, vs.map fun _ => 0)
  else
    let logs := vs.filterMap fun p => match p.1 with | .fin _ m e => if m = 0 then none else some ((Nat.log2 m : Int) + e) | _ => none
    match logs with
    | [] => (0, vs.map fun _ => 0)
    | l :: ls =>
      let top := ls.foldl (fun a b => if a < b then b else a) l
      let x0 := top - (emaxOf t : Int)
      let x := if x0 < -127 then -127 else if 127 < x0 then 127 else x0
      ((x + 127).toNat, vs.map fun p => mxElem t x mode p.2 p.1)

/-- Whether a code of a TYPE is zero (R52): a floating code whose bits other than the sign are 0, an integer code 0. -/
def isZeroCode (t c : Nat) : Bool :=
  match fmtOf t with
  | some f => c % 2 ^ (f.eb + f.mb) == 0
  | none => c == 0

/-! ### FP32 arithmetic on codes -/

/-- Addition rounded by RNE. -/
def fadd (a b : Nat) : Nat := flc ((f32 a).add (f32 b))
/-- Subtraction rounded by RNE. -/
def fsub (a b : Nat) : Nat := flc ((f32 a).add (f32 b).neg)
/-- Multiplication rounded by RNE. -/
def fmul (a b : Nat) : Nat := flc ((f32 a).mul (f32 b))
/-- Fused multiply-add, rounded once. -/
def ffma (a b c : Nat) : Nat := flc (((f32 a).mul (f32 b)).add (f32 c))
/-- IEEE maximum. -/
def fmax (a b : Nat) : Nat := flc ((f32 a).max (f32 b))
/-- IEEE minimum. -/
def fmin (a b : Nat) : Nat := flc ((f32 a).min (f32 b))
/-- Correctly rounded division. -/
def fdiv (a b : Nat) : Nat :=
  match (f32 a).quot (f32 b) with
  | .special x => flc x
  | .ratio s n d e => fmtFp32.roundQ false s n d e .rne 0
/-- Whether one value compares less than another. -/
def flt (a b : Nat) : Bool := (f32 a).lt (f32 b)

/-! ### Correctly rounded functions (R76, R178)

Fixed point with 640 fraction bits. Each exact case is taken apart first, so that no value near which truncation could
matter reaches the approximation. -/

/-- Fraction bits. -/
def fxP : Nat := 640
/-- 1 in fixed point. -/
def fxOne : Nat := 2 ^ fxP
/-- Fixed-point product of non-negative values. -/
def fxMul (a b : Nat) : Nat := (a * b) >>> fxP
/-- Fixed-point quotient of non-negative values. -/
def fxDiv (a b : Nat) : Nat := (a <<< fxP) / b

/-- ⌊√n⌋, one bit at a time from bit `k` down. -/
def isqrtAux (n : Nat) : Nat → Nat → Nat
  | 0, x => x
  | k + 1, x => let y := x + 2 ^ k; isqrtAux n k (if y * y ≤ n then y else x)

/-- ⌊√n⌋. -/
def isqrt (n : Nat) : Nat := isqrtAux n (Nat.log2 n / 2 + 1) 0

/-- 2 × Σ t^(2i+1) / (2i+1) for i below `k`: ln ((1+t)/(1-t)) for a non-negative fixed-point t. -/
def fxLnT (t : Nat) (k : Nat) : Nat :=
  let t2 := fxMul t t
  2 * ((List.range k).foldl (fun (p : Nat × Nat) i => (p.1 + p.2 / (2 * i + 1), fxMul p.2 t2)) (0, t)).1

/-- ln 2. -/
def fxLn2 : Nat := fxLnT (fxOne / 3) 210

/-- Σ x^i / i! for a fixed-point 0 ≤ x < 1. -/
def fxExpSmall (x : Nat) : Nat :=
  ((List.range 140).foldl (fun (p : Nat × Nat) i => (p.1 + p.2, fxMul p.2 x / (i + 1))) (0, fxOne)).1

/-- e^x for a fixed-point x of either sign: a fixed-point significand and a power of two. -/
def fxExp (x : Int) : Nat × Int :=
  let k := x.fdiv (fxLn2 : Int)
  let r := (x - k * (fxLn2 : Int)).toNat
  (fxExpSmall r, k)

/-- e^x as one fixed-point number. -/
def fxExpN (x : Int) : Nat :=
  let (m, k) := fxExp x
  if 0 ≤ k then m <<< k.toNat else m >>> (-k).toNat

/-- A finite value as a fixed-point integer. -/
def Num.fx (x : Num) : Int :=
  match x with
  | .fin s m e =>
    let v := if 0 ≤ e + fxP then m <<< (e + fxP).toNat else m >>> (-(e + fxP)).toNat
    if s then -(v : Int) else (v : Int)
  | _ => 0

/-- Rounds ±(a fixed-point magnitude) to FP32. -/
def fxRound (s : Bool) (m : Nat) (k : Int := 0) : Nat := fmtFp32.roundQ false s m 1 (k - (fxP : Int)) .rne 0

/-- Rounds a fixed-point number to FP32; `s` is the sign of a zero. -/
def fxRoundI (x : Int) (s : Bool) : Nat := if x = 0 then fxRound s 0 else fxRound (decide (x < 0)) x.natAbs

/-- atan (1/n) in fixed point. -/
def fxAtanInv (n : Nat) (k : Nat) : Nat :=
  let r := (List.range k).foldl
    (fun (p : Int × Nat) i =>
      let t : Int := ((p.2 / (2 * i + 1) : Nat) : Int)
      (if i % 2 = 0 then p.1 + t else p.1 - t, p.2 / (n * n)))
    ((0 : Int), fxOne / n)
  r.1.toNat

/-- π by Machin's formula. -/
def fxPi : Nat := 4 * (4 * fxAtanInv 5 150 - fxAtanInv 239 50)

/-- 2 / √π. -/
def fxTwoOverSqrtPi : Nat := fxDiv (2 * fxOne) (isqrt (fxPi <<< fxP))

/-- Σ (-1)^n z^n / (n! (2n+1)) for a fixed-point z ≥ 0. -/
def fxErfSum (z : Nat) : Int :=
  ((List.range 1000).foldl
    (fun (p : Int × Nat) n =>
      let t : Int := ((p.2 / (2 * n + 1) : Nat) : Int)
      (if n % 2 = 0 then p.1 + t else p.1 - t, fxMul p.2 z / (n + 1)))
    ((0 : Int), fxOne)).1

/-- Whether the magnitude of a finite value reaches an integer. -/
def Num.atLeast (x : Num) (n : Nat) : Bool := !(Num.lt (match x with | .fin _ m e => .fin false m e | y => y) (.ofNat n 0))

/-- The special functions of R178, by FN code order of the encoding. -/
inductive SpFn where
  | exp | exp2 | ln | log2 | rcp | sqrt | rsqrt | tanh | sigmoid | silu | erf | gelu
  deriving DecidableEq, Repr

/-- ±∞. -/
def inf32 (s : Bool) : Nat := fl (.inf s)
/-- ±0. -/
def zero32 (s : Bool) : Nat := fl (.fin s 0 0)

/-- e^x. -/
def spExp (x : Num) : Nat :=
  match x with
  | .nan _ => nan32
  | .inf s => if s then zero32 false else inf32 false
  | .fin s m _ =>
    if m = 0 then fl .one
    else if s ∧ x.atLeast 105 then zero32 false
    else if ¬ s ∧ x.atLeast 89 then inf32 false
    else let (v, k) := fxExp x.fx; fxRound false v k

/-- 2^x; a whole x is exact. -/
def spExp2 (x : Num) : Nat :=
  match x with
  | .nan _ => nan32
  | .inf s => if s then zero32 false else inf32 false
  | .fin s m e =>
    if m = 0 then fl .one
    else if s ∧ x.atLeast 151 then zero32 false
    else if ¬ s ∧ x.atLeast 128 then inf32 false
    else if 0 ≤ e ∨ m % 2 ^ (-e).toNat = 0 then
      let n := if 0 ≤ e then m <<< e.toNat else m >>> (-e).toNat
      fl (.fin false 1 (if s then -(n : Int) else (n : Int)))
    else
      let y := x.fx
      let mag := fxMul y.natAbs fxLn2
      let (v, k) := fxExp (if s then -(mag : Int) else (mag : Int))
      fxRound false v k

/-- ln x of a positive value m × 2^e, in fixed point. -/
def fxLn (m : Nat) (e : Int) : Int :=
  let l := Nat.log2 m
  -- y = m / 2^l in [1, 2); halved when it is at least 1.5
  let big := decide (2 * m ≥ 3 * 2 ^ l)
  let k : Int := e + l + (if big then 1 else 0)
  let den := if big then 2 ^ (l + 1) else 2 ^ l
  let up := decide (m ≥ den)
  let d := if up then m - den else den - m
  let t := (d <<< fxP) / (m + den)
  let s := fxLnT t 150
  k * (fxLn2 : Int) + (if up then (s : Int) else -(s : Int))

/-- ln x. -/
def spLn (x : Num) : Nat :=
  match x with
  | .nan _ => nan32
  | .inf s => if s then nan32 else inf32 false
  | .fin s m e => if m = 0 then inf32 true else if s then nan32 else fxRoundI (fxLn m e) false

/-- log2 x; a power of two is exact. -/
def spLog2 (x : Num) : Nat :=
  match x with
  | .nan _ => nan32
  | .inf s => if s then nan32 else inf32 false
  | .fin s m e =>
    if m = 0 then inf32 true
    else if s then nan32
    else
      let l := Nat.log2 m
      if m = 2 ^ l then fl (.ofInt (e + l) 0)
      else
        let y := fxLn m e
        let q := fxDiv y.natAbs fxLn2
        fxRound (decide (y < 0)) q

/-- 1 / x. -/
def spRcp (x : Num) : Nat := match Num.one.quot x with
  | .special y => flc y
  | .ratio s n d e => fmtFp32.roundQ false s n d e .rne 0

/-- √(n / d × 2^e), rounded once: an integer root with enough bits and a sticky bit. -/
def roundSqrt (n d : Nat) (e : Int) : Nat :=
  let (n, e) := if e % 2 = 0 then (n, e) else (2 * n, e - 1)
  let a := (n <<< 400) / d
  let r := isqrt a
  let sticky := if r * r = a ∧ a * d = n <<< 400 then 0 else 1
  fmtFp32.roundQ false false (2 * r + sticky) 1 (e / 2 - 200 - 1) .rne 0

/-- √x. -/
def spSqrt (x : Num) : Nat :=
  match x with
  | .nan _ => nan32
  | .inf s => if s then nan32 else inf32 false
  | .fin s m e => if m = 0 then zero32 s else if s then nan32 else roundSqrt m 1 e

/-- 1 / √x. -/
def spRsqrt (x : Num) : Nat :=
  match x with
  | .nan _ => nan32
  | .inf s => if s then nan32 else zero32 false
  | .fin s m e => if m = 0 then inf32 s else if s then nan32 else roundSqrt 1 m (-e)

/-- tanh x = (1 - e^(-2|x|)) / (1 + e^(-2|x|)) with the sign of x. -/
def spTanh (x : Num) : Nat :=
  match x with
  | .nan _ => nan32
  | .inf s => fl (.fin s 1 0)
  | .fin s m _ =>
    if m = 0 then zero32 s
    else if x.atLeast 20 then fl (.fin s 1 0)
    else
      let t := fxExpN (-(2 * (x.fx.natAbs : Int)))
      fxRound s (fxDiv (fxOne - t) (fxOne + t))

/-- 1 / (1 + e^(-x)) in fixed point. -/
def fxSigmoid (x : Int) : Nat := fxDiv fxOne (fxOne + fxExpN (-x))

/-- The logistic function. -/
def spSigmoid (x : Num) : Nat :=
  match x with
  | .nan _ => nan32
  | .inf s => if s then zero32 false else fl .one
  | .fin s _ _ =>
    if s ∧ x.atLeast 110 then zero32 false
    else if ¬ s ∧ x.atLeast 110 then fl .one
    else fxRound false (fxSigmoid x.fx)

/-- x times the logistic function. -/
def spSilu (x : Num) : Nat :=
  match x with
  | .nan _ => nan32
  | .inf s => if s then zero32 true else inf32 false
  | .fin s m _ =>
    if m = 0 then zero32 s
    else if s ∧ x.atLeast 110 then zero32 true
    else if ¬ s ∧ x.atLeast 110 then fl x
    else fxRound s (fxMul x.fx.natAbs (fxSigmoid x.fx))

/-- erf |x| in fixed point, for |x| ≤ 10. -/
def fxErf (x : Nat) : Nat :=
  fxMul (fxMul fxTwoOverSqrtPi x) (fxErfSum (fxMul x x)).toNat

/-- The error function. -/
def spErf (x : Num) : Nat :=
  match x with
  | .nan _ => nan32
  | .inf s => fl (.fin s 1 0)
  | .fin s m _ =>
    if m = 0 then zero32 s
    else if x.atLeast 10 then fl (.fin s 1 0)
    else fxRound s (fxErf x.fx.natAbs)

/-- x Φ(x), with erf (|x| / √2) from x² / 2: x (1 + erf) / 2. -/
def spGelu (x : Num) : Nat :=
  match x with
  | .nan _ => nan32
  | .inf s => if s then zero32 true else inf32 false
  | .fin s m _ =>
    if m = 0 then zero32 s
    else if s ∧ x.atLeast 16 then zero32 true
    else if ¬ s ∧ x.atLeast 16 then fl x
    else
      let a := x.fx.natAbs
      -- 2/√π × |x|/√2 × Σ(x²/2), with 1/√2 = √(1/2)
      let c := isqrt (fxOne <<< (fxP - 1))
      let erf := fxMul (fxMul (fxMul fxTwoOverSqrtPi c) a) (fxErfSum (fxMul a a / 2)).toNat
      let phi2 := if s then fxOne - erf else fxOne + erf
      fxRound s (fxMul a phi2 / 2)

/-- A special function on an FP32 code. -/
def special (f : SpFn) (c : Nat) : Nat :=
  let x := f32 c
  match f with
  | .exp => spExp x
  | .exp2 => spExp2 x
  | .ln => spLn x
  | .log2 => spLog2 x
  | .rcp => spRcp x
  | .sqrt => spSqrt x
  | .rsqrt => spRsqrt x
  | .tanh => spTanh x
  | .sigmoid => spSigmoid x
  | .silu => spSilu x
  | .erf => spErf x
  | .gelu => spGelu x

end Sys2Proof.Machine
end

