-- ==== Sys2Proof/Machine/FabRecv.lean ====
section
/-! DEFINITION. The Solbite receiver: windows, translation and checks, application, acknowledgements (chapter 11). -/

namespace Sys2Proof.Machine

open Sys2Proof

/-! ### Arrived transactions -/

/-- The port number that stands for requests and responses of the device to itself. -/
def loopPort : Nat := 64

/-- Half that counts what arrives on a port: its own, or the lead half for the loop (R394). -/
def Dev.countHalf (d : Dev) (p : Nat) : Half := if p = loopPort then d.leadHalf else portHalf p

/-- The first element of a list that satisfies a test and has nothing of its class and channel before it. -/
def firstTxn (p : Txn → Bool) : List Txn → List Nat → Option Txn
  | [], _ => none
  | t :: l, seen => if p t ∧ ¬ seen.contains t.chan then some t else firstTxn p l (t.chan :: seen)

/-- The transaction that a command about a port handles: the first of its kind with nothing of its class and channel
before it (R366). -/
def Dev.arrivedTxn (d : Dev) (p : Nat) (kind : Txn → Bool) : Option Txn :=
  firstTxn kind (if p = loopPort then d.fab.loop else (d.fport p).arrived) []

/-- Takes a handled transaction out of the receive buffer and frees its credits (R357). -/
def Dev.consume (d : Dev) (p : Nat) (t : Txn) : Dev :=
  if p = loopPort then d.onFab fun f => { f with loop := dropTxn t f.loop }
  else
    let x := d.fport p
    d.setPort p { x with arrived := dropTxn t x.arrived, freed := setNth x.freed t.chan (nth x.freed t.chan 0 + t.units) }

/-- Handles the transaction that a command names: takes it out, runs `f`, and returns credits. Without one, nothing
happens. -/
def Wk.onTxn (w : Wk) (p : Nat) (kind : Txn → Bool) (f : Wk → Txn → Wk) : Wk :=
  match w.dev.arrivedTxn p kind with
  | none => w
  | some t => (f (w.upd (·.consume p t)) t).upd fun d => if p = loopPort then d else d.drain p

/-! ### Translation and checks (R367, R368) -/

/-- The region entry of a job and a region. -/
def Dev.regionOf (d : Dev) (job region : Nat) : Option Region :=
  d.fab.regions.find? fun e => e.job = job ∧ e.id = region

/-- The region entry that a request goes through: its own, or one being removed through which it had been translated (R369). -/
def Dev.entryFor (d : Dev) (t : Txn) (region : Nat) : Option Region :=
  match d.fab.leaving.find? fun l => l.entry.job = t.job ∧ l.entry.id = region ∧ l.waits.contains (t.src, t.seq) with
  | some l => some l.entry
  | none => d.regionOf t.job region

/-- Whether a region's half hosts the copy of a device: the system region of R371 and R474. REGION_ID of a half's copy
area under JOB_ID 0 is the half's code (DESIGN CHOICE: firmware's region IDs are not given). -/
def Dev.hostRegion (d : Dev) (src region : Nat) : Option Region :=
  let h := Half.ofCode region
  let en := d.rn h Reg.MIR_HOST_DEVICE
  if region > 1 ∨ ¬ bit en 31 ∨ en % 2 ^ 18 ≠ src then none
  else some { base := d.reg64 h Reg.MIR_HOST_BASE_LO, span := 2 ^ 40 - 1, mode := 0, a := false, w := true, r := true,
              inv := false, reach := 0, client := 0, owner := src, job := 0, readers := 0, id := region }

/-- What a request needs. -/
structure Need where
  r : Bool := false
  w : Bool := false
  a : Bool := false
  inv : Bool := false

/-- Whether an entry's rights cover a need. -/
def Region.covers (e : Region) (n : Need) : Bool := (!n.r || e.r) && (!n.w || e.w) && (!n.a || e.a) && (!n.inv || e.inv)

/-- The checks of R368 on a region entry: the LOCAL address, or the status of the refusal. -/
def Dev.viaEntry (d : Dev) (t : Txn) (region off n : Nat) (need : Need) (writes : Bool) : Except Nat Nat :=
  let sys : Bool := t.job == 0
  let entry := if sys then (if t.tc = 5 ∨ t.tc = 6 then d.hostRegion t.src region else none) else d.entryFor t region
  match entry with
  | none => .error stDenied
  | some e =>
    let resident : Bool := sys || (match d.job t.job with | some j => j.client == e.client | none => false)
    if ¬ resident ∨ ¬ e.covers need ∨ off + n > e.span then .error stDenied
    else if writes ∧ e.mode = 0 ∧ t.src ≠ e.owner then .error stDenied
    else if t.gateway ∧ e.reach ≠ 1 then .error stDenied
    else .ok (e.base + off)

/-- The checks of R368, those of R242 last: the LOCAL address, or the status of the refusal. A probe's range is checked as one byte. -/
def Dev.translate (d : Dev) (t : Txn) (region off n : Nat) (need : Need) (writes : Bool) : Except Nat Nat :=
  match d.viaEntry t region off n need writes with
  | .error st => .error st
  | .ok a =>
    let st := if t.job = 0 then 0 else d.checkRange t.job a (max n 1) writes
    if st = 0 then .ok a else .error st

/-- Counts a request refused under R242 where its address lies (R271). -/
def Dev.localRefused (d : Dev) (t : Txn) (region off n : Nat) (need : Need) (writes : Bool) : Dev :=
  match d.viaEntry t region off n need writes with
  | .error _ => d
  | .ok a => d.count (halfOf a) Reg.MEM_ACCESS_DENIED_LO 1

/-! ### Windows and acknowledgements (R364, R365) -/

/-- What is kept for a source. -/
def Dev.win (d : Dev) (src : Nat) : Option Win := aget d.fab.wins src

/-- Replaces what is kept for a source. -/
def Dev.setWin (d : Dev) (src : Nat) (x : Win) : Dev := d.onFab fun f => { f with wins := aput f.wins src x }

/-- Steps a window over the SEQs that have been applied. The first argument bounds their number. -/
def Win.advance : Nat → Win → Win
  | 0, x => x
  | k + 1, x => if x.marks.any fun m => m.1 = x.lowest then advance k { x with lowest := (x.lowest + 1) % 16384 } else x

/-- The window of a source as a SEQ, or a MARK, of it is met: created on first use with that SEQ (DESIGN CHOICE: the receiver is told
of no other), and reaching back to a SEQ that comes from behind it and has not been applied. -/
def Dev.winFor (d : Dev) (src seq : Nat) : Win :=
  match d.win src with
  | some w =>
    if seqLe seq w.newest ∧ (w.newest + 16385 - w.lowest) % 16384 < (w.newest + 16385 - seq) % 16384 ∧ ¬ w.marks.any fun m => m.1 = seq then
      { w with lowest := seq }
    else w
  | none => { lowest := seq, newest := seq, marks := [], refused := [], runs := [], fences := [], lastAt := d.time }

/-- Marks a SEQ of a job with its status, and forgets marks that have left the window. -/
def Win.mark (x : Win) (seq status job now : Nat) : Win :=
  let newest := if seqLe x.newest seq then seq else x.newest
  let keep (s : Nat) : Bool := seqLe s newest
  let low := if seqLe x.lowest (newest + 1) then x.lowest else (newest + 16384 - 8191) % 16384
  let marks := (x.marks.filter fun m => keep m.1) ++ [(seq, status)]
  Win.advance marks.length
    { x with newest := newest, lowest := low, marks := marks, lastAt := now,
             refused := (x.refused.filter fun m => keep m.1) ++ (if status = stOk then [] else [(seq, job, status)]) }

/-- An ACK of SEQs first to last (R360). -/
def ackTxn (dest me tc status first last job : Nat) : Txn :=
  Txn.mk0 opAck tc dest 0 me (status * 2 ^ 56 + first * 2 ^ 14 + last) job 0 []

/-- Sends the ACK of a run. JOB_ID of a run applied with OK is 0 (DESIGN CHOICE). -/
def Dev.sendRun (d : Dev) (src : Nat) (r : AckRun) : Dev :=
  d.respond (ackTxn src d.me r.tc stOk r.first ((r.first + r.count - 1) % 16384) 0)

/-- Queues an acknowledgement: OK joins a run of its class, which is sent at 32 SEQs; any other status is acknowledged on
its own. -/
def Dev.queueAck (d : Dev) (src seq status tc job : Nat) : Dev :=
  if status ≠ stOk then d.respond (ackTxn src d.me tc status seq seq job)
  else
    match d.win src with
    | none => d
    | some x =>
      match x.runs.find? fun r => r.tc = tc ∧ (r.first + r.count) % 16384 = seq with
      | some r =>
        let r' := { r with count := r.count + 1 }
        if r'.count ≥ 32 then (d.setWin src { x with runs := x.runs.filter fun q => q ≠ r }).sendRun src r'
        else d.setWin src { x with runs := x.runs.map fun q => if q = r then r' else q }
      | none => d.setWin src { x with runs := x.runs ++ [⟨seq, 1, d.time, tc⟩] }

/-- Whether every SEQ of a window up to a mark has been applied. -/
def Win.reached (x : Win) (m : Nat) : Bool := !seqLe x.lowest m

/-- Status that a FENCE of a job is answered with: the first refusal, in SEQ order, of a request of the job up to its MARK (R382). -/
def Win.fenceStatus (x : Win) (job mark : Nat) : Nat :=
  ((x.refused.filter fun r => r.2.1 = job ∧ seqLe r.1 mark).foldl
    (fun (o : Option (Nat × Nat × Nat)) r =>
      match o with
      | none => some r
      | some b => if seqLe r.1 b.1 then some r else some b)
    none).elim stOk (·.2.2)

/-- Answers the FENCEs whose MARK has been reached (R381). -/
def Dev.fenceAcks (d : Dev) (src : Nat) : Dev :=
  match d.win src with
  | none => d
  | some x =>
    let due := x.fences.filter fun t => x.reached t.seq
    let d := d.setWin src { x with fences := x.fences.filter fun t => ¬ x.reached t.seq }
    due.foldl (fun d t => d.respond (Txn.mk0 opFenceAck 0 src t.seq d.me (x.fenceStatus t.job t.seq * 2 ^ 56) t.job 0 [])) d

/-- A source has sent something (R364). -/
def Dev.winSeen (d : Dev) (src : Nat) : Dev :=
  match d.win src with
  | none => d
  | some x => d.setWin src { x with lastAt := d.time }

/-- Entries whose last request has been applied have been removed: RESULT of the REMOVE is ACCEPTED (R369, R393). -/
def Dev.regionSettle (d : Dev) : Dev :=
  let busy (l : Leaving) : Bool := !l.waits.isEmpty || d.fab.homes.any fun h => h.job = l.entry.job ∧ h.region = l.entry.id
  if d.fab.leaving.isEmpty ∨ d.fab.leaving.any busy then d.onFab fun f => { f with leaving := f.leaving.filter busy }
  else
    let d := d.onFab fun f => { f with leaving := [] }
    let v := d.rn d.leadHalf Reg.FAB_REGION_STATUS
    if v / 2 ^ 28 = 7 then d.setReg d.leadHalf Reg.FAB_REGION_STATUS (w32 (2 ^ 28 + v % 2 ^ 28)) else d

/-- A request of a source is done: no removal waits for it any longer. -/
def Dev.leaveDone (d : Dev) (src seq : Nat) : Dev :=
  if d.fab.leaving.isEmpty then d
  else
    (d.onFab fun f => { f with leaving := f.leaving.map fun l => { l with waits := l.waits.filter fun x => x ≠ (src, seq) } }).regionSettle

/-- A SEQ has been applied or refused: it is marked, acknowledged and counted for FENCEs (R364, R381). -/
def Dev.seqDone (d : Dev) (src seq tc job st : Nat) : Dev :=
  (((d.setWin src ((d.winFor src seq).mark seq st job d.time)).queueAck src seq st tc job).fenceAcks src).leaveDone src seq

/-- Handles a request under R364: a duplicate is acknowledged again; otherwise `apply` answers its status, and the SEQ is marked. -/
def Wk.request (w : Wk) (p : Nat) (t : Txn) (apply : Wk → Wk × Nat) : Wk :=
  let x := w.dev.winFor t.src t.seq
  match x.marks.find? fun m => m.1 = t.seq with
  | some m =>
    let w := w.upd fun d => (d.setWin t.src { x with lastAt := d.time }).count (d.countHalf p) Reg.FAB_DUP_DISCARD_LO 1
    w.upd (·.respond (ackTxn t.src w.dev.me t.tc m.2 t.seq t.seq t.job))
  | none =>
    let (w, st) := apply w
    let w := if st = stOk then w else w.upd fun d => d.count (d.countHalf p) Reg.FAB_REFUSED_LO 1
    w.upd (·.seqDone t.src t.seq t.tc t.job st)

/-! ### Application (R361, R362, R368) -/

/-- Removes ordered-add entries whose word a write touches (R362). -/
def Dev.dropOrds (d : Dev) (a n : Nat) : Dev :=
  d.onFab fun f => { f with ords := f.ords.filter fun e => ¬ (e.2.addr < a + n ∧ a < e.2.addr + 4) }

/-- Records a remote write's blocks under R329, as a write at the present place in commit order. -/
def Dev.noteBlocks (d : Dev) (a n : Nat) : Dev :=
  (List.range ((a + n - 1) / 64 - a / 64 + 1)).foldl
    (fun d i => d.onTgu fun t => { t with blockOrd := aput t.blockOrd (a / 64 + i) t.ord }) d

/-- Applies a remote write. -/
def Wk.applyWrite (w : Wk) (a : Nat) (bs : List Byte) : Wk :=
  if bs.isEmpty then w else (w.wr a bs).upd fun d => (d.dropOrds a bs.length).noteBlocks a bs.length

/-- Whether a page of a range waits for its copy-back (R327). -/
def Dev.awaitsCopy (d : Dev) (a n : Nat) : Bool :=
  n != 0 && d.tgu.outFrames.any fun f => decide (f.page < a + n ∧ a < f.page + f.size)

/-- Width in bytes of an AOP (R361). -/
def aopWidth (aop : Nat) : Nat := if aop = 1 ∨ aop = 2 ∨ aop = 7 then 4 else 8

/-- The format of a lane of ADD_FP32 or ADD_BF16X2. -/
def laneFmt (bf16 : Bool) : Fmt := if bf16 then fmtBf16 else fmtFp32

/-- Code of a lane value, a NaN in its canonical form. -/
def laneCode (bf16 : Bool) (x : Num) : Nat :=
  if x.isNan then (if bf16 then 0x7FC0 else 0x7FC00000) else (laneFmt bf16).round false .rne 0 x

/-- The sum of two lanes, rounded once (R361). -/
def laneAdd (bf16 : Bool) (a b : Nat) : Nat := laneCode bf16 (((laneFmt bf16).decode a).add ((laneFmt bf16).decode b))

/-- Bits of a lane. -/
def laneBits (bf16 : Bool) : Nat := if bf16 then 16 else 32

/-- Lane codes of a 32-bit word, low lane first. -/
def lanesOf (bf16 : Bool) (x : Nat) : List Nat := if bf16 then [bits x 0 16, bits x 16 16] else [bits x 0 32]

/-- The word of lane codes. -/
def joinLanes (bf16 : Bool) (l : List Nat) : Nat := if bf16 then nth l 0 0 + nth l 1 0 * 2 ^ 16 else nth l 0 0

/-- The word an unordered ATOMIC leaves (R361). `v` is the first 8 bytes of data and `v2` the second. -/
def atomicResult (aop old v v2 : Nat) : Nat :=
  match aop with
  | 0 => (old + v) % 2 ^ 64
  | 1 => laneAdd false old (v % 2 ^ 32)
  | 2 => joinLanes true (List.zipWith (laneAdd true) (lanesOf true old) (lanesOf true (v % 2 ^ 32)))
  | 3 => if sext old 64 ≤ sext v 64 then old else v
  | 4 => if sext old 64 ≥ sext v 64 then old else v
  | 5 => v
  | 6 => if old = v then v2 else old
  | 7 => (old + v) % 2 ^ 32
  | _ => old

/-- Exponent of the unit of an ordered-add sum: the least bit of the lane's format (R362). -/
def ordUnit (bf16 : Bool) : Int := if bf16 then -133 else -149

/-- Adds an exact value to a lane. -/
def OrdLane.add (l : OrdLane) (bf16 : Bool) (x : Num) : OrdLane :=
  match x with
  | .nan _ => { l with nan := true }
  | .inf s => if s then { l with ninf := true } else { l with pinf := true }
  | x => { l with sum := l.sum + x.scaled (ordUnit bf16) }

/-- The rounded value of a lane. An exact zero is +0 (DESIGN CHOICE: the sign is not stated). -/
def OrdLane.code (l : OrdLane) (bf16 : Bool) : Nat :=
  if l.nan ∨ (l.pinf ∧ l.ninf) then laneCode bf16 (.nan false)
  else if l.pinf then laneCode bf16 (.inf false)
  else if l.ninf then laneCode bf16 (.inf true)
  else laneCode bf16 (.ofInt l.sum (ordUnit bf16))

/-- The lanes of an ordered-add entry after a contribution. -/
def ordAdd (bf16 : Bool) (lanes : List OrdLane) (v : Nat) : List OrdLane :=
  List.zipWith (fun l c => l.add bf16 ((laneFmt bf16).decode c)) lanes (lanesOf bf16 (v % 2 ^ 32))

/-- An ordered accumulation (R362): its status. -/
def Wk.orderedAdd (w : Wk) (job region a : Nat) (bf16 : Bool) (v : Nat) : Wk × Nat :=
  let h := halfOf a
  let old := w.dev.fab.ords.find? fun e => e.2.job = job ∧ e.2.addr = a ∧ e.2.bf16 = bf16
  if old.isNone ∧ (w.dev.fab.ords.filter fun e => e.1 = h).length ≥ 262144 then (w, stStrict)
  else
    let fresh : List OrdLane := (lanesOf bf16 0).map fun _ => ⟨0, false, false, false⟩
    let lanes := match old with | some e => e.2.lanes | none => ordAdd bf16 fresh (ofBytes (w.rdN a 4))
    let e : OrdEntry := ⟨job, a, bf16, ordAdd bf16 lanes v, region⟩
    let w := w.wr a (toBytes 4 (joinLanes bf16 (e.lanes.map (·.code bf16))))
    (w.upd fun d =>
      ((d.onFab fun f => { f with ords := (f.ords.filter fun o => ¬ (o.2.job = job ∧ o.2.addr = a)) ++ [(h, e)] }).count h
        Reg.FAB_ORDERED_ADDS_LO 1).noteBlocks a 4, stOk)

/-- Applies an ATOMIC at a LOCAL address: its status. -/
def Wk.applyAtomic (w : Wk) (t : Txn) (a : Nat) : Wk × Nat :=
  let aop := t.len % 16
  let v := ofBytes (t.data.take 8)
  if t.ordered ∧ (aop = 1 ∨ aop = 2) then w.orderedAdd t.job t.region a (aop == 2) v
  else
    let n := aopWidth aop
    (w.applyWrite a (toBytes n (atomicResult aop (ofBytes (w.rdN a n)) v (ofBytes (t.data.drop 8)))), stOk)

/-! ### Requests by opcode -/

/-- Rights that LEN of a READ names: a probe's [6:4], or R. -/
def Txn.readNeed (t : Txn) : Need :=
  if t.len % 16 = 0 then { a := bit t.len 6, w := bit t.len 5, r := bit t.len 4 } else { r := true }

/-- Bytes that a READ or BULK GET asks for. -/
def Txn.readBytes (t : Txn) : Nat := if t.op = opBulk then 256 * (t.len % 32) else 32 * (t.len % 16)

/-- The answer to a READ, probe or BULK GET. A refusal carries no data. -/
def readResp (me : Nat) (t : Txn) (status : Nat) (data : List Byte) : Txn :=
  let len := if status ≠ stOk then 0 else if t.op = opBulk then 128 + t.len % 32 else t.len % 16
  Txn.mk0 opReadResp t.tc t.src t.seq me (status * 2 ^ 56) t.job len (if status = stOk then data else [])

/-- Serves a READ, probe or BULK GET from committed state (R184, R368). -/
def Wk.serveRead (w : Wk) (p : Nat) (t : Txn) : Wk :=
  let n := t.readBytes
  let need := if t.op = opBulk then { r := true } else t.readNeed
  let w := w.upd (·.winSeen t.src)
  match w.dev.translate t t.region t.off n need (need.w || need.a) with
  | .error st =>
    w.upd fun d =>
      ((d.localRefused t t.region t.off n need (need.w || need.a)).count (d.countHalf p) Reg.FAB_REFUSED_LO 1).respond (readResp d.me t st [])
  | .ok a =>
    match if n = 0 then none else w.dev.poisonIn a n with
    | some k => w.upd fun d => (d.count (halfOf k) Reg.MEM_POISON_READ_LO 1).respond (readResp d.me t stUncorrectable [])
    | none => let bs := w.rdN a n; w.upd fun d => d.respond (readResp d.me t stOk bs)

/-- Whether a write is the DONE of a member that this device has declared lost: it is ignored (R504). -/
def Dev.startIgnores (d : Dev) (t : Txn) : Bool :=
  match d.start with
  | none => false
  | some x =>
    t.job == x.job && t.region == x.region && bits (fld t.data 0 4) 28 4 == 3 &&
      x.lost.any fun i => t.off == 65536 * x.k + 32 * i

/-- Serves a WRITE (R368). -/
def Wk.serveWrite (w : Wk) (p : Nat) (t : Txn) : Wk :=
  w.request p t fun w =>
    match w.dev.translate t t.region t.off t.data.length { w := true } true with
    | .error st => (w.upd (·.localRefused t t.region t.off t.data.length { w := true } true), st)
    | .ok a => if w.dev.startIgnores t then (w, stOk) else (w.applyWrite a t.data, stOk)

/-- Serves an ATOMIC (R361). A misaligned OFFSET, which no CX-40 sends, is refused (DESIGN CHOICE). -/
def Wk.serveAtomic (w : Wk) (p : Nat) (t : Txn) : Wk :=
  w.request p t fun w =>
    let n := aopWidth (t.len % 16)
    if t.off % n ≠ 0 then (w, stDenied)
    else
      match w.dev.translate t t.region t.off n { a := true } true with
      | .error st => (w.upd (·.localRefused t t.region t.off n { a := true } true), st)
      | .ok a => w.applyAtomic t a

/-- Runs of a MASKED segment's written sectors (R384). -/
def maskedWrites (a : Nat) (data : List Byte) : List (Nat × List Byte) :=
  let m := ofBytes (data.take 16)
  (List.range 128).filterMap fun i => if bit m i then some (a + 32 * i, (data.drop (16 + 32 * i)).take 32) else none

/-- Serves a BULK segment that writes. -/
def Wk.serveBulk (w : Wk) (p : Nat) (t : Txn) : Wk :=
  w.request p t fun w =>
    let n := if t.masked then 4096 else t.data.length
    match w.dev.translate t t.region t.off n { w := true } true with
    | .error st => (w.upd (·.localRefused t t.region t.off n { w := true } true), st)
    | .ok a =>
      if t.masked then ((maskedWrites a t.data).foldl (fun w r => w.applyWrite r.1 r.2) w, stOk)
      else (w.applyWrite a t.data, stOk)

/-- The address a write lands at, for the wait of R327. -/
def Dev.writeAt (d : Dev) (t : Txn) : Option (Nat × Nat) :=
  let n := if t.op = opAtomic then aopWidth (t.len % 16) else if t.masked then 4096 else t.data.length
  match d.translate t t.region t.off n { w := t.op != opAtomic, a := t.op == opAtomic } true with
  | .ok a => some (a, n)
  | .error _ => none

/-- Whether a write must wait for a copy-back (R327). -/
def Dev.mustWait (d : Dev) (t : Txn) : Bool :=
  match d.writeAt t with
  | some (a, n) => d.awaitsCopy a n
  | none => false

/-! ### Invalidation (R377 to R379) -/

/-- Valid members of a reader set. -/
def Dev.readersOf (d : Dev) (set : Nat) : List Nat :=
  if set = 0 then []
  else (d.fab.readers.filter fun m => m.1.1 = set ∧ bit m.2 31).map (·.2)

/-- Ends an INVALIDATE at its home device once no reader is outstanding (R378). -/
def Wk.homeDone (w : Wk) (id : Nat) : Wk :=
  match w.dev.fab.homes.find? fun h => h.id = id with
  | none => w
  | some h =>
    if ¬ h.waiting.isEmpty then w
    else
      w.upd fun d =>
        ((d.onFab fun f => { f with homes := f.homes.filter fun g => g.id ≠ id }).seqDone h.src h.seq h.tc h.job h.status).leaveDone h.src h.seq

/-- Delivers notices for an INVALIDATE that its home device has accepted. -/
def Wk.deliverAll (w : Wk) (t : Txn) (members : List Nat) : Wk :=
  let id := w.dev.fab.nextId
  let home : HomeInv := ⟨id, t.src, t.seq, t.tc, t.job, t.region, [], stOk⟩
  let w := w.upd fun d => d.onFab fun f => { f with nextId := f.nextId + 1, homes := f.homes ++ [home] }
  let w := members.zipIdx.foldl
    (fun w mk =>
      let m := mk.1
      let dev := bits m 0 18
      let set (f : HomeInv → HomeInv) (w : Wk) : Wk :=
        w.upd fun d => d.onFab fun s => { s with homes := s.homes.map fun g => if g.id = id then f g else g }
      if ¬ w.dev.reachable dev then set (fun g => if g.status = stOk then { g with status := stMemberLost } else g) w
      else
        let t := Txn.mk0 opInv 0 dev 0 w.dev.me (bits m 64 64) (bits m 32 20) 2 []
        (set (fun g => { g with waiting := g.waiting ++ [mk.2] }) w).release t (.deliver id mk.2))
    w
  w.homeDone id

/-- Serves an INVALIDATE at its home device (R378, R379). It is checked as a write of the region's first byte: OFFSET
carries no address. -/
def Wk.serveInvalidate (w : Wk) (p : Nat) (t : Txn) : Wk :=
  let x := w.dev.winFor t.src t.seq
  let busy : Bool := w.dev.fab.homes.any fun h => h.src = t.src ∧ h.seq = t.seq
  let applied : Bool := x.marks.any fun m => m.1 = t.seq
  if busy ∧ ¬ applied then w
  else
    let check : Option Nat :=
      match w.dev.translate t t.region 0 1 { w := true } true with
      | .error st => some st
      | .ok _ =>
        match w.dev.regionOf t.job t.region with
        | none => some stDenied
        | some e => if bit t.len 0 ∧ t.src ≠ e.owner then some stDenied else none
    if applied ∨ check.isSome then
      w.request p t fun w => (w.upd fun d => if check.isSome then d.localRefused t t.region 0 1 { w := true } true else d, check.getD stOk)
    else
      match w.dev.regionOf t.job t.region with
      | none => w
      | some e =>
        let w := w.upd fun d => d.setWin t.src { x with lastAt := d.time }
        let w :=
          if bit t.len 0 then
            w.upd fun d =>
              (d.onFab fun f => { f with regions := f.regions.map fun g => if g = e then { g with owner := t.off % 2 ^ 18 } else g }).setupChanged
          else w
        w.deliverAll t (w.dev.readersOf e.readers)

/-- Serves a delivered INVALIDATE at a reader: the notice counter advances. -/
def Wk.serveDeliver (w : Wk) (p : Nat) (t : Txn) : Wk :=
  w.request p t fun w =>
    match w.dev.translate t t.region t.off 8 { inv := true } true with
    | .error st => (w.upd (·.localRefused t t.region t.off 8 { inv := true } true), st)
    | .ok a => (w.applyWrite a (toBytes 8 ((ofBytes (w.rdN a 8) + 1) % 2 ^ 64)), stOk)

/-! ### Fences (R381, R382) -/

/-- A FENCE arrives: held until its MARK is reached. -/
def Wk.serveFence (w : Wk) (t : Txn) : Wk :=
  w.upd fun d =>
    let x := d.winFor t.src t.seq
    let x := { x with lastAt := d.time, fences := if x.fences.any fun f => f.seq = t.seq then x.fences else x.fences ++ [t] }
    (d.setWin t.src x).fenceAcks t.src

/-- Status a FENCE of a job completes with: the first refusal in SEQ order within its scope (2^18 for all devices). -/
def Dev.fenceStatus (d : Dev) (job scope : Nat) : Nat :=
  (d.fab.dests.findSome? fun e =>
    if scope = 2 ^ 18 ∨ scope = e.1 then
      ((e.2.refused.filter fun r => r.1 = job).foldl
        (fun (o : Option (Nat × Nat × Nat)) r =>
          match o with
          | none => some r
          | some b => if seqLe r.2.1 b.2.1 then some r else some b)
        none).map fun r => r.2.2
    else none).getD stOk

/-- Ends the FENCE nodes that every destination has answered. -/
def Wk.fenceCheck (w : Wk) : Wk :=
  let ready := w.dev.tgu.insts.flatMap fun p =>
    (List.range p.2.nodes.length).filterMap fun i =>
      match p.2.nodes[i]? with
      | some n =>
        match n.eng with
        | .fencing m =>
          if n.st = .running ∧ ¬ w.dev.fab.dests.any fun e => e.2.fences.any fun f => f.seq = p.1 ∧ f.node = i then
            some (p.1, i, p.2.job, (nth m 0 (2 ^ 18, 0)).1)
          else none
        | _ => none
      | none => none
  ready.foldl
    (fun w r =>
      let st := w.dev.fenceStatus r.2.2.1 r.2.2.2
      if st = stOk then w.upd (·.engineDone r.1 r.2.1) else w.fail r.1 r.2.1 st 0)
    w

/-- Whether released requests to a destination that satisfy a test are still unacknowledged. -/
def Dest.owes (x : Dest) (p : Txn → ReqFor → Bool) : Bool := x.held.any (fun h => p h.txn h.for_) || x.waiting.any fun r => p r.1 r.2

/-- Whether a request is a WRITE, ATOMIC or BULK of a command of a job to a region (R378). -/
def Txn.blocks (t : Txn) (job region : Nat) : Bool :=
  t.job == job && t.region == region && (t.op == opWrite || t.op == opAtomic || t.op == opBulk)

/-- INVALIDATE and OWN_TRANSFER nodes whose released writes have been acknowledged become ready (R378). -/
def Wk.invalidateCheck (w : Wk) : Wk :=
  let ready := w.dev.tgu.insts.flatMap fun p =>
    (List.range p.2.nodes.length).filterMap fun i =>
      match p.2.nodes[i]? with
      | some n =>
        match n.log with
        | [(_, .invalidate dev region _)] =>
          if n.st = .running ∧ n.eng = .working ∧ ¬ (w.dev.dest dev).owes fun t _ => t.blocks p.2.job region then some (p.1, i)
          else none
        | _ => none
      | none => none
  ready.foldl (fun w r => w.upd (·.engineDone r.1 r.2)) w

/-! ### Acknowledgements at the source (R365, R370, R381) -/

/-- What a device engine does about the outcome of a request it sent; set by the file that knows the engines. -/
abbrev EngineHook := Wk → Txn → Nat → Wk

/-- Ends one held request with a status. -/
def Wk.settle (w : Wk) (hook : EngineHook) (dest : Nat) (h : HeldReq) (status : Nat) : Wk :=
  let fs := w.dev.coveringFences h.txn.job dest h.seq
  let w := w.upd fun d =>
    let x := d.dest dest
    d.setDest dest { x with held := x.held.filter fun g => g.seq ≠ h.seq,
                            refused := if status = stOk then x.refused else x.refused ++ [(h.txn.job, h.seq, status)] }
  match h.for_ with
  | .deliver id k =>
    let w := w.upd fun d => d.onFab fun f => { f with homes := f.homes.map fun g =>
      if g.id = id then { g with waiting := g.waiting.filter (· ≠ k), status := if g.status = stOk then status else g.status } else g }
    w.homeDone id
  | .engine _ => hook w h.txn status
  | .gone _ => w
  | .node _ _ _ _ => if status = stOk then w else w.refusedAfter h.for_ dest status fs

/-- Sends a held request again at once, on the path it went by. -/
def Dev.sendAgain (d : Dev) (dest : Nat) (h : HeldReq) : Dev :=
  match h.slot with
  | none => d
  | some s =>
    let x := d.dest dest
    (d.setDest dest { x with held := x.held.map fun g => if g.seq = h.seq then { g with at_ := d.time } else g }).sendAt h.txn s

/-- An ACK of SEQs first to last arrives from a destination. -/
def Wk.acked (w : Wk) (hook : EngineHook) (dest first last status : Nat) : Wk :=
  let x := w.dev.dest dest
  let inRun (s : Nat) : Bool := decide ((s + 16384 - first) % 16384 ≤ (last + 16384 - first) % 16384)
  let hit := x.held.filter fun h => inRun h.seq
  let w := w.upd fun d => d.setDest dest { x with heard := d.time }
  let w := hit.foldl (fun w h => if status = stParity then w.upd (·.sendAgain dest h) else w.settle hook dest h status) w
  ((w.upd (·.pump dest)).fenceCheck).invalidateCheck

/-- A FENCE_ACK arrives: it answers the FENCEs of its job and MARK, and acknowledges every SEQ up to MARK. One that carries a refusal
leaves the job's own requests to their ACKs, which say which was refused. -/
def Wk.fenceAcked (w : Wk) (hook : EngineHook) (dest mark status job : Nat) : Wk :=
  let x := w.dev.dest dest
  let mine (f : OutFence) : Bool := f.mark == mark && f.ahead == 0 && f.job == job
  if ¬ x.fences.any mine then w
  else
    let w := w.upd fun d => d.setDest dest { x with heard := d.time, fences := x.fences.filter fun f => ¬ mine f }
    let w := (x.held.filter fun h => seqLe h.seq mark ∧ (status = stOk ∨ h.txn.job ≠ job)).foldl (fun w h => w.settle hook dest h stOk) w
    let w := if status = stOk then w else (x.fences.filter mine).foldl (fun w f => w.fail f.seq f.node status dest) w
    ((w.upd (·.pump dest)).fenceCheck).invalidateCheck

/-! ### Timers (R364, R365, R375) -/

/-- 1 µs after its first SEQ, a run is acknowledged. -/
def Dev.coalesce (d : Dev) (src : Nat) : Dev :=
  match d.win src with
  | none => d
  | some x =>
    let due := x.runs.filter fun r => r.at_ + 1000 ≤ d.time
    let d := d.setWin src { x with runs := x.runs.filter fun r => ¬ r.at_ + 1000 ≤ d.time }
    due.foldl (fun d r => d.sendRun src r) d

/-- A slot on which something has waited PATH_US dies. -/
def Dev.pathTimeout (d : Dev) (dest s : Nat) : Dev :=
  let x := d.dest dest
  let late (slot : Option Nat) (t : Nat) : Bool := slot == some s && decide (t + d.pathNs ≤ d.time)
  if x.held.any (fun h => late h.slot h.at_) ∨ x.reads.any (fun r => late r.slot r.at_) ∨ x.fences.any (fun f => late f.slot f.at_)
  then d.killSlot dest s else d

/-- A dead slot becomes live when its port has been UP for 1 ms; a slot that died with its port UP does so 1 ms after it
died (DEDUCED from R375). -/
def Dev.slotRevive (d : Dev) (dest s : Nat) : Dev :=
  let x := d.dest dest
  let p := d.fport (d.slotPort dest s)
  match x.dead.find? fun e => e.1 = s with
  | none => if d.slotLive dest s then d.pump dest else d
  | some e =>
    if p.st = .up ∧ max p.upAt e.2 + 1000000 ≤ d.time then (d.setDest dest { x with dead := x.dead.filter fun g => g.1 ≠ s }).pump dest
    else d

/-- A source's window is dropped after REACH_MS + PATH_US + 1 ms without a request, and never sooner than 10 ms. -/
def Dev.windowExpiry (d : Dev) (src : Nat) : Dev :=
  match d.win src with
  | none => d
  | some x =>
    if x.lastAt + max 10000000 (d.reachNs + d.pathNs + 1000000) ≤ d.time then d.onFab fun f => { f with wins := adel f.wins src } else d

/-- Whether a destination has been silent for REACH_MS with something outstanding and no live slot (R382). -/
def Dev.unreachable (d : Dev) (dest : Nat) : Bool :=
  let x := d.dest dest
  !(x.held.isEmpty && x.waiting.isEmpty && x.reads.isEmpty && x.fences.isEmpty) && decide (x.heard + d.reachNs ≤ d.time)
    && (List.range 4).all fun s => !d.slotLive dest s

/-! ### Parity in the fabric unit (R365, R395) -/

/-- Opcodes that an ACK answers. -/
def Txn.ackable (t : Txn) : Bool :=
  t.op == opWrite || t.op == opAtomic || (t.op == opBulk && !bit t.len 7) || t.op == opInv || t.op == opMsg

/-- A transaction at the front of its channel is found corrupted before it is applied: a request is answered PARITY, its SEQ
unmarked; another is dropped, and its sender asks again after PATH_US (DESIGN CHOICE). -/
def Wk.txnParity (w : Wk) (p chan : Nat) : Wk :=
  w.onTxn p (fun t => t.chan == chan) fun w t =>
    if t.ackable then w.upd fun d => d.respond (ackTxn t.src d.me t.tc stParity t.seq t.seq t.job) else w

/-- A released request is found corrupted at its source: it is read again from its commit log and sent again. -/
def Dev.releasedParity (d : Dev) (dest seq : Nat) : Dev :=
  match (d.dest dest).held.find? fun h => h.seq = seq with
  | none => d
  | some h => d.sendAgain dest h

/-- A held request is lost to an uncorrectable error: the job's step with UNCORRECTABLE. -/
def Wk.heldLost (w : Wk) (hook : EngineHook) (dest seq : Nat) : Wk :=
  match (w.dev.dest dest).held.find? fun h => h.seq = seq with
  | none => w
  | some h => (w.settle hook dest h stUncorrectable).upd (·.pump dest)

end Sys2Proof.Machine
end

