-- ==== Sys2Proof/Machine/FabNode.lean ====
section
/-! DEFINITION. Fabric node opcodes, commit logs released, gateways and asynchronous copies (R370, R378 to R387). -/

namespace Sys2Proof.Machine

open Sys2Proof

/-- Status FABRIC_OPERAND. -/
def stFabricOperand : Nat := 0x27

/-- Whether an address has the REGION form with its reserved bits clear (R237). -/
def isRegion (a : Nat) : Bool := addrForm a == 1 && bits a 58 4 == 0
/-- REGION_ID of a REGION-form address. -/
def regionId (a : Nat) : Nat := bits a 40 18
/-- Byte offset of a REGION-form address. -/
def regionOff (a : Nat) : Nat := bits a 0 40

/-! ### Probes (R370) -/

/-- Rights of a probe as LEN [6:4] codes them: 4 A, 2 W, 1 R. -/
def probeRights (r w a : Bool) : Nat := b2n a * 4 + b2n w * 2 + b2n r

/-- Adds a probe for an instance of a command unless the same one is already out, and sends it by a half's FU. -/
def Dev.probe (d : Dev) (half : Half) (seq i job dev region off rights index : Nat) : Dev :=
  match d.node seq i with
  | none => d
  | some n =>
    if n.probes.any fun p => p.index = index ∧ p.dev = dev ∧ p.region = region ∧ p.rights = rights then d
    else
      (d.onNode seq i fun n => { n with probes := n.probes ++ [⟨index, dev, region, rights, false⟩] }).sendRead dev job region off
        (rights * 16) 3 false (.probe seq i n.attempt index rights half)

/-- A probe that returned OK. -/
def Dev.probeOk (d : Dev) (seq i attempt index rights dev region : Nat) : Dev :=
  match d.node seq i with
  | none => d
  | some n =>
    if n.attempt ≠ attempt ∨ n.st ≠ .running then d
    else
      (d.onNode seq i fun n =>
        { n with probes := n.probes.map fun p =>
            if p.index = index ∧ p.dev = dev ∧ p.region = region ∧ p.rights = rights then { p with ok := true } else p }).readyToCommit
        seq i

/-! ### Releasing a commit log (R188, R363, R383) -/

/-- What a gateway has merged so far: destination, region, window, mask and bytes. -/
structure GateSeg where
  dev : Nat
  region : Nat
  win : Nat
  mask : Nat
  data : List Byte

/-- Lays bytes over a window. -/
def overlay (data : List Byte) (off : Nat) (bs : List Byte) : List Byte :=
  data.take off ++ bs ++ data.drop (off + bs.length)

/-- Bits of the sectors that a range of a window covers. -/
def sectorMask (off n : Nat) : Nat := sumBy (List.range (n / 32)) fun i => 2 ^ (off / 32 + i)

/-- Counts a segment that the gateway forms. -/
def Dev.countGateway (d : Dev) : Dev := d.count d.leadHalf Reg.FAB_GATEWAY_BULK_LO 1

/-- Sends a merged segment. -/
def Wk.sendGate (w : Wk) (job : Nat) (why : ReqFor) (g : Option GateSeg) : Wk :=
  match g with
  | none => w
  | some g =>
    let t := { Txn.mk0 opBulk 4 g.dev 0 0 (regionWord g.region g.win) job 16 (toBytes 16 g.mask ++ g.data) with
               masked := true }
    (w.upd (·.countGateway)).release t why

/-- Adds a store that does not cross a window to the segment under way, sending the earlier one when it leaves the
window. -/
def Wk.gateStore (w : Wk) (job : Nat) (why : ReqFor) (g : Option GateSeg) (dev region off : Nat) (bs : List Byte) :
    Wk × Option GateSeg :=
  let win := off / 4096 * 4096
  match g with
  | some s =>
    if s.dev = dev ∧ s.region = region ∧ s.win = win then
      (w, some { s with mask := s.mask ||| sectorMask (off - win) bs.length, data := overlay s.data (off - win) bs })
    else
      (w.sendGate job why g,
        some ⟨dev, region, win, sectorMask (off - win) bs.length, overlay (List.replicate 4096 0) (off - win) bs⟩)
  | none =>
    (w, some ⟨dev, region, win, sectorMask (off - win) bs.length, overlay (List.replicate 4096 0) (off - win) bs⟩)

/-- Cuts a range at 4 KiB boundaries of its offset. -/
def cutWindows (off : Nat) (bs : List Byte) : List (Nat × List Byte) :=
  let first := 4096 - off % 4096
  if bs.length ≤ first then [(off, bs)]
  else
    (off, bs.take first) ::
      ((chunks 4096 (bs.drop first)).foldl (fun (a : Nat × List (Nat × List Byte)) c => (a.1 + c.length, a.2 ++ [(a.1, c)]))
        (off + first, [])).2

/-- Releases one WRITE of up to 256 B, or merges it at a gateway. -/
def Wk.releaseWrite (w : Wk) (job tc : Nat) (why : ReqFor) (g : Option GateSeg) (dev region off : Nat) (bs : List Byte) :
    Wk × Option GateSeg :=
  if dev ≠ w.dev.me ∧ w.dev.level dev = 3 then
    (cutWindows off bs).foldl (fun a c => a.1.gateStore job why a.2 dev region c.1 c.2) (w, g)
  else ((w.sendGate job why g).release (Txn.mk0 opWrite tc dev 0 0 (regionWord region off) job (bs.length / 32) bs) why, none)

/-- Releases an ATOMIC. In Default mode each floating add counts toward TOP_TDC_COUNT and the command's delta; in Strict
mode it is ordered (R361, R362). -/
def Wk.releaseAtomic (w : Wk) (seq i job : Nat) (why : ReqFor) (strict : Bool) (tc dev region off op : Nat) (bs : List Byte) : Wk :=
  let fp : Bool := op == 1 || op == 2
  let w := if fp ∧ ¬ strict then
      w.upd fun d => (d.count .west Reg.TOP_TDC_COUNT_LO 1).onNode seq i fun n => { n with tdc := n.tdc + 1 }
    else w
  let t := { Txn.mk0 opAtomic tc dev 0 0 (regionWord region off) job op
               (bs ++ List.replicate ((if op = 6 then 16 else 8) - bs.length) 0) with ordered := fp && strict }
  w.release t why

/-! ### ASYNC_COPY_REMOTE (R385, R386) -/

/-- Pieces of a transfer: offset from its start and length. The 4 KiB-aligned middle of the remote range goes in
segments of 4 KiB, a head or tail in pieces of up to 256 B. The first argument bounds their number. -/
def piecesFrom (off len : Nat) : Nat → Nat → List (Nat × Nat)
  | 0, _ => []
  | k + 1, at_ =>
    if at_ ≥ len then []
    else
      let n := if (off + at_) % 4096 = 0 ∧ len - at_ ≥ 4096 then 4096
               else min (min 256 (len - at_)) (4096 - (off + at_) % 4096)
      (at_, n) :: piecesFrom off len k (at_ + n)

/-- Every piece of a transfer. -/
def pieces (off len : Nat) : List (Nat × Nat) := piecesFrom off len (len / 32 + 1) 0

/-- Class of a piece (R356). -/
def pieceClass (far : Bool) (n : Nat) : Nat := if far || decide (n ≥ 4096) then 4 else 3

/-- Releases a PUT: its pieces in order, each with its counter add behind it. -/
def Wk.releasePut (w : Wk) (seq i job : Nat) (why : ReqFor) (strict : Bool) (dev region off local_ len counter : Nat) : Wk :=
  let far : Bool := dev != w.dev.me && w.dev.level dev == 3
  let a := (pieces off len).foldl
    (fun (a : Wk × Option GateSeg) pc =>
      let bs := a.1.rdN (local_ + pc.1) pc.2
      let tc := pieceClass far pc.2
      let a : Wk × Option GateSeg :=
        if pc.2 = 4096 then
          ((a.1.sendGate job why a.2).release
            (Txn.mk0 opBulk 4 dev 0 0 (regionWord region (off + pc.1)) job 16 bs) why, none)
        else a.1.releaseWrite job tc why a.2 dev region (off + pc.1) bs
      if counter = 0 then a
      else (a.1.releaseAtomic seq i job why strict tc dev region (regionOff counter) 0 (toBytes 8 pc.2), a.2))
    (w, none)
  a.1.sendGate job why a.2

/-- Outstanding pieces of one GET (DESIGN CHOICE: the spec gives no limit but the read tags). -/
def getWindow : Nat := 64

/-- Sends the next pieces of a GET. -/
def Dev.getMore (d : Dev) (id : Nat) : Dev :=
  match d.fab.gets.find? fun g => g.id = id with
  | none => d
  | some g =>
    let far : Bool := g.dev != d.me && d.level g.dev == 3
    let out := (d.dest g.dev).reads.filter fun r => match r.for_ with | .piece x _ _ _ => x == id | _ => false
    let todo := ((pieces g.off g.len).filter fun p => p.1 ≥ g.next).take (getWindow - out.length)
    let d := todo.foldl
      (fun d pc =>
        let o := g.off + pc.1
        if far ∨ pc.2 = 4096 then
          let win := o / 4096 * 4096
          (if far ∧ pc.2 < 4096 then d.countGateway else d).sendRead g.dev g.job g.region win 144 4 true
            (.piece id pc.1 (o - win) pc.2)
        else d.sendRead g.dev g.job g.region o (pc.2 / 32) 3 false (.piece id pc.1 0 pc.2))
      d
    let next := match todo.getLast? with | some p => p.1 + p.2 | none => g.next
    d.onFab fun f => { f with gets := f.gets.map fun x => if x.id = id then { x with next := next } else x }

/-- A refusal or a lost member ends a GET after its commit. -/
def Wk.getFails (w : Wk) (id status : Nat) : Wk :=
  match w.dev.fab.gets.find? fun g => g.id = id with
  | none => w
  | some g =>
    let w := w.upd fun d => d.onFab fun f => { f with gets := f.gets.filter fun x => x.id ≠ id }
    w.refusedAfter (.node g.job g.tag g.nodeId w.dev.leadHalf) g.dev status []

/-- A GET goes on, or ends when its device can no longer be reached (R372). -/
def Wk.getOn (w : Wk) (id dev : Nat) : Wk := if w.dev.reachable dev then w.upd (·.getMore id) else w.getFails id stMemberLost

/-- Starts a GET at its commit. -/
def Wk.startGet (w : Wk) (job tag nodeId dev region off local_ len counter : Nat) : Wk :=
  let id := w.dev.fab.nextId
  let g : GetXfer := ⟨id, job, tag, nodeId, dev, region, off, local_, len, counter, 0, 0⟩
  (w.upd fun d => d.onFab fun f => { f with nextId := id + 1, gets := f.gets ++ [g] }).getOn id dev

/-- A piece of a GET lands: the local range and the counter, without shadowing (R386). `dirty` tells the Mirror of the
pages written. -/
def Wk.getPiece (w : Wk) (id at_ : Nat) (bs : List Byte) (dirty : Dev → Nat → Nat → Dev) : Wk :=
  match w.dev.fab.gets.find? fun g => g.id = id with
  | none => w
  | some g =>
    let st := w.dev.checkRange g.job (g.local_ + at_) bs.length true
    if st ≠ 0 then w.getFails id st
    else
      let w := (w.wr (g.local_ + at_) bs).upd fun d => (dirty d (g.local_ + at_) bs.length).dropOrds (g.local_ + at_) bs.length
      let w := if g.counter = 0 then w
        else (w.wr g.counter (toBytes 8 ((ofBytes (w.rdN g.counter 8) + bs.length) % 2 ^ 64))).upd fun d => dirty d g.counter 8
      let got := g.got + bs.length
      if got ≥ g.len then w.upd fun d => d.onFab fun f => { f with gets := f.gets.filter fun x => x.id ≠ id }
      else (w.upd fun d => d.onFab fun f => { f with gets := f.gets.map fun x => if x.id = id then { x with got := got } else x }).getOn id g.dev

/-- The operand check of ASYNC_COPY_REMOTE. -/
def Dev.asyncOk (d : Dev) (nb : List Byte) : Bool :=
  let l := fld nb 0x20 8
  let r := fld nb 0x28 8
  let n := fld nb 0x30 8
  let c := fld nb 0x38 8
  let x := fld nb 0x40 4
  let dir := bits x 18 2
  let dev := bits x 0 18
  isLocal l && l % 32 == 0 && isRegion r && r % 32 == 0 && n % 32 == 0 && decide (32 ≤ n ∧ n ≤ 2 ^ 34) && bits x 20 12 == 0
    && decide (dir < 2) && zeroFrom nb 0x44
    && (c == 0 || (c % 8 == 0 && (if dir = 0 then isLocal c else isRegion c && regionId c == regionId r)))
    && !(dir == 1 && c != 0 && dev != d.me && d.level dev == 3)

/-- Dispatch of ASYNC_COPY_REMOTE: its probe. -/
def Wk.runAsync (w : Wk) (seq i : Nat) (x : Inst) (nb : List Byte) : Wk :=
  if ¬ w.dev.asyncOk nb then w.fail seq i stFabricOperand 0
  else
    let l := fld nb 0x20 8
    let r := fld nb 0x28 8
    let n := fld nb 0x30 8
    let c := fld nb 0x38 8
    let put : Bool := bit (fld nb 0x40 4) 18
    let dev := bits (fld nb 0x40 4) 0 18
    let st := w.dev.checkRange x.job l n (!put)
    let st := if st ≠ 0 ∧ ¬ put then stDenied else st
    let st := if st = 0 ∧ ¬ put ∧ c ≠ 0 then w.dev.checkRange x.job c 8 true else st
    if st ≠ 0 then w.raiseStatus seq i st l w.dev.leadHalf
    else if put ∧ w.dev.poisoned l n then w.raiseStatus seq i stUncorrectable ((w.dev.poisonIn l n).getD l) w.dev.leadHalf
    else if ¬ w.dev.reachable dev then w.fail seq i stMemberLost dev
    else
      let e : LogEntry := if put then .put dev (regionId r) (regionOff r) l n c else .get dev (regionId r) (regionOff r) l n c
      w.upd fun d =>
        ((d.onNode seq i fun m => { m with log := [(0, e)], eng := .complete }).probe d.leadHalf seq i x.job dev (regionId r) (regionOff r)
          (if put then probeRights false true (c != 0) else probeRights true false false) 0)

/-- ASYNC_COPY_REMOTE. -/
def execAsyncCopyRemote (inst node now : Nat) (s : State) : Host.Outcome State Fault Refusal :=
  finish s ((s.start.at_ now).dispatch inst node 0x501 always false noNull fun w x _ nb => w.runAsync inst node x nb)

/-! ### INVALIDATE and OWN_TRANSFER (R378 to R380) -/

/-- Dispatch of INVALIDATE, or of OWN_TRANSFER with `own`. -/
def Wk.runInvalidate (w : Wk) (seq i : Nat) (x : Inst) (own : Bool) (nb : List Byte) : Wk :=
  let home := fld nb 0x20 4
  let region := fld nb 0x24 4
  let new := fld nb 0x28 4
  let ok : Bool := home < 2 ^ 18 && region < 2 ^ 18 && (if own then new < 2 ^ 18 && zeroFrom nb 0x2C else zeroFrom nb 0x28)
  let here : Bool := (w.dev.regionOf x.job region).isSome
  if ¬ ok ∨ (home = w.dev.me ∧ ¬ here) ∨ (home ≠ w.dev.me ∧ w.dev.level home = 3) then w.fail seq i stFabricOperand 0
  else
    let e := LogEntry.invalidate home region (if own then some new else none)
    (w.upd fun d => d.onNode seq i fun m => { m with log := [(0, e)] }).invalidateCheck

/-- INVALIDATE. -/
def execInvalidate (inst node now : Nat) (s : State) : Host.Outcome State Fault Refusal :=
  finish s ((s.start.at_ now).dispatch inst node 0x503 always false noNull fun w x _ nb => w.runInvalidate inst node x false nb)

/-- OWN_TRANSFER. -/
def execOwnTransfer (inst node now : Nat) (s : State) : Host.Outcome State Fault Refusal :=
  finish s ((s.start.at_ now).dispatch inst node 0x502 always false noNull fun w x _ nb => w.runInvalidate inst node x true nb)

/-- The INVALIDATE released at commit. -/
def Wk.releaseInvalidate (w : Wk) (job : Nat) (why : ReqFor) (dev region : Nat) (new : Option Nat) : Wk :=
  let off := new.getD 0
  w.release (Txn.mk0 opInv 0 dev 0 0 (regionWord region off) job (b2n new.isSome) []) why

/-! ### FENCE (R381, R382) -/

/-- Whether a released request is covered by a FENCE of a job. -/
def Txn.covered (t : Txn) (f : ReqFor) (job : Nat) : Bool :=
  t.job == job && (t.op == opWrite || t.op == opAtomic || t.op == opBulk || t.op == opInv)
    && (match f with | .node _ _ _ _ => true | _ => false)

/-- A FENCE toward a destination: its MARK is the SEQ of the last request released to it, which a stalled one has yet to take. -/
def Dest.addFence (x : Dest) (seq node job : Nat) : Dest :=
  { x with fences := x.fences ++ [⟨seq, node, job, (x.nextSeq + 16383) % 16384, x.waiting.length, none, 0⟩] }

/-- Dispatch of FENCE: its marks, and a FENCE to each destination with covered requests unacknowledged. -/
def Wk.runFence (w : Wk) (seq i : Nat) (x : Inst) (nb : List Byte) : Wk :=
  let c := fld nb 0x20 4
  if bits c 18 13 ≠ 0 ∨ ¬ zeroFrom nb 0x24 then w.fail seq i stFabricOperand 0
  else
    let one : Bool := bit c 31
    let scope := if one then c % 2 ^ 18 else 2 ^ 18
    let dests := (w.dev.fab.dests.filter fun e => (¬ one ∨ e.1 = scope) ∧ e.2.owes fun t f => t.covered f x.job).map (·.1)
    if (one ∧ ¬ w.dev.reachable scope) ∨ dests.any (fun e => ¬ w.dev.reachable e) then w.fail seq i stMemberLost 0
    else
      let w := w.upd fun d => d.onNode seq i fun m => { m with eng := .fencing [(scope, 0)] }
      let w := dests.foldl (fun w e => w.upd fun d => (d.setDest e ((d.dest e).addFence seq i x.job)).pump e) w
      w.fenceCheck

/-- FENCE. -/
def execFence (inst node now : Nat) (s : State) : Host.Outcome State Fault Refusal :=
  finish s ((s.start.at_ now).dispatch inst node 0x600 always false noNull fun w x _ nb => w.runFence inst node x nb)

end Sys2Proof.Machine
end

