-- ==== Sys2Proof/Machine/MirrorCore.lean ====
section
/-! DEFINITION. The Mirror's dirty set, journal records and cut requests: what commands of other engines touch (R469,
R473 to R479). The formats of journal records and of its messages are DESIGN CHOICE: the spec gives none. -/

namespace Sys2Proof.Machine

open Sys2Proof

/-- Replaces the Mirror's state. -/
def Dev.onMir (d : Dev) (f : Mir → Mir) : Dev := { d with mir := f d.mir }

/-- A Mirror page: 64 KiB. -/
def mirPage : Nat := 65536

/-- Whether a buffer is under protection: MIRRORED, held, its last owner a protected job (R475). -/
def Dev.guards (d : Dev) (b : Buf) : Bool :=
  decide (b.st = .held) && bit b.flags 5 && (match d.job b.owner with | some j => j.guarded | none => false)

/-- Every page of every protected buffer with its job, ascending. -/
def Dev.guardedPages (d : Dev) : List (Nat × Nat) :=
  sortBy (fun (a b : Nat × Nat) => decide (a.1 < b.1))
    ((d.host.bufs.filter d.guards).flatMap fun b => (List.range (b.size / mirPage)).map fun i => (b.base + i * mirPage, b.owner))

/-- MIR_STATUS. -/
def Dev.mirStatus (d : Dev) : Nat := b2n d.mir.valid * 2 ^ 31 + d.mir.st % 8 * 2 ^ 28 + d.mir.partner % 2 ^ 18

/-- Changes the Mirror's state; a change writes a MIRROR_STATE event (R479). -/
def Wk.mirState (w : Wk) (st : Nat) (valid : Bool) : Wk :=
  if w.dev.mir.st = st ∧ w.dev.mir.valid = valid then w
  else
    let w := w.upd fun d => d.onMir fun m => { m with st := st, valid := valid }
    w.post w.dev.leadHalf 0 { kind := 7, d0 := w.dev.mirStatus }

/-! ### The copy area and the journal (R474, R478) -/

/-- Kinds of journal records. -/
def recPage : Nat := 1
def recMap : Nat := 2
def recUnmap : Nat := 3
def recTapPlan : Nat := 4
def recTapAccept : Nat := 5
def recTapDrop : Nat := 6
def recTap : Nat := 7

/-- The 64-byte header of a journal record: kind, tag, length behind it, job, address, and three words of its own. -/
def recHeader (kind tag len job addr a b c : Nat) : List Byte :=
  toBytes 4 kind ++ toBytes 4 tag ++ toBytes 4 len ++ toBytes 4 job ++ toBytes 8 addr ++ toBytes 8 a ++ toBytes 8 b ++ toBytes 8 c
    ++ List.replicate 16 0

/-- Writes bytes at an offset of the partner's copy area, in the MIRROR class (R371). -/
def Dev.mirWrite (d : Dev) (off : Nat) (bs : List Byte) : Dev :=
  (pieces off bs.length).foldl
    (fun d pc =>
      let b := (bs.drop pc.1).take pc.2
      let op := if pc.2 = 4096 then opBulk else opWrite
      d.holdReq (Txn.mk0 op 5 d.mir.partner 0 0 (regionWord d.mir.area (off + pc.1)) 0 (if pc.2 = 4096 then 16 else pc.2 / 32) b) (.engine d.leadHalf))
    d

/-- Whether the remote ring has room for `n` more bytes. -/
def Dev.mirRoom (d : Dev) (n : Nat) : Bool := decide (d.mir.pos + n ≤ d.mir.tail + d.mir.ring)

/-- Appends a record to the remote ring, in two pieces where the ring wraps; it carries the open cut's tag. -/
def Dev.mirAppend (d : Dev) (kind tag job addr a b c : Nat) (data : List Byte) : Dev :=
  let bs := recHeader kind tag data.length job addr a b c ++ data
  let m := d.mir
  if m.ring = 0 then d
  else
    let at_ := m.pos % m.ring
    let first := m.ring - at_
    let base := journalOff m.slots
    let d := if bs.length ≤ first then d.mirWrite (base + at_) bs
             else (d.mirWrite (base + at_) (bs.take first)).mirWrite base (bs.drop first)
    d.onMir fun m =>
      { m with pos := m.pos + bs.length, openBytes := if tag = m.openCut then m.openBytes + bs.length else m.openBytes,
               openAt := if tag = m.openCut then some (m.openAt.getD m.pos) else m.openAt }

/-- Whether the Mirror follows changes: its first copy is under way, it protects, or no slot was free. -/
def Dev.mirLive (d : Dev) : Bool := d.mir.st == 1 || d.mir.st == 2

/-! ### Cut requests (R469) -/

/-- A cut is requested with a cause. -/
def Wk.cutRequest (w : Wk) (cause : Nat) : Wk :=
  let w := w.upd fun d => d.count d.leadHalf Reg.HM_CUT_REQUESTS_LO 1
  if ¬ w.dev.mirLive then w
  else if w.dev.mir.cut.isSome then
    w.upd fun d => d.onMir fun m => { m with merged := some (m.merged.getD cause) }
  else w.upd fun d => d.onMir fun m => { m with asked := some (m.asked.getD cause) }

/-- The JOURNAL cause: the open cut's records reach half of the partner's journal. -/
def Wk.journalCause (w : Wk) : Wk :=
  let m := w.dev.mir
  if w.dev.mirLive ∧ m.openBytes ≥ m.ring ∧ m.ring ≠ 0 ∧ m.asked.isNone ∧ m.merged.isNone then w.cutRequest 3 else w

/-! ### Pushing pages (R472, R476) -/

/-- Pushes one frozen page: a PAGE record with its 64 KiB. Answers none when the remote ring is full. -/
def Wk.mirPush (w : Wk) (page : Nat) : Option Wk :=
  match w.dev.mir.cut with
  | none => none
  | some c =>
    if ¬ w.dev.mirRoom (64 + mirPage) then none
    else
      let slot := (w.dev.mir.map.find? fun e => e.2.1 = page).map (·.1)
      let bs := w.rdN page mirPage
      let bad := b2n (w.dev.poisoned page mirPage)
      let w := w.upd fun d => (d.mirAppend recPage c.n 0 page (slot.getD 0) bad 0 bs).onMir fun m =>
        { m with cut := some { c with pages := c.pages.filter (· ≠ page) } }
      some (w.upd fun d => d.count d.leadHalf Reg.MIR_PUSH_BYTES_LO mirPage)

/-- Whether a write to a range must wait for a frozen page to be pushed. -/
def Dev.frozen (d : Dev) (a n : Nat) : List Nat :=
  match d.mir.cut with
  | none => []
  | some c => c.pages.filter fun p => decide (p < a + n ∧ a < p + mirPage)

/-- Whether a direct write of a range must wait: it touches frozen pages that the remote ring has no room for (R476). -/
def Dev.mirFull (d : Dev) (a n : Nat) : Bool :=
  let k := (d.frozen a n).length
  k != 0 && !d.mirRoom (k * (64 + mirPage))

/-- Pushes the frozen pages that a write touches; each is a hold (R476). -/
def Wk.mirHold (w : Wk) (a n : Nat) : Wk :=
  (w.dev.frozen a n).foldl
    (fun w p => match w.mirPush p with | some w => w.upd fun d => d.count d.leadHalf Reg.MIR_COW_HOLDS_LO 1 | none => w) w

/-- Adds the protected pages of a range to the open dirty set, and ends their TAP_PENDING (R476, R477). -/
def Dev.mirDirty (d : Dev) (a n : Nat) : Dev :=
  if n = 0 ∨ ¬ (d.mirLive ∨ d.mir.st = 3 ∨ d.mir.st = 4) then d
  else
    let ps := (List.range ((a + n - 1) / mirPage - a / mirPage + 1)).map fun i => (a / mirPage + i) * mirPage
    let ps := ps.filter fun p => match d.bufAt (max p a) with | some b => d.guards b | none => false
    d.onMir fun m =>
      { m with dirty := m.dirty ++ ps.filter (fun p => ¬ m.dirty.contains p),
               plans := m.plans.map fun x => { x with pages := x.pages.filter fun p => ¬ ps.contains p } }

/-- Before a direct write of a range: frozen pages first, then the dirty set. -/
def Wk.mirTouch (w : Wk) (a n : Nat) : Wk := if n = 0 then w else (w.mirHold a n).upd (·.mirDirty a n)

/-! ### The first full copy (R475, R479) -/

/-- Assigns each protected page without a slot the lowest free one, with a MAP record; FULL when none is free. -/
def Wk.mirAssign (w : Wk) : Wk :=
  if w.dev.mir.slots = 0 ∨ w.dev.mir.st = 0 ∨ w.dev.mir.st = 6 then w
  else
    w.dev.guardedPages.foldl
      (fun w p =>
        let m := w.dev.mir
        if m.map.any fun e => e.2.1 = p.1 then w
        else
          match (List.range (m.map.length + 1)).find? fun k => ¬ m.map.any fun e => e.1 = k with
          | none => w
          | some k =>
            if k ≥ m.slots then w.mirState 4 false
            else
              w.upd fun d => (d.onMir fun m => { m with map := m.map ++ [(k, p.1, p.2)] }).mirAppend recMap d.mir.openCut p.2 p.1 k 0 0 [])
      w

/-- Frees the slots of pages that are no longer protected, with UNMAP records. -/
def Wk.mirUnassign (w : Wk) : Wk :=
  let live := w.dev.guardedPages
  (w.dev.mir.map.filter fun e => ¬ live.any fun p => p.1 = e.2.1).foldl
    (fun w e =>
      w.upd fun d =>
        (d.onMir fun m => { m with map := m.map.filter (fun x => x.1 ≠ e.1), dirty := m.dirty.filter (· ≠ e.2.1) }).mirAppend recUnmap
          d.mir.openCut e.2.2 e.2.1 e.1 0 0 [])
    w

/-- Starts a first full copy: every page of every protected buffer is dirty, and a cut with cause SYNC is requested. -/
def Wk.mirSync (w : Wk) : Wk :=
  let w := (w.mirState 1 false).mirAssign
  if w.dev.mir.st ≠ 1 then w
  else
    (w.upd fun d => d.onMir fun m => { m with dirty := (d.guardedPages).map (·.1), syncCut := m.openCut }).cutRequest 5

/-- After buffers or protection have changed: slots are freed and assigned; FULL ends once slots are free again. -/
def Wk.mirBufs (w : Wk) : Wk :=
  let w := w.mirUnassign
  if w.dev.mir.st = 4 then
    if w.dev.guardedPages.length ≤ w.dev.mir.slots then w.mirSync else w
  else if w.dev.mir.st = 1 ∨ w.dev.mir.st = 2 then
    let old := w.dev.mir.map.length
    let w := w.mirAssign
    if w.dev.mir.map.length = old then w
    else w.upd fun d => d.onMir fun m =>
      { m with dirty := m.dirty ++ ((m.map.drop old).map (·.2.1)).filter fun p => ¬ m.dirty.contains p }
  else w

/-! ### Cuts that end (R472, R480) -/

/-- SNAPSHOTs that wait for a cut up to `n` are ready to commit, with their result staged: the cut when it has closed and
their job is protected. MIR_STATUS is filled in at their commit. -/
def Wk.mirWake (w : Wk) (n : Nat) (closed : Bool) : Wk :=
  let ws := w.dev.mir.waits.filter (·.cut ≤ n)
  let w := w.upd fun d => d.onMir fun m => { m with waits := m.waits.filter (·.cut > n) }
  ws.foldl
    (fun w x =>
      let waiting : Bool := match w.dev.node x.inst x.node with | some k => k.st == .running && k.eng == .cutting | none => false
      if !waiting then w
      else
        let ok : Bool := closed && x.guarded
        let w := if x.addr = 0 then w else
          w.stage x.inst x.node [⟨x.addr, toBytes 4 (if ok then x.cut else 0) ++ toBytes 4 0 ++ toBytes 8 (if ok then w.dev.mir.closedTime else 0)⟩]
        w.upd (·.engineDone x.inst x.node))
    w

/-- A merged request becomes the next one. -/
def Dev.mirNext (d : Dev) : Dev := d.onMir fun m => { m with asked := m.merged, merged := none }

/-- The draining cut fails: its pages are dirty again (R472). -/
def Wk.cutFails (w : Wk) : Wk :=
  match w.dev.mir.cut with
  | none => w
  | some c =>
    (w.upd fun d =>
      (d.onMir fun m =>
        { m with cut := none, lastResult := 3, dirty := m.dirty ++ c.all.filter fun p => ¬ m.dirty.contains p }).mirNext).mirWake c.n false

/-- The partner is unreachable or has refused a record: STALE (R479, R488). -/
def Wk.mirStale (w : Wk) : Wk :=
  if w.dev.mir.st = 0 ∨ w.dev.mir.st = 6 ∨ w.dev.mir.st = 5 then w
  else
    let w := w.cutFails
    let w := w.mirState 3 false
    (w.upd fun d => d.onMir fun m => { m with asked := none, merged := none }).mirWake (2 ^ 64) false

/-! ### Messages of the Mirror -/

/-- FID of the Mirror's own messages. -/
def mirFid : Nat := 0x3FFFF
/-- Kinds of the Mirror's messages. -/
def msgHello : Nat := 1
def msgHelloReply : Nat := 2
def msgCutClose : Nat := 3
def msgTapResult : Nat := 4

/-- Sends a 64-byte Mirror message. -/
def Dev.mirMsg (d : Dev) (dest kind a b c e : Nat) : Dev :=
  d.holdReq (Txn.mk0 opMsg 5 dest 0 0 (regionWord mirFid 0) 0 1
    (toBytes 8 kind ++ toBytes 8 a ++ toBytes 8 b ++ toBytes 8 c ++ toBytes 8 e ++ List.replicate 24 0)) (.engine d.leadHalf)

/-! ### Taps (R424, R477) -/

/-- The half that hosts a device's copy. -/
def Dev.hostOf (d : Dev) (dev : Nat) : Option Half :=
  if d.mir.host.w.on ∧ d.mir.host.w.device = dev then some .west
  else if d.mir.host.e.on ∧ d.mir.host.e.device = dev then some .east
  else none

/-- A TAP record at the partner: its tile goes to the tap ring. Answers whether it found room. -/
def Wk.tapTile (w : Wk) (h : Half) (fid seq j : Nat) (tile : List Byte) : Wk × Bool :=
  let x := w.dev.mir.host.get h
  let ring := x.gib * 2 ^ 29
  let bs := recHeader recTap 0 tile.length 0 0 fid seq j ++ tile
  if x.tapWrote + bs.length > x.tapRead + ring then (w, false)
  else
    let at_ := x.tapWrote % ring
    let base := x.base + journalOff x.slots + ring
    let first := ring - at_
    let w := if bs.length ≤ first then w.wr (base + at_) bs else (w.wr (base + at_) (bs.take first)).wr base (bs.drop first)
    (w.upd fun d => d.onMir fun m => { m with host := m.host.set h { x with tapWrote := x.tapWrote + bs.length } }, true)

/-- The protected device's tap plan at the dispatch of a COLLECTIVE with MIRROR 1 (step 1 of R477). -/
def Wk.tapPlan (w : Wk) (fid seq op src size count : Nat) : Wk :=
  let n := size * count
  let first := cdiv src mirPage
  let last := (src + n) / mirPage
  let ps := (List.range (last - first)).map fun i => (first + i) * mirPage
  let ps := ps.filter fun p => match w.dev.bufAt p with | some b => w.dev.guards b | none => false
  (w.upd fun d => (d.onMir fun m => { m with plans := m.plans ++ [⟨fid, seq, op, ps, n⟩] }).mirAppend recTapPlan d.mir.openCut 0 src fid seq
    (size * 2 ^ 32 + count) []).journalCause

/-- Step 4 of R477: a plan is accepted, or dropped. -/
def Wk.tapEnds (w : Wk) (fid seq : Nat) (ok : Bool) : Wk :=
  match w.dev.mir.plans.find? fun p => p.fid = fid ∧ p.seq = seq with
  | none => w
  | some p =>
    (w.upd fun d =>
      let gone := if ok then p.pages.filter fun x => d.mir.dirty.contains x else []
      let d := d.onMir fun m => { m with plans := m.plans.filter (fun x => ¬ (x.fid = fid ∧ x.seq = seq)),
                                         dirty := m.dirty.filter fun x => ¬ gone.contains x }
      (d.count d.leadHalf Reg.MIR_TAP_BYTES_LO (mirPage * gone.length)).mirAppend (if ok then recTapAccept else recTapDrop) d.mir.openCut 0 0
        fid seq 0 []).journalCause

end Sys2Proof.Machine
end

