-- ==== Sys2Proof/Machine/Tile.lean ====
section
/-! DEFINITION. Engine-ready tiles: header (R32), element order and packing (R36 to R39), structured sparsity (R193 to
R200), compression (R45 to R50), zero-maps (R52), CRC (R55) and format faults (R57, R202). -/

namespace Sys2Proof.Machine

open Sys2Proof

/-- A tile header (R32). -/
structure Hdr where
  ver : Nat
  comp : Nat
  sparsity : Nat
  zmap : Bool
  raw : Bool
  axis : Bool        -- BLOCK_AXIS: true for blocks along a column
  cols : Nat         -- valid columns, 1 to 64
  rows : Nat
  ty : Nat
  metaSec : Nat
  sectors : Nat
  scale : Nat
  tcol : Nat
  trow : Nat
  zrows : Nat
  zk : Nat
  resv : Nat         -- the reserved bits of word 0x18
  crc : Nat
  deriving DecidableEq, Repr

/-- Reads a header. -/
def Hdr.parse (b : List Byte) : Hdr :=
  let w (i : Nat) : Nat := ofBytes ((b.drop (4 * i)).take 4)
  { ver := bits (w 0) 28 4, comp := bits (w 0) 25 3, sparsity := bits (w 0) 23 2, zmap := bit (w 0) 22, raw := bit (w 0) 21,
    axis := bit (w 0) 20, cols := bits (w 0) 14 6 + 1, rows := bits (w 0) 8 6 + 1, ty := bits (w 0) 0 8,
    metaSec := bits (w 1) 16 16, sectors := bits (w 1) 0 16, scale := w 2, tcol := bits (w 3) 16 16, trow := bits (w 3) 0 16,
    zrows := w 4 + 2 ^ 32 * w 5, zk := bits (w 6) 0 8, resv := bits (w 6) 8 24, crc := w 7 }

/-- The first 28 bytes of a header, those the CRC covers. -/
def Hdr.head (h : Hdr) : List Byte :=
  toBytes 4 (h.ver * 2 ^ 28 + h.comp * 2 ^ 25 + h.sparsity * 2 ^ 23 + b2n h.zmap * 2 ^ 22 + b2n h.raw * 2 ^ 21
    + b2n h.axis * 2 ^ 20 + (h.cols - 1) * 2 ^ 14 + (h.rows - 1) * 2 ^ 8 + h.ty)
  ++ toBytes 4 (h.metaSec * 2 ^ 16 + h.sectors) ++ toBytes 4 h.scale ++ toBytes 4 (h.tcol * 2 ^ 16 + h.trow)
  ++ toBytes 8 h.zrows ++ toBytes 4 (h.resv * 2 ^ 8 + h.zk)

/-- The 32 bytes of a header. -/
def Hdr.bytes (h : Hdr) : List Byte := h.head ++ toBytes 4 h.crc

/-- A tile as an engine holds it: its header and its uncompressed payload. -/
structure Tile where
  hdr : Hdr
  body : List Byte
  deriving DecidableEq, Repr

/-- Slots of a structured-sparse tile (R194). -/
def slotCount (sp : Nat) : Nat := if sp = 1 then 2048 else 1024

/-- Sectors of the uncompressed payload of a TYPE and SPARSITY (R39, R195). -/
def plainSectors (ty sp : Nat) : Nat :=
  if sp = 0 then 4096 * elemBits ty / 256 + (if isMx ty then 4 else 0)
  else 16 + slotCount sp * elemBits ty / 256 + (if isMx ty then 4 else 0)

/-- Whether a header whose PAYLOAD_SECTORS is in range is well formed for its reader (R57, R202). -/
def Hdr.formatOk (h : Hdr) (compOk : Bool) : Bool :=
  h.ver == 1 && tyOk h.ty && decide (h.comp ≤ 2) && decide (h.sparsity ≤ 2) && (!h.axis || isMx h.ty)
    && (h.comp != 2 || ((h.ty == tyBf16 || h.ty == tyFp32) && h.sparsity == 0)) && !(h.raw && h.comp != 0)
    && (h.comp == 0 || compOk) && (h.sparsity == 0 || (h.metaSec == 16 && h.ty != tyInt32 && !h.zmap))
    && decide (h.metaSec ≤ plainSectors h.ty h.sparsity) && (h.comp != 0 || h.sectors == plainSectors h.ty h.sparsity)

/-! ### Packing (R38) -/

/-- Unpacks `w`-bit elements. -/
def unpackElems (w : Nat) (bs : List Byte) : List Nat :=
  if w = 8 then bs.map (·.toNat)
  else if w = 16 then (chunks 2 bs).map ofBytes
  else if w = 32 then (chunks 4 bs).map ofBytes
  else if w = 4 then bs.flatMap fun b => [b.toNat % 16, b.toNat / 16]
  else (chunks 3 bs).flatMap fun c => let x := ofBytes c; [bits x 0 6, bits x 6 6, bits x 12 6, bits x 18 6]

/-- Packs `w`-bit elements. -/
def packElems (w : Nat) (cs : List Nat) : List Byte :=
  if w = 8 then cs.map fun c => BitVec.ofNat 8 c
  else if w = 16 then cs.flatMap (toBytes 2)
  else if w = 32 then cs.flatMap (toBytes 4)
  else if w = 4 then (chunks 2 cs).map fun p => BitVec.ofNat 8 (p.getD 0 0 % 16 + 16 * (p.getD 1 0 % 16))
  else (chunks 4 cs).flatMap fun q =>
    toBytes 3 (q.getD 0 0 % 64 + 64 * (q.getD 1 0 % 64) + 4096 * (q.getD 2 0 % 64) + 262144 * (q.getD 3 0 % 64))

/-- Whether the payload runs along columns: only an MX type has BLOCK_AXIS 1 (R38). -/
def Hdr.byCol (h : Hdr) : Bool := h.axis && isMx h.ty

/-- Place of element (r, c) in payload order (R38). -/
def Hdr.idx (h : Hdr) (r c : Nat) : Nat := if h.byCol then c * 64 + r else r * 64 + c

/-- The block that holds element (r, c) of an MX tile (R36). -/
def Hdr.block (h : Hdr) (r c : Nat) : Nat := if h.axis then 2 * c + r / 32 else 2 * r + c / 32

/-- The elements (row, column) of block `b`, in order. -/
def Hdr.blockElems (h : Hdr) (b : Nat) : List (Nat × Nat) :=
  (List.range 32).map fun i => if h.axis then (32 * (b % 2) + i, b / 2) else (b / 2, 32 * (b % 2) + i)

/-- Whether element (r, c) is valid (R33). -/
def Hdr.valid (h : Hdr) (r c : Nat) : Bool := decide (r < h.rows ∧ c < h.cols)

/-! ### Structured sparsity (R196 to R200) -/

/-- One group of one line: the positions it keeps with their codes, the bad groups and dropped indices it counts. -/
structure Group where
  kept : List (Nat × Nat)
  bad : Nat
  drop : Nat

/-- Decodes group `g` of line `l` of a structured-sparse tile whose bytes and slots are given. -/
def decodeGroup (h : Hdr) (body : Array Byte) (slots : Array Nat) (l g : Nat) : Group :=
  let two4 := decide (h.sparsity = 1)
  let size := if two4 then 4 else 8
  let perLine := if two4 then 32 else 16
  let m := if two4 then bits (body.getD (8 * l + g / 2) 0).toNat (4 * (g % 2)) 4 else (body.getD (8 * l + g) 0).toNat
  let i0 := if two4 then m % 4 else m % 8
  let i1 := if two4 then m / 4 % 4 else m / 8 % 8
  let count := if two4 then 2 else m / 64 % 4
  let valid := if h.byCol then h.rows else h.cols
  if count = 3 ∨ (count = 2 ∧ i0 = i1) then ⟨[], 1, 0⟩
  else
    ([(0, i0), (1, i1)].take count).foldl
      (fun (a : Group) p =>
        let code := slots.getD (l * perLine + 2 * g + p.1) 0
        let pos := size * g + p.2
        if pos ≥ valid then { a with drop := a.drop + (if isZeroCode h.ty code then 0 else 1) }
        else { a with kept := a.kept ++ [(l * 64 + pos, code)] })
      ⟨[], 0, 0⟩

/-- Groups of a line. -/
def groupsPerLine (h : Hdr) : Nat := if h.sparsity = 1 then 16 else 8

/-- Valid lines of a tile: rows, or columns when the blocks run along columns (R199). -/
def validLines (h : Hdr) : Nat := if h.byCol then h.cols else h.rows

/-- An opened view of a tile: element codes in payload order (none for a structural zero), block scales, and what its
decode counted. -/
structure View where
  hdr : Hdr
  codes : Array (Option Nat)
  scales : Array Nat
  bad : Nat
  drop : Nat

/-- Byte offset of the block scales. -/
def scaleOff (h : Hdr) : Nat :=
  if h.sparsity = 0 then 4096 * elemBits h.ty / 8 else 512 + slotCount h.sparsity * elemBits h.ty / 8

/-- Opens a tile for reading by elements, decoding the groups that a test picks: line and group. -/
def Tile.viewOf (t : Tile) (pick : Nat → Nat → Bool) : View :=
  let h := t.hdr
  let scales := if isMx h.ty then (((t.body.drop (scaleOff h)).take 128).map (·.toNat)).toArray else #[]
  if h.sparsity = 0 then
    { hdr := h, codes := ((unpackElems (elemBits h.ty) (t.body.take (4096 * elemBits h.ty / 8))).take 4096).toArray.map some,
      scales := scales, bad := 0, drop := 0 }
  else
    let body := t.body.toArray
    let slots := ((unpackElems (elemBits h.ty) ((t.body.drop 512).take (slotCount h.sparsity * elemBits h.ty / 8))).take
      (slotCount h.sparsity)).toArray
    let r := (List.range (validLines h)).foldl
      (fun (a : Array (Option Nat) × Nat × Nat) l =>
        (List.range (groupsPerLine h)).foldl
          (fun a g =>
            if pick l g then
              let d := decodeGroup h body slots l g
              (d.kept.foldl (fun cs p => cs.set! p.1 (some p.2)) a.1, a.2.1 + d.bad, a.2.2 + d.drop)
            else a)
          a)
      (Array.replicate 4096 none, 0, 0)
    { hdr := h, codes := r.1, scales := scales, bad := r.2.1, drop := r.2.2 }

/-- Bad groups and dropped indices met up to the first dropped one, for a command that it fails (R209, R210). -/
def Tile.tallyStop (t : Tile) (pick : Nat → Nat → Bool) : Nat × Nat :=
  let h := t.hdr
  let body := t.body.toArray
  let slots := ((unpackElems (elemBits h.ty) ((t.body.drop 512).take (slotCount h.sparsity * elemBits h.ty / 8))).take
    (slotCount h.sparsity)).toArray
  (List.range (validLines h)).foldl
    (fun (a : Nat × Nat) l =>
      (List.range (groupsPerLine h)).foldl
        (fun a g =>
          if a.2 = 0 ∧ pick l g then
            let d := decodeGroup h body slots l g
            (a.1 + d.bad, min d.drop 1)
          else a)
        a)
    (0, 0)

/-- Opens a whole tile. -/
def Tile.view (t : Tile) : View := t.viewOf fun _ _ => true

/-- The code of element (r, c); none for a structural zero, which is +0 (R200). -/
def View.codeAt (v : View) (r c : Nat) : Option Nat := v.codes.getD (v.hdr.idx r c) none

/-- The code of element (r, c), 0 for a structural zero. -/
def View.code (v : View) (r c : Nat) : Nat := (v.codeAt r c).getD 0

/-- The scale byte of the block of element (r, c). -/
def View.scaleAt (v : View) (r c : Nat) : Nat := v.scales.getD (v.hdr.block r c) 0

/-- The code of element (r, c) as a consumer takes it: padding is zero, whatever the stored bits (R33). -/
def View.sound (v : View) (r c : Nat) : Nat := if v.hdr.valid r c then v.code r c else 0

/-- The value of element (r, c), with block scale and tensor scale; padding is zero, and a structural zero is the zero
element of the decoded tile (R33, R36, R37, R198). The NaN of a block
whose scale is 0xFF is positive (DEDUCED, assumption 7: the stored bits do not count). -/
def View.val (v : View) (r c : Nat) : Num :=
  let h := v.hdr
  if ¬ h.valid r c then .zero
  else
    let s := v.scaleAt r c
    if isMx h.ty ∧ s = 0xFF then .nan false
    else
      let x := decodeElem h.ty (v.code r c)
      if isMx h.ty then x.mul (.ofNat 1 ((s : Int) - 127))
      else if hasScale h.ty then x.mul (f32 h.scale)
      else x

/-- Whether element (r, c) is zero for a zero-map (R52). -/
def View.zeroAt (v : View) (r c : Nat) : Bool :=
  if ¬ v.hdr.valid r c then true
  else isZeroCode v.hdr.ty (v.code r c) && !(isMx v.hdr.ty && v.scaleAt r c == 0xFF)

/-- The zero-map of a view: ZMAP_ROWS and ZMAP_K. -/
def View.zeroMap (v : View) : Nat × Nat :=
  let z := ((List.range 4096).map fun i => v.zeroAt (i / 64) (i % 64)).toArray
  let rows := (List.range 64).foldl (fun m r => m + b2n ((List.range 64).all fun c => z.getD (64 * r + c) true) * 2 ^ r) 0
  let ks := (List.range 8).foldl
    (fun m k => m + b2n ((List.range 512).all fun i => z.getD (64 * (i / 8) + 8 * k + i % 8) true) * 2 ^ k) 0
  (rows, ks)

/-- A tile with its zero-map recorded, as a producer writes it (R53); a sparse tile keeps ZMAP 0. -/
def Tile.mapped (t : Tile) : Tile :=
  if t.hdr.sparsity ≠ 0 then { t with hdr := { t.hdr with zmap := false, zrows := 0, zk := 0 } }
  else let m := t.view.zeroMap; { t with hdr := { t.hdr with zmap := true, zrows := m.1, zk := m.2 } }

/-- A tile with no zero-map. -/
def Tile.unmapped (t : Tile) : Tile := { t with hdr := { t.hdr with zmap := false, zrows := 0, zk := 0 } }

/-! ### Writing elements -/

/-- What one narrowing conversion carries: mode, job seed and salt (R40, R43). -/
structure Conv where
  mode : Rnd
  seed : Nat
  salt : Nat

/-- The draw for element (r, c) of a destination tile. -/
def Conv.draw (k : Conv) (h : Hdr) (r c : Nat) : Nat := srBits k.seed k.salt h.trow h.tcol r c

/-- The payload of a dense tile of header `h` whose valid elements have given values (R41, R42). Padding is the zero
encoding. -/
def packVals (h : Hdr) (k : Conv) (f : Nat → Nat → Num) : List Byte :=
  let at_ (r c : Nat) : Num := if h.valid r c then f r c else .zero
  if isMx h.ty then
    let blocks := (List.range 128).map fun b =>
      mxQuantise h.ty k.mode ((h.blockElems b).map fun p => (at_ p.1 p.2, k.draw h p.1 p.2))
    packElems (elemBits h.ty) (blocks.flatMap (·.2)) ++ blocks.map fun b => BitVec.ofNat 8 b.1
  else
    packElems (elemBits h.ty) ((List.range 4096).map fun i =>
      if h.valid (i / 64) (i % 64) then
        encodeElem h.ty h.scale k.mode (k.draw h (i / 64) (i % 64)) (f (i / 64) (i % 64))
      else 0)

/-- The payload of a dense tile of header `h` from element codes and, for MX, block scales. Padding is the zero
encoding. -/
def packCodes (h : Hdr) (code : Nat → Nat → Nat) (scale : Nat → Nat) : List Byte :=
  let cs := (List.range 4096).map fun i =>
    let r := if h.byCol then i % 64 else i / 64
    let c := if h.byCol then i / 64 else i % 64
    if h.valid r c then code r c else 0
  packElems (elemBits h.ty) cs ++ (if isMx h.ty then (List.range 128).map fun b => BitVec.ofNat 8 (scale b) else [])

/-- A dense tile with its padding written as the zero encoding, as a producer writes it (R33). A structured-sparse tile is
moved as it stands (R201). -/
def Tile.padded (t : Tile) : Tile :=
  if t.hdr.sparsity ≠ 0 ∨ (t.hdr.rows = 64 ∧ t.hdr.cols = 64) then t
  else let v := t.view; { t with body := packCodes t.hdr v.code fun b => v.scales.getD b 0 }

/-! ### Compression (R46 to R50) -/

/-- Whether a sector holds only 0x00. -/
def sectorZero (s : List Byte) : Bool := s.all (· == 0)

/-- The ZERO_SECTOR form of a payload. -/
def zeroSector (body : List Byte) : List Byte :=
  let ss := chunks 32 body
  let n := ss.length
  let nb := cdiv n 256 * 32
  let flags := (ss.map fun s => !sectorZero s)
  let bytes := (chunks 8 flags).map fun f => BitVec.ofNat 8 (f.zipIdx.foldl (fun x p => x + b2n p.1 * 2 ^ p.2) 0)
  bytes ++ List.replicate (nb - bytes.length) 0 ++ (ss.filter fun s => !sectorZero s).flatten

/-- Reads a ZERO_SECTOR payload of `n` uncompressed sectors; none when it disagrees with its length. DESIGN CHOICE
(assumption 56): R48 writes the bitmap's padding bits as zero and says nothing of a reader that meets others; they are
ignored. -/
def unZeroSector (n : Nat) (st : List Byte) : Option (List Byte) :=
  let nb := cdiv n 256
  let bm := (st.take (32 * nb)).toArray
  let keep (i : Nat) : Bool := bit (bm.getD (i / 8) 0).toNat (i % 8)
  let kept := (List.range n).filter keep
  if st.length ≠ 32 * (nb + kept.length) then none
  else
    let r := (List.range n).foldl
      (fun (a : List (List Byte) × List (List Byte)) i =>
        if keep i then (a.1.headD [] :: a.2, a.1.tail) |> fun p => (p.2, p.1) else (a.1, List.replicate 32 0 :: a.2))
      (chunks 32 (st.drop (32 * nb)), [])
    some r.2.reverse.flatten

/-- The EXP_DELTA record of one group of 32 elements (R49). -/
def expRecord (bf : Bool) (xs : List Nat) : List Byte :=
  let m := if bf then 7 else 23
  let es := xs.map fun x => bits x m 8
  let b := es.foldl max 0
  let codes := es.map fun e => if b - e ≤ 14 then b - e else 15
  let sm := xs.map fun x => bits x (m + 8) 1 * 2 ^ m + bits x 0 m
  toBytes 1 b ++ ((chunks 2 codes).map fun p => BitVec.ofNat 8 (p.getD 0 0 + 16 * p.getD 1 0))
    ++ sm.flatMap (toBytes (if bf then 1 else 3)) ++ ((es.filter fun e => b - e > 14).map fun e => BitVec.ofNat 8 e)

/-- Pads bytes with zeros to a whole sector. -/
def padSector (bs : List Byte) : List Byte := bs ++ List.replicate ((32 - bs.length % 32) % 32) 0

/-- The EXP_DELTA form of a payload. -/
def expDelta (bf : Bool) (body : List Byte) : List Byte :=
  padSector ((chunks 32 (unpackElems (if bf then 16 else 32) body)).flatMap (expRecord bf))

/-- Rebuilds 32 elements from codes, sign and mantissa parts and escapes; answers the escapes left. -/
def expRebuild (bf : Bool) (b : Nat) : List (Nat × Nat) → List Byte → Option (List Nat × List Byte)
  | [], esc => some ([], esc)
  | (code, sm) :: t, esc =>
    let m := if bf then 7 else 23
    let here : Option (Nat × List Byte) :=
      if code = 15 then (match esc with | [] => none | e :: es => some (e.toNat, es))
      else if code ≤ b then some (b - code, esc) else none
    match here with
    | none => none
    | some (e, esc) =>
      match expRebuild bf b t esc with
      | none => none
      | some (xs, rest) => some ((bits sm m 1 * 2 ^ (m + 8) + e * 2 ^ m + bits sm 0 m) :: xs, rest)

/-- Reads `n` EXP_DELTA records; answers the elements and the bytes left. -/
def unExpAux (bf : Bool) : Nat → List Byte → Option (List Nat × List Byte)
  | 0, st => some ([], st)
  | n + 1, st =>
    let mb := if bf then 1 else 3
    if st.length < 17 + 32 * mb then none
    else
      let b := (st.headD 0).toNat
      let codes := ((st.drop 1).take 16).flatMap fun c => [c.toNat % 16, c.toNat / 16]
      let sms := (chunks mb ((st.drop 17).take (32 * mb))).map ofBytes
      match expRebuild bf b (codes.zip sms) (st.drop (17 + 32 * mb)) with
      | none => none
      | some (xs, rest) =>
        match unExpAux bf n rest with
        | none => none
        | some (ys, rest) => some (xs ++ ys, rest)

/-- Reads an EXP_DELTA payload; none when it is malformed. DESIGN CHOICE (assumption 56): R49 pads with 0x00 and gives a
reader that meets other bytes there no fault; they are ignored. -/
def unExpDelta (bf : Bool) (st : List Byte) : Option (List Byte) :=
  match unExpAux bf 128 st with
  | none => none
  | some (xs, rest) => if rest.length < 32 then some (packElems (if bf then 16 else 32) xs) else none

/-- The uncompressed payload of a stored one. -/
def decompress (h : Hdr) (st : List Byte) : Option (List Byte) :=
  if h.comp = 0 then some st
  else if h.comp = 1 then unZeroSector (plainSectors h.ty h.sparsity) st
  else unExpDelta (decide (h.ty = tyBf16)) st

/-! ### Stored tiles (R31, R55 to R57) -/

/-- CRC of a header and stored payload. -/
def tileCrc (h : Hdr) (stored : List Byte) : Nat := crc32c (h.head ++ stored)

/-- PAYLOAD_SECTORS of 32 header bytes, when it is in range. -/
def storedSectors (hb : List Byte) : Option Nat :=
  let n := bits (ofBytes ((hb.drop 4).take 4)) 0 16
  if 1 ≤ n ∧ n ≤ 1024 then some n else none

/-- Opens a stored tile: CRC first, then format, then the decode (R57). The CRC covers the 28 bytes as they stand. -/
def openTile (compOk : Bool) (bs : List Byte) : Except Nat Tile :=
  match storedSectors bs with
  | none => .error 0x45
  | some n =>
    let h := Hdr.parse bs
    let st := (bs.drop 32).take (32 * n)
    if crc32c (bs.take 28 ++ st) ≠ h.crc then .error 0x44
    else if ¬ h.formatOk compOk then .error 0x45
    else
      match decompress h st with
      | none => .error 0x45
      | some b => .ok { hdr := { h with comp := 0, sectors := plainSectors h.ty h.sparsity }, body := b }

/-- The stored bytes of an uncompressed tile with its CRC. -/
def Tile.stored (t : Tile) : List Byte :=
  let h := { t.hdr with comp := 0, sectors := t.body.length / 32 }
  { h with crc := tileCrc h t.body : Hdr }.bytes ++ t.body

/-- The stored bytes of a tile under a compression code: 0 none, 1 ZERO_SECTOR, 2 EXP_DELTA; a form that does not pay is
stored RAW (R50). -/
def Tile.storedAs (t : Tile) (comp : Nat) : List Byte × Bool :=
  if comp = 0 then (({ t with hdr := { t.hdr with raw := false } } : Tile).stored, false)
  else
    let c := if comp = 1 then zeroSector t.body else expDelta (decide (t.hdr.ty = tyBf16)) t.body
    if c.length < t.body.length then
      let h := { t.hdr with comp := comp, raw := false, sectors := c.length / 32 }
      ({ h with crc := tileCrc h c : Hdr }.bytes ++ c, false)
    else (({ t with hdr := { t.hdr with raw := true } } : Tile).stored, true)

/-- A header for a new dense tile. -/
def Hdr.fresh (ty rows cols trow tcol scale : Nat) (axis : Bool) : Hdr :=
  { ver := 1, comp := 0, sparsity := 0, zmap := false, raw := false, axis := axis, cols := cols, rows := rows, ty := ty,
    metaSec := 0, sectors := plainSectors ty 0, scale := scale, tcol := tcol, trow := trow, zrows := 0, zk := 0, resv := 0, crc := 0 }

/-- 1.0 in FP32, the TENSOR_SCALE of types without one. -/
def scaleOne : Nat := 0x3F800000

end Sys2Proof.Machine
end

