-- ==== Sys2Proof/Machine/Train.lean ====
section
/-! DEFINITION. Training set-ups: parameter entries and expert bitmaps (R220 to R222, R231). -/

namespace Sys2Proof.Machine

open Sys2Proof

/-- Status TRAIN_OPERAND. -/
def stTrain : Nat := 0x3B

/-- A parameter entry (R221). -/
structure Param where
  presence : Nat
  touched : Nat
  role : Nat
  isSet : Bool
  rank : Nat
  base : Nat
  experts : Nat        -- E of a SET entry

/-- Whether the 32 bytes of an entry keep R221. -/
def paramOk (b : List Byte) : Bool :=
  let r := fld b 0x10 4
  let role := bits r 30 2
  let set := bit r 29
  let maps := set && role != 1
  let mapOk (a : Nat) : Bool := if maps then a != 0 && a % 64 == 0 else a == 0
  role != 3 && bits r 9 20 == 0 && mapOk (fld b 0 8) && mapOk (fld b 8 8)
    && (if role = 2 then decide (1 ≤ bits r 0 9 ∧ bits r 0 9 ≤ 256) else bits r 0 9 == 0)
    && (role == 2 || bits (fld b 0x14 4) 16 16 == 0) && (set || bits (fld b 0x14 4) 0 16 == 0) && fld b 0x18 4 == 0

/-- The entry that bytes spell. -/
def paramOf (b : List Byte) : Param :=
  let r := fld b 0x10 4
  { presence := fld b 0 8, touched := fld b 8 8, role := bits r 30 2, isSet := bit r 29, rank := bits r 0 9,
    base := bits (fld b 0x14 4) 16 16, experts := bits (fld b 0x14 4) 0 16 + 1 }

/-- Reads a node's parameter entry (R222): the entry, or the status and detail of the failure. -/
def Wk.param (w : Wk) (x : Inst) (p : Nat) : Except (Nat × Nat) Param :=
  match w.dev.job x.job with
  | none => .error (stTrain, 0)
  | some j =>
    if ¬ j.trainOn ∨ p ≥ j.trainCount then .error (stTrain, 0)
    else
      match w.rdLocal x.job (j.trainBase + 32 * p) 32 with
      | .error e => .error e
      | .ok b =>
        if crc32c (b.take 28) ≠ fld b 0x1C 4 then .error (stTileCrc, 0)
        else if ¬ paramOk b then .error (stTrain, 0)
        else .ok (paramOf b)

/-- Fails a node for a parameter entry: TILE_CRC is CONTAINED, every other status JOB_FATAL. -/
def Wk.paramFails (w : Wk) (seq i : Nat) (e : Nat × Nat) : Wk := w.raiseStatus seq i e.1 e.2 w.dev.leadHalf

/-- Bytes of a bitmap of `n` experts, padded to 64. -/
def bitmapBytes (n : Nat) : Nat := cdiv n 512 * 64

/-- Bit `e` of a bitmap. -/
def mapBit (bs : List Byte) (e : Nat) : Bool := bit (nth bs (e / 8) 0).toNat (e % 8)

/-- The OR of two bitmaps. -/
def mapOr (a b : List Byte) : List Byte := (List.range (max a.length b.length)).map fun i => nth a i 0 ||| nth b i 0

end Sys2Proof.Machine
end

