-- ==== Sys2Proof/Machine/Ce.lean ====
section
/-! DEFINITION. Collectives: the COLLECTIVE node, the movement and reduction of tiles, arrival bitmaps and the verify
vote (R400 to R422). -/

namespace Sys2Proof.Machine

open Sys2Proof

/-- Status COLLECTIVE_OPERAND. -/
def stCollOperand : Nat := 0x28
/-- Status VERIFY_FAILED. -/
def stVerify : Nat := 0x24

/-! ### Operands (R400, R401) -/

/-- SRC. -/
def CeOp.src (o : CeOp) : Nat := fld o.nb 0x20 8
/-- DST. -/
def CeOp.dst (o : CeOp) : Nat := fld o.nb 0x28 8
/-- ARRIVAL_TAG. -/
def CeOp.tag (o : CeOp) : Nat := fld o.nb 0x30 8
/-- COUNT. -/
def CeOp.c (o : CeOp) : Nat := fld o.nb 0x38 4
/-- The word at 0x3C. -/
def CeOp.word (o : CeOp) : Nat := fld o.nb 0x3C 4
/-- CTYPE. -/
def CeOp.ctype (o : CeOp) : Nat := bits o.word 28 4
/-- OP. -/
def CeOp.rop (o : CeOp) : Nat := bits o.word 26 2
/-- DTYPE. -/
def CeOp.dtype (o : CeOp) : Nat := bits o.word 23 3
/-- ALGO. -/
def CeOp.algo (o : CeOp) : Nat := bits o.word 21 2
/-- MIRROR. -/
def CeOp.mirror (o : CeOp) : Bool := bit o.word 20
/-- EXPERT_SET. -/
def CeOp.eset (o : CeOp) : Bool := bit o.word 19
/-- DIR: backward. -/
def CeOp.back (o : CeOp) : Bool := bit o.word 18
/-- WRAP. -/
def CeOp.wrap (o : CeOp) : Bool := bit o.word 17
/-- TILES_PER_EXPERT. -/
def CeOp.tpe (o : CeOp) : Nat := bits (fld o.nb 0x40 4) 0 16
/-- ROOT, or the step count of RING_PASS. -/
def CeOp.root (o : CeOp) : Nat := bits (fld o.nb 0x44 4) 0 14
/-- Whether the type reduces. -/
def CeOp.reduces (o : CeOp) : Bool := o.ctype == 0 || o.ctype == 1

/-- TYPE of a DTYPE. -/
def dtypeTy (d : Nat) : Nat := nth [tyFp32, tyBf16, tyE4m3, tyE5m2, tyInt32] d 0xFF

/-- Blocks that member `m` receives under RING_PASS (R413). -/
def CeOp.blocks (o : CeOp) (n m : Nat) : Nat :=
  if o.wrap then o.root else if o.back then min o.root (n - 1 - m) else min o.root m

/-- First tile of the shard of member `s` of a list of `l` tiles. -/
def shardLo (l n s : Nat) : Nat := s * l / n

/-- The shard that holds place `t`. -/
def shardOf (l n t : Nat) : Nat := ((List.range n).find? fun s => t < shardLo l n (s + 1)).getD 0

/-- DST tiles of member `m` (R401). -/
def CeOp.pieces (o : CeOp) (n m : Nat) : Nat :=
  match o.ctype with
  | 0 => o.c
  | 1 => shardLo o.c n (m + 1) - shardLo o.c n m
  | 2 => n * o.c
  | 3 => if o.dst = 0 then 0 else o.c
  | 4 => n * o.c
  | 5 => o.blocks n m * o.c
  | _ => 0

/-- SRC tiles of member `m`. -/
def CeOp.srcTiles (o : CeOp) (n m : Nat) : Nat :=
  match o.ctype with
  | 3 => if m = o.root then o.c else 0
  | 4 => n * o.c
  | 7 => 0
  | _ => o.c

/-- ALGO codes that a CTYPE permits: RING 0, TREE 1, DIRECT 2. -/
def algoOk (ctype algo : Nat) : Bool :=
  match ctype with
  | 0 => algo == 0 || algo == 1
  | 1 => algo == 0
  | 2 => algo == 0 || algo == 2
  | 3 => algo == 1
  | 4 => algo == 2
  | 5 => algo == 0
  | 7 => algo == 1
  | _ => false

/-- The operand checks of R403 that need only the operands and the group. -/
def CeOp.ok (o : CeOp) (g : Group64) : Bool :=
  let n := g.count
  let aligned (a : Nat) : Bool := isLocal a && a % 32 == 0
  let root3 := o.ctype == 3 && g.me == o.root
  bits o.word 14 3 == 0 && bits o.word 0 8 == 0 && algoOk o.ctype o.algo && zeroFrom o.nb 0x48 && bits (fld o.nb 0x44 4) 14 18 == 0
    && (if o.reduces then decide (o.rop < 3) && decide (o.dtype < 5) else o.rop == 0 && o.dtype == 0)
    && (!o.mirror || o.ctype == 2) && (o.ctype == 5 || (!o.back && !o.wrap))
    && (if o.eset then o.reduces && o.tpe != 0 else fld o.nb 0x40 4 == 0)
    && (if o.ctype = 7 then o.c == 0 && o.src == 0 && o.dst == 0 else decide (1 ≤ o.c ∧ o.c ≤ 16777216))
    && (if o.ctype = 3 then decide (o.root < n) else if o.ctype = 5 then decide (1 ≤ o.root ∧ o.root < n) else o.root == 0)
    && (if o.ctype = 7 then true
        else if o.ctype = 3 ∧ ¬ root3 then o.src == 0 && o.dst != 0 && aligned o.dst
        else aligned o.src && o.src != 0 && ((root3 && o.dst == 0) || (aligned o.dst && o.dst != 0)))
    && (o.tag == 0 || decide (o.pieces n g.me ≤ 65536))

/-! ### Tiles and values (R402, R406) -/

/-- Address of SRC tile `j`. -/
def CeOp.srcAt (o : CeOp) (j : Nat) : Nat := o.src + j * o.size
/-- Address of DST tile `j`. -/
def CeOp.dstAt (o : CeOp) (j : Nat) : Nat := o.dst + j * o.size

/-- Replaces an operation. -/
def Dev.onOp (d : Dev) (id : Nat) (f : CeOp → CeOp) : Dev :=
  d.onCe fun c => { c with ops := c.ops.map fun o => if o.id = id then f o else o }

/-- An operation under way. -/
def Dev.op (d : Dev) (id : Nat) : Option CeOp := d.ce.ops.find? fun o => o.id = id

/-- The operation of a group. -/
def Dev.opOf (d : Dev) (k : Nat) : Option CeOp := d.ce.ops.find? fun o => o.group = k

/-- The values of a tile that reduces, row by row: FP32 codes, or INT32 elements; padding is zero. -/
def redVals (int : Bool) (t : Tile) : List Nat :=
  let v := t.view
  (List.range 4096).map fun i =>
    if t.hdr.valid (i / 64) (i % 64) then (if int then v.code (i / 64) (i % 64) else fl (v.val (i / 64) (i % 64))) else 0

/-- One element of a reduction: OP 0 SUM, 1 MAX, 2 MIN. -/
def redOne (int : Bool) (op a b : Nat) : Nat :=
  if int then
    (if op = 0 then (a + b) % 2 ^ 32
     else if op = 1 then (if sext a 32 ≥ sext b 32 then a else b)
     else if sext a 32 ≤ sext b 32 then a else b)
  else if op = 0 then fadd a b
  else if op = 1 then fmax a b
  else fmin a b

/-- Element by element. -/
def redTwo (int : Bool) (op : Nat) (a b : List Nat) : List Nat := (a.zip b).map fun p => redOne int op p.1 p.2

/-- The 32-bit values of a partial's tile; its padding counts as zero (R33). -/
def partialVals (bs : List Byte) : List Nat :=
  let v := ({ hdr := Hdr.parse bs, body := (bs.drop 32).take 16384 } : Tile).view
  (List.range 4096).map fun i => v.sound (i / 64) (i % 64)

/-- The tile that carries a partial: FP32, or INT32 for INT32, with TENSOR_SCALE 1.0. -/
def partialTile (int : Bool) (h : Hdr) (vals : List Nat) : List Byte :=
  let h := Hdr.fresh (if int then tyInt32 else tyFp32) h.rows h.cols h.trow h.tcol scaleOne false
  let a := vals.toArray
  ({ hdr := h, body := packCodes h (fun r c => a.getD (64 * r + c) 0) fun _ => 0 } : Tile).stored

/-- The finished tile: the type, dimensions and scale of the member's own SRC tile, its zero-map and CRC. -/
def finishTile (int : Bool) (h : Hdr) (vals : List Nat) : List Byte :=
  let h := { h with comp := 0, sparsity := 0, zmap := false, raw := false, zrows := 0, zk := 0, resv := 0, metaSec := 0 }
  let a := vals.toArray
  let body := if int then packCodes h (fun r c => a.getD (64 * r + c) 0) fun _ => 0 else packVals h ⟨.rne, 0, 0⟩ fun r c => f32 (a.getD (64 * r + c) 0)
  ({ hdr := h, body := body } : Tile).mapped.stored

/-- This member's own SRC tile `j`. -/
def Wk.ownTile (w : Wk) (o : CeOp) (j : Nat) : Option Tile := (openTile false (w.rdN (o.srcAt j) o.size)).toOption

/-! ### Who sends what (R401, R404, R407, R411) -/

/-- The tile list, or nothing while it is unknown. -/
def CeOp.tiles (o : CeOp) : List Nat := o.list.getD []

/-- Members from which a member receives data (R404): it sends them READY. -/
def CeOp.sources (o : CeOp) (g : Group64) : List Nat :=
  let n := g.count
  let i := g.me
  let l := match o.ctype, o.algo with
    | 0, 1 => g.children i ++ (if i = 0 then [] else [(i - 1) / g.fan])
    | 2, 2 => List.range n
    | 3, _ => if i = o.root then [] else [((((i + n - o.root) % n) - 1) / g.fan + o.root) % n]
    | 4, _ => List.range n
    | 5, _ => if o.blocks n i = 0 then [] else [if o.back then (i + 1) % n else (i + n - 1) % n]
    | 7, _ => []
    | _, _ => [(i + n - 1) % n]
  l.filter (· ≠ i)

/-- Every data frame this member owes: kind, member, and the index it bears. -/
def CeOp.owes (o : CeOp) (g : Group64) : List (Nat × Nat × Nat) :=
  let n := g.count
  let i := g.me
  let l := o.tiles.length
  let next := (i + 1) % n
  match o.ctype with
  | 0 =>
    if o.algo = 0 then
      (List.range l).flatMap fun t =>
        let s := shardOf l n t
        (if i ≠ s then [(0x11, next, t)] else []) ++ (if next ≠ s then [(0x12, next, t)] else [])
    else
      (List.range l).flatMap fun t =>
        (if i = 0 then [] else [(0x11, (i - 1) / g.fan, t)]) ++ (g.children i).map fun m => (0x12, m, t)
  | 1 => (List.range l).filterMap fun t => if i ≠ shardOf l n t then some (0x11, next, t) else none
  | 2 =>
    if o.algo = 0 then (List.range (n * o.c)).filterMap fun x => if next ≠ x / o.c then some (0x12, next, x) else none
    else ((List.range n).filter (· ≠ i)).flatMap fun m => (List.range o.c).map fun t => (0x12, m, i * o.c + t)
  | 3 => ((g.children ((i + n - o.root) % n)).map fun m => (m + o.root) % n).flatMap fun m =>
      (List.range o.c).map fun t => (0x12, m, t)
  | 4 => ((List.range n).filter (· ≠ i)).flatMap fun m => (List.range o.c).map fun t => (0x12, m, i * o.c + t)
  | 5 =>
    let m := if o.back then (i + n - 1) % n else next
    let there : Bool := o.wrap || (if o.back then i != 0 else i + 1 != n)
    if there then (List.range (o.blocks n m * o.c)).map fun x => (0x12, m, x) else []
  | _ => []

/-- DST tile of an index at this member. -/
def CeOp.dstTile (o : CeOp) (g : Group64) (x : Nat) : Nat :=
  match o.ctype with
  | 0 => nth o.tiles x 0
  | 1 => x - shardLo o.tiles.length g.count g.me
  | _ => x

/-- The sum so far of a ring: the value of place `t` that this member passes on or finishes. -/
def Wk.ringVal (w : Wk) (o : CeOp) (g : Group64) (t : Nat) : Option (Hdr × List Nat) :=
  let int := o.dtype == 4
  let n := g.count
  match w.ownTile o (nth o.tiles t 0) with
  | none => none
  | some own =>
    let x := redVals int own
    if g.me = (shardOf o.tiles.length n t + 1) % n then some (own.hdr, x)
    else
      match o.inbox.find? fun p => p.1 = (g.me + n - 1) % n ∧ p.2.1 = t with
      | none => none
      | some p => some (own.hdr, redTwo int o.rop (partialVals p.2.2) x)

/-- The sum of a subtree, and the order in which its children were added (R408). -/
def Wk.treeVal (w : Wk) (o : CeOp) (g : Group64) (t : Nat) : Option (Hdr × List Nat × List Nat) :=
  let int := o.dtype == 4
  let kids := g.children g.me
  let came := o.inbox.filter fun p => p.2.1 = t ∧ kids.contains p.1
  match w.ownTile o (nth o.tiles t 0) with
  | none => none
  | some own =>
    if kids.any fun m => ¬ came.any fun p => p.1 = m then none
    else
      let order := match aget o.orders t with | some l => l | none => if o.strict then kids else came.map (·.1)
      let vals := order.foldl
        (fun v m => match came.find? fun p => p.1 = m with
          | some p => redTwo int o.rop v (partialVals p.2.2)
          | none => v)
        (redVals int own)
      some (own.hdr, vals, order)

/-- Records the order of a tree sum, and counts one that is not ascending (R408). -/
def Wk.ceOrder (w : Wk) (o : CeOp) (g : Group64) (t : Nat) (order : List Nat) : Wk :=
  if (aget o.orders t).isSome then w
  else
    let w := w.upd (·.onOp o.id fun o => { o with orders := o.orders ++ [(t, order)] })
    if order = g.children g.me then w
    else w.upd fun d =>
      ((d.count .west Reg.TOP_TDC_COUNT_LO 1).count o.half Reg.CE_TDC_LO 1).onNode o.inst o.node fun n => { n with tdc := n.tdc + 1 }

/-- The sum of place `t`, once it is known. -/
def Wk.ceVal (w : Wk) (o : CeOp) (g : Group64) (t : Nat) : Option (Wk × Hdr × List Nat) :=
  if o.algo = 0 then (w.ringVal o g t).map fun p => (w, p.1, p.2)
  else (w.treeVal o g t).map fun p => (w.ceOrder o g t p.2.2, p.1, p.2.1)

/-- Where the tile of a FINAL frame to member `m` stands, once it is there. -/
def CeOp.tileAt (o : CeOp) (g : Group64) (m x : Nat) : Option Nat :=
  let got (j : Nat) : Option Nat := if o.done.contains j then some (o.dstAt j) else none
  match o.ctype with
  | 0 => got (o.dstTile g x)
  | 2 => if x / o.c = g.me then some (o.srcAt (x % o.c)) else got x
  | 3 => if g.me = o.root then some (o.srcAt x) else got x
  | 4 => some (o.srcAt (m * o.c + x % o.c))
  | 5 => if x < o.c then some (o.srcAt x) else got (x - o.c)
  | _ => none

/-- The stored bytes of a data frame that can be sent now. -/
def Wk.ceData (w : Wk) (o : CeOp) (g : Group64) (kind m x : Nat) : Option (Wk × List Byte) :=
  if kind = 0x11 then (w.ceVal o g x).map fun p => (p.1, partialTile (o.dtype == 4) p.2.1 p.2.2)
  else (o.tileAt g m x).map fun a => (w, w.rdN a o.size)

/-- DST tiles that this member forms itself and has not yet: the DST tile, and its place in the tile list or its SRC tile. -/
def CeOp.locals (o : CeOp) (g : Group64) : List (Nat × Nat) :=
  let l := o.tiles.length
  let all : List (Nat × Nat) := match o.ctype with
    | 0 | 1 => ((List.range l).filter fun t => if o.algo = 0 then shardOf l g.count t == g.me else g.me == 0).map fun t => (o.dstTile g t, t)
    | 2 => (List.range o.c).map fun t => (g.me * o.c + t, t)
    | 3 => if g.me = o.root ∧ o.dst ≠ 0 then (List.range o.c).map fun t => (t, t) else []
    | 4 => (List.range o.c).map fun t => (g.me * o.c + t, g.me * o.c + t)
    | _ => []
  all.filter fun p => ¬ o.done.contains p.1

/-- Address of the first poisoned block among the tiles that the operation reads now: those of the frames it can send and of the DST
tiles it forms itself. -/
def Wk.cePoison (w : Wk) (o : CeOp) (g : Group64) : Option Nat :=
  if w.dev.host.poison.isEmpty then none
  else
    let sends := ((o.owes g).filter fun s => ¬ o.sent.contains s ∧ o.ready.contains s.2.1).filterMap fun s =>
      if s.1 = 0x11 then some (o.srcAt (nth o.tiles s.2.2 0)) else o.tileAt g s.2.1 s.2.2
    let own := (o.locals g).map fun p => o.srcAt (if o.reduces then nth o.tiles p.2 0 else p.2)
    (sends ++ own).findSome? fun a => w.dev.poisonIn a o.size

/-! ### Frames out -/

/-- A member that cannot be reached: an ERROR event of class NONE, once (R419). -/
def Wk.memberLost (w : Wk) (o : CeOp) (m : Nat) : Wk :=
  if o.told.contains m then w
  else
    let w := w.upd fun d => (d.onOp o.id fun o => { o with told := o.told ++ [m] }).count o.half Reg.CE_MEMBER_LOST_LO 1
    match w.dev.inst o.inst, w.dev.node o.inst o.node with
    | some x, some n =>
      w.postJob o.half { kind := 1, cls := 0, status := stMemberLost, job := x.job, tag := x.tag, node := n.id, island := fuIsland o.half,
                         d0 := m, d1 := n.attempt }
    | _, _ => w

/-- Sends a frame; answers whether it went. -/
def Wk.ceSend (w : Wk) (o : CeOp) (g : Group64) (m : Nat) (f : CeFrame) : Wk × Bool :=
  if w.dev.reachable (nth g.members m 0) then (w.upd (·.frameTo o.half o.group m f), true) else (w.memberLost o m, false)

/-- Sends a control frame. -/
def Wk.ceTell (w : Wk) (o : CeOp) (g : Group64) (m kind : Nat) (body : List Byte) : Wk := (w.ceSend o g m (g.frame o.seq kind 0 body)).1

/-- Sends a tile in one or two frames. -/
def Wk.ceTile (w : Wk) (o : CeOp) (g : Group64) (kind m x : Nat) (bs : List Byte) : Wk × Bool :=
  let f := g.frame o.seq kind x
  if bs.length ≤ 16256 then w.ceSend o g m (f bs)
  else
    let a := w.ceSend o g m { f (bs.take 16256) with parts := 2 }
    if a.2 then a.1.ceSend o g m { f (bs.drop 16256) with parts := 2, part := 1 } else a

/-! ### DST tiles and pieces (R405, R414) -/

/-- A DST tile stands whole: it is written in place and its piece is set. -/
def Wk.ceWrite (w : Wk) (o : CeOp) (j : Nat) (bs : List Byte) : Wk :=
  let a := o.dstAt j
  (((w.mirTouch a bs.length).wr a bs).upd fun d => (d.dropOrds a bs.length).noteBlocks a bs.length).upd fun d =>
    (d.onOp o.id fun o => { o with done := o.done ++ [j] }).onCe fun c =>
      { c with bitmaps := c.bitmaps.map fun b => if b.id = o.id then { b with done := b.done ++ [j] } else b }

/-! ### The end of an operation (R417, R420, R422) -/

/-- Commands that have waited on an operation's bitmap and are not done. -/
def Dev.bitmapUsers (d : Dev) (id : Nat) : List (Nat × Nat) :=
  d.tgu.insts.flatMap fun p => (List.range p.2.nodes.length).filterMap fun i =>
    match p.2.nodes[i]? with
    | some n => if n.st ≠ .done ∧ n.waitsOn.contains id then some (p.1, i) else none
    | none => none

/-- Completes a node with a status of no class, killing its attempt. -/
def Wk.endWith (w : Wk) (status : Nat) (si : Nat × Nat) : Wk :=
  match w.dev.node si.1 si.2 with
  | none => w
  | some n =>
    if n.st = .done then w
    else
      let w := if n.st = .running ∨ n.st = .committing then (w.discard si.1 si.2).upd (·.countKill si.1 si.2) else w
      w.closeNode si.1 si.2 status

/-- Nodes that depend on some nodes of an instance, directly or through others. The first argument bounds the search. -/
def Wk.dependants (w : Wk) (x : Inst) : Nat → List Nat → List Nat
  | 0, l => l
  | k + 1, l =>
    let new := (l.flatMap fun i =>
      match x.nodes[i]? with
      | none => []
      | some n => if n.succ.isEmpty then (w.succList x n).toOption.getD [] else n.succ).eraseDups.filter fun s => ¬ l.contains s
    if new.isEmpty then l else w.dependants x k (l ++ new)

/-- Ends nodes and everything of their instance that depends on them, with a status of no class (R420; the same for
ABORTED under R421 is DEDUCED: nothing would ever release them). -/
def Wk.endDepends (w : Wk) (status seq : Nat) (is : List Nat) : Wk :=
  match w.dev.inst seq with
  | none => w
  | some x =>
    let l := w.dependants x x.nodes.length is
    ((l.foldl (fun w i => w.endWith status (seq, i)) w)).upd (·.closeInst seq)

/-- An operation ends other than OK (R420, R422, R427). -/
def Wk.ceEnd (w : Wk) (id status d0 : Nat) : Wk :=
  match w.dev.op id with
  | none => w
  | some o =>
    let users := w.dev.bitmapUsers id
    let w := w.upd (·.dropOp id)
    let w := match w.dev.group o.group with
      | none => w
      | some g =>
        let dev := nth g.members g.tapMember 0
        let w := if o.mirror then w.tapEnds g.fid o.seq false else w
        if o.mirror ∧ g.tapOn ∧ (w.dev.hostOf dev).isSome then w.upd fun d => d.mirMsg dev msgTapResult g.fid o.seq status 0 else w
    if o.left then w
    else if status = stReformed ∨ status = stAborted then
      let w := users.foldl (fun w u => w.endDepends status u.1 [u.2]) w
      w.endDepends status o.inst [o.node]
    else
      let w := users.foldl (fun w u => w.endWith status u) w
      let w := w.fail o.inst o.node status d0
      users.foldl (fun w u => w.upd (·.closeInst u.1)) w

/-! ### The vote (R417) -/

/-- Whether every DST tile is settled: it stands whole, or has been voted bad. -/
def CeOp.complete (o : CeOp) (g : Group64) : Bool :=
  o.list.isSome && (List.range (o.pieces g.count g.me)).all fun p => o.done.contains p || o.bad.any fun x => o.dstTile g x == p

/-- The tiles that the scan reads, as (index, address). -/
def CeOp.scanned (o : CeOp) (g : Group64) : List (Nat × Nat) :=
  match o.ctype with
  | 0 => (List.range o.tiles.length).map fun x => (x, o.dstAt (nth o.tiles x 0))
  | 1 =>
    let lo := shardLo o.tiles.length g.count g.me
    (List.range (shardLo o.tiles.length g.count (g.me + 1) - lo)).map fun j => (lo + j, o.dstAt j)
  | 3 => if o.dst = 0 then (List.range o.c).map fun x => (x, o.srcAt x) else (List.range o.c).map fun x => (x, o.dstAt x)
  | _ => (List.range (o.pieces g.count g.me)).map fun x => (x, o.dstAt x)

/-- Whether the scan meets a tile whose form, not its CRC, is at fault (R57); a tile already voted bad does not count. -/
def Wk.scanForm (w : Wk) (o : CeOp) (g : Group64) : Bool :=
  (o.scanned g).any fun t => !o.bad.contains t.1 && match openTile false (w.rdN t.2 o.size) with | .error st => st != stTileCrc | .ok _ => false

/-- The member's own vote: the scan's bad tiles and the digest (R417). -/
def Wk.ownVote (w : Wk) (o : CeOp) (g : Group64) : CeVote :=
  let ts := o.scanned g
  let bad := ts.filter fun t => match openTile false (w.rdN t.2 o.size) with | .error _ => true | .ok _ => false
  let bads := (List.range (ts.length + o.bad.length + o.tiles.length + 1)).filter fun x => o.bad.contains x || bad.any fun t => t.1 == x
  { member := g.me, ok := bads.isEmpty, mismatch := false, digest := crc32c (ts.flatMap fun t => w.rdN (t.2 + 28) 4), bad := bads }

/-- A vote joined with a child's. -/
def CeVote.join (cmp : Bool) (a b : CeVote) : CeVote :=
  let bad := sortBy (fun (x y : Nat) => decide (x < y)) ((a.bad ++ b.bad).eraseDups)
  { a with ok := a.ok && b.ok, mismatch := a.mismatch || b.mismatch || (cmp && a.digest != b.digest) || decide (bad.length > 64), bad := bad }

/-- Body of a VOTE. -/
def CeVote.body (v : CeVote) : List Byte :=
  let bad := v.bad.take 64
  toBytes 4 (b2n v.ok + 2 * b2n v.mismatch) ++ toBytes 4 bad.length ++ toBytes 4 v.digest ++ bad.flatMap (toBytes 4)

/-- Reads a VOTE. -/
def voteOf (m : Nat) (b : List Byte) : CeVote :=
  { member := m, ok := bit (fld b 0 4) 0, mismatch := bit (fld b 0 4) 1, digest := fld b 8 4,
    bad := (chunks 4 ((b.drop 12).take (4 * min 64 (fld b 4 4)))).map ofBytes }

/-- Body of a VERDICT. -/
def verdictBody (code : Nat) (l : List Nat) : List Byte := toBytes 4 code ++ toBytes 4 l.length ++ l.flatMap (toBytes 4)

/-- Ends the waits on an operation that is verified; what waited may commit. -/
def Dev.ceVerified (d : Dev) (id : Nat) : Dev :=
  let d := d.onCe fun c => { c with bitmaps := c.bitmaps.map fun b => if b.id = id then { b with verified := true } else b }
  let us := d.tgu.insts.flatMap fun p => (List.range p.2.nodes.length).filterMap fun i =>
    match p.2.nodes[i]? with
    | some n => if n.waitsOn.contains id ∨ n.gates.contains id then some (p.1, i) else none
    | none => none
  us.foldl
    (fun d u =>
      (d.onNode u.1 u.2 fun n => { n with waitsOn := n.waitsOn.filter (· ≠ id), gates := n.gates.filter (· ≠ id) }).readyToCommit u.1 u.2)
    d

/-- The operation ends, and its node takes the step of a status. -/
def Wk.ceRaise (w : Wk) (o : CeOp) (status a : Nat) : Wk := (w.upd (·.endOps o.inst o.node)).raiseStatus o.inst o.node status a o.half

/-- What a member's node does at commit, once it is verified. -/
def Wk.ceFinish (w : Wk) (o : CeOp) (g : Group64) : Wk :=
  let acts := [CommitAct.count o.half Reg.CE_COLLECTIVES_LO 1, .count o.half Reg.CE_TAP_TILES_LO o.tapped,
               .count o.half Reg.CE_EXPERTS_SKIPPED_LO o.absent]
  let tap : List CommitAct :=
    if o.mirror ∧ g.tapOn ∧ (w.dev.hostOf (nth g.members g.tapMember 0)).isSome then
      [.tapDone (nth g.members g.tapMember 0) g.fid o.seq (if o.tapFull then 0x11 else 0)]
    else []
  let w := w.upd fun d => (d.onOp o.id fun o => { o with verified := true }).ceVerified o.id
  let w := w.upd fun d => d.onNode o.inst o.node fun n => { n with acts := n.acts ++ acts ++ tap }
  let w := if o.eset then w.stage o.inst o.node [⟨o.touched, o.union⟩] else w
  w.upd (·.engineDone o.inst o.node)

/-- A verdict at a member: sent on to its children, then acted on. `again` takes up frames of the next round. -/
def Wk.verdict (w : Wk) (id code : Nat) (l : List Nat) (again : Wk → Nat → Wk) : Wk :=
  match w.dev.op id with
  | none => w
  | some o =>
    match w.dev.group o.group with
    | none => w
    | some g =>
      let w := (g.children g.me).foldl (fun w m => w.ceTell o g m 0x21 (verdictBody code l)) w
      match if o.left then 3 else code with
      | 0 => w.ceFinish o g
      | 1 =>
        let w := (w.dev.bitmapUsers id).foldl (fun w u => w.killRerun u.1 u.2 false) w
        let ps := l.map (o.dstTile g)
        let w := w.upd fun d =>
          ((d.onOp id fun o =>
            { o with done := o.done.filter (fun p => ¬ ps.contains p), sent := o.sent.filter (fun s => ¬ l.contains s.2.2),
                     inbox := o.inbox.filter (fun p => ¬ l.contains p.2.1), asked := o.asked.filter (fun a => ¬ l.contains a.2.1),
                     bad := [], votes := [], voted := false, round := o.round + 1 }).onCe fun c =>
            { c with bitmaps := c.bitmaps.map fun b => if b.id = id then { b with done := b.done.filter fun p => ¬ ps.contains p } else b }).count
            o.half Reg.CE_REDO_TILES_LO l.length
        again w id
      | 2 => w.ceEnd id stVerify 0
      | _ => w.ceEnd id stAborted 0

/-- The vote goes up once this member is complete and every child has voted; member 0 gives the verdict. -/
def Wk.ceVote (w : Wk) (id : Nat) (again : Wk → Nat → Wk) : Wk :=
  match w.dev.op id with
  | none => w
  | some o =>
    match w.dev.group o.group with
    | none => w
    | some g =>
      let kids := g.children g.me
      if o.voted ∨ o.exch ∨ o.left ∨ o.verified ∨ ¬ o.complete g ∨ kids.any (fun m => ¬ o.votes.any fun v => v.member = m) then w
      else if let some a := (o.scanned g).findSome? fun t => w.dev.poisonIn t.2 o.size then w.ceRaise o stUncorrectable a
      else if w.scanForm o g then (w.upd (·.endOps o.inst o.node)).fail o.inst o.node stTileFormat 0
      else
        let v := o.votes.foldl (CeVote.join (o.ctype = 0 ∨ o.ctype = 2 ∨ o.ctype = 3)) (w.ownVote o g)
        let w := w.upd fun d => (d.onOp id fun o => { o with voted := true }).count o.half Reg.CE_VERIFY_ROUNDS_LO 1
        if g.me ≠ 0 then w.ceTell o g ((g.me - 1) / g.fan) 0x20 v.body
        else if v.mismatch then w.verdict id 2 [] again
        else if ¬ v.bad.isEmpty then (if o.round ≤ 2 then w.verdict id 1 v.bad again else w.verdict id 2 [] again)
        else w.verdict id 0 [] again

/-! ### Progress -/

/-- DST tiles this member can form itself now. -/
def Wk.ceLocal (w : Wk) (id : Nat) : Wk :=
  match w.dev.op id with
  | none => w
  | some o =>
    match w.dev.group o.group with
    | none => w
    | some g =>
      (o.locals g).foldl
        (fun w p =>
          match w.dev.op id with
          | none => w
          | some o =>
            if w.dev.mirFull (o.dstAt p.1) o.size then w
            else if ¬ o.reduces then w.ceWrite o p.1 (w.rdN (o.srcAt p.2) o.size)
            else
              match w.ceVal o g p.2 with
              | none => w
              | some v => v.1.ceWrite o p.1 (finishTile (o.dtype == 4) v.2.1 v.2.2))
        w

/-- Sends every data frame that can be sent: its receiver is ready and its tile is there. -/
def Wk.ceSends (w : Wk) (id : Nat) : Wk :=
  match w.dev.op id with
  | none => w
  | some o =>
    match w.dev.group o.group with
    | none => w
    | some g =>
      (o.owes g).foldl
        (fun w s =>
          match w.dev.op id with
          | none => w
          | some o =>
            if o.sent.contains s ∨ ¬ o.ready.contains s.2.1 then w
            else
              match w.ceData o g s.1 s.2.1 s.2.2 with
              | none => w
              | some p =>
                let r := p.1.ceTile o g s.1 s.2.1 s.2.2 p.2
                if r.2 then r.1.upd (·.onOp id fun o => { o with sent := o.sent ++ [s] }) else r.1)
        w

/-- Everything an operation can do now, once its tile list and S are known. A poisoned tile fails the node (R427). -/
def Wk.ceProgress (w : Wk) (id : Nat) (again : Wk → Nat → Wk) : Wk :=
  match w.dev.op id with
  | none => w
  | some o =>
    if o.list.isNone ∨ o.exch ∨ o.left then w
    else
      match (w.dev.group o.group).bind (w.cePoison o) with
      | some a => w.ceRaise o stUncorrectable a
      | none => ((w.ceLocal id).ceSends id).ceVote id again

/-! ### Frames in -/

/-- Whether the tile of a frame has been used in this round. -/
def CeOp.used (o : CeOp) (g : Group64) (f : CeFrame) : Bool :=
  if f.kind = 0x11 then o.inbox.any fun p => p.1 = f.src ∧ p.2.1 = f.index else o.done.contains (o.dstTile g f.index)

/-- A tile that fails its check: RESEND, at most twice, then it is voted bad (R416). -/
def Wk.ceBad (w : Wk) (o : CeOp) (g : Group64) (f : CeFrame) : Wk :=
  let n := ((o.asked.find? fun a => a.1 = f.src ∧ a.2.1 = f.index).map (·.2.2)).getD 0
  if n ≥ 2 then w.upd (·.onOp o.id fun o => { o with bad := o.bad ++ [f.index] })
  else
    let w := w.upd fun d =>
      (d.onOp o.id fun o => { o with asked := o.asked.filter (fun a => ¬ (a.1 = f.src ∧ a.2.1 = f.index)) ++ [(f.src, f.index, n + 1)] }).count
        o.half Reg.CE_TILE_RESEND_LO 1
    (w.ceSend o g f.src (g.frame o.seq 0x13 f.index [])).1

/-- A tapped tile at the partner (R424). -/
def Wk.ceTap (w : Wk) (o : CeOp) (g : Group64) (x : Nat) (bs : List Byte) : Wk :=
  if ¬ o.mirror ∨ ¬ g.tapOn ∨ x / o.c ≠ g.tapMember then w
  else
    match w.dev.hostOf (nth g.members g.tapMember 0) with
    | none => w
    | some h =>
      let r := w.tapTile h g.fid o.seq (x % o.c) bs
      r.1.upd (·.onOp o.id fun o => if r.2 then { o with tapped := o.tapped + 1 } else { o with tapFull := true })

/-- A tile of a form that the operation does not take ends it (R57, R402, R427). -/
def Wk.ceForm (w : Wk) (o : CeOp) : Wk := (w.upd (·.endOps o.inst o.node)).fail o.inst o.node stTileFormat 0

/-- Whether a whole tile has the form that its frame carries: the type of a partial or of the result, or the size S (R402). -/
def CeOp.formOk (o : CeOp) (f : CeFrame) (t : Tile) : Bool :=
  if f.kind = 0x11 then t.hdr.ty == (if o.dtype = 4 then tyInt32 else tyFp32) && t.hdr.sparsity == 0
  else (o.size == 0 || f.body.length == o.size) && (!o.reduces || (t.hdr.ty == dtypeTy o.dtype && t.hdr.sparsity == 0))

/-- A whole tile arrives: a damaged one is asked for again, one of the wrong form ends the operation. -/
def Wk.ceTileIn (w : Wk) (o : CeOp) (g : Group64) (f : CeFrame) : Wk :=
  match openTile false f.body with
  | .error st => if st = stTileCrc then w.ceBad o g f else w.ceForm o
  | .ok t =>
    if ¬ o.formOk f t then w.ceForm o
    else if f.kind = 0x11 then w.upd (·.onOp o.id fun o => { o with inbox := o.inbox ++ [(f.src, f.index, f.body)] })
    else
      let o := { o with size := f.body.length }
      let w := w.upd (·.onOp o.id fun x => { x with size := f.body.length })
      let st := match w.dev.inst o.inst with | some x => w.dev.checkRange x.job (o.dstAt (o.dstTile g f.index)) o.size true | none => stDenied
      if st ≠ 0 then w.ceRaise o st (o.dstAt (o.dstTile g f.index))
      else if w.dev.mirFull (o.dstAt (o.dstTile g f.index)) o.size then w.upd (·.onOp o.id fun x => { x with early := x.early ++ [f] })
      else (w.ceWrite o (o.dstTile g f.index) f.body).ceTap o g f.index f.body

/-- A PARTIAL or FINAL frame: parts are joined; a tile of the next round, or one that comes before the tile list is
known, is kept. -/
def Wk.ceDataIn (w : Wk) (o : CeOp) (g : Group64) (f : CeFrame) : Wk :=
  let joined : Option CeFrame :=
    if f.parts = 1 then some f
    else
      match o.first.find? fun x => x.kind = f.kind ∧ x.src = f.src ∧ x.index = f.index ∧ x.part ≠ f.part with
      | none => none
      | some x => some { f with parts := 1, part := 0, body := if f.part = 1 then x.body ++ f.body else f.body ++ x.body }
  match joined with
  | none => w.upd (·.onOp o.id fun o => { o with first := o.first ++ [f] })
  | some f =>
    let w := w.upd (·.onOp o.id fun o => { o with first := o.first.filter fun x => ¬ (x.kind = f.kind ∧ x.src = f.src ∧ x.index = f.index) })
    if (o.list.isNone ∧ f.kind = 0x12) ∨ o.used g f then w.upd (·.onOp o.id fun o => { o with early := o.early ++ [f] })
    else w.ceTileIn o g f

/-- Takes up the frames kept for later, then goes on. The first argument bounds how often a verdict may begin a new
round within one event. -/
def Wk.ceAgain : Nat → Wk → Nat → Wk
  | 0, w, _ => w
  | k + 1, w, id =>
    match w.dev.op id with
    | none => w
    | some o =>
      let w := w.upd (·.onOp id fun o => { o with early := [] })
      let w := o.early.foldl
        (fun w f =>
          match w.dev.op id with
          | none => w
          | some o => match w.dev.group o.group with | none => w | some g => w.ceDataIn o g f)
        w
      w.ceProgress id (Wk.ceAgain k)

/-- Rounds that one event can begin. -/
def ceRounds : Nat := 4

/-- Collectives whose tiles waited for a page of the Mirror go on (R476). -/
def Wk.ceResume (w : Wk) : Wk :=
  ((w.dev.ce.ops.filter fun o => ¬ o.exch ∧ ¬ o.left ∧ ¬ o.voted).map (·.id)).foldl (fun w id => Wk.ceAgain ceRounds w id) w

/-! ### Expert sets (R418) -/

/-- The tile list of a union, and the pieces of absent tiles. -/
def CeOp.withUnion (o : CeOp) (g : Group64) (u : List Byte) : CeOp :=
  let es := (List.range o.experts).filter (mapBit u)
  let l := es.flatMap fun e => (List.range o.tpe).map fun k => e * o.tpe + k
  let o := { o with list := some l, union := u, absent := o.experts - es.length }
  let gone := if o.ctype = 0 then (List.range o.c).filter fun p => ¬ l.contains p
              else (List.range (o.pieces g.count g.me)).filter fun p => p ≥ shardLo l.length g.count (g.me + 1) - shardLo l.length g.count g.me
  { o with done := gone }

/-- The stored bytes of a tile, as long as its own header says. -/
def Wk.rdTile (w : Wk) (a : Nat) : List Byte := w.rdN a (32 + 32 * ((storedSectors (w.rdN a 32)).getD 0))

/-- The first SRC tile of a list that fails its CRC or has not the form that R402 asks for: the status of R57 and its address. -/
def Wk.srcFault (w : Wk) (o : CeOp) (js : List Nat) : Option (Nat × Nat) :=
  (js.filterMap fun j =>
    match openTile false (w.rdTile (o.srcAt j)) with
    | .error st => some (st, o.srcAt j)
    | .ok t =>
      if 32 * (1 + t.hdr.sectors) ≠ o.size ∨ (o.reduces ∧ (t.hdr.ty ≠ dtypeTy o.dtype ∨ t.hdr.sparsity ≠ 0)) then
        some (stTileFormat, o.srcAt j)
      else none).head?

/-- The union is known: its tiles are checked, it goes down the tree, and data begins to move. A SRC tile that fails its CRC
now cannot be read again by a re-run (R427): it is damage that stays unrepaired, VERIFY_FAILED (DEDUCED). -/
def Wk.ceUnion (w : Wk) (id : Nat) (u : List Byte) : Wk :=
  match w.dev.op id with
  | none => w
  | some o =>
    match w.dev.group o.group with
    | none => w
    | some g =>
      let o' := o.withUnion g u
      let w := w.upd fun d =>
        (d.onOp id fun _ => o').onCe fun c => { c with bitmaps := c.bitmaps.map fun b => if b.id = id then { b with done := o'.done } else b }
      let w := (g.children g.me).foldl (fun w m => w.ceTell o g m 0x19 u) w
      match w.srcFault o' o'.tiles with
      | some (st, a) => w.ceRaise o (if st = stTileCrc then stVerify else st) a
      | none => w.ceAgain ceRounds id

/-- PRESENCE goes up once every child's bitmap has come; member 0 forms the union. -/
def Wk.cePresence (w : Wk) (id : Nat) : Wk :=
  match w.dev.op id with
  | none => w
  | some o =>
    match w.dev.group o.group with
    | none => w
    | some g =>
      if ¬ o.eset ∨ o.raised ∨ (g.children g.me).any (fun m => ¬ o.presence.any fun p => p.1 = m) then w
      else
        let u := o.presence.foldl (fun u p => mapOr u p.2) o.union
        let w := w.upd (·.onOp id fun o => { o with raised := true })
        if g.me = 0 then w.ceUnion id u else w.ceTell o g ((g.me - 1) / g.fan) 0x18 (u.take (cdiv o.experts 8))

/-- A parity error inside the CE on a tile of an operation: its step is repeated from its inputs, with the same result, at most
3 times; then the tile is voted bad (R416, R427). -/
def Wk.ceParity (w : Wk) (k x : Nat) : Wk :=
  match w.dev.opOf k with
  | none => w
  | some o =>
    if o.exch ∨ o.left ∨ o.voted ∨ o.verified then w
    else
      let n := (aget o.faults x).getD 0
      let w := w.upd fun d =>
        (d.onOp o.id fun o => if n < 3 then { o with faults := aput o.faults x (n + 1) } else { o with bad := o.bad ++ [x] }).count .west
          Reg.TOP_ERR_CORRECTED_LO 1
      if n < 3 then w else w.ceProgress o.id (Wk.ceAgain ceRounds)

/-! ### A frame of the current operation -/

/-- Applies a frame to a COLLECTIVE. One that its member has left takes only a verdict and the withdrawals of its children. -/
def Wk.ceApply (w : Wk) (id : Nat) (f : CeFrame) : Wk :=
  match w.dev.op id with
  | none => w
  | some o =>
    match w.dev.group o.group with
    | none => w
    | some g =>
      let w := w.upd fun d => d.onOp id fun o => { o with heard := d.time }
      match if o.left ∧ f.kind ≠ 0x21 ∧ f.kind ≠ 0x22 then 0 else f.kind with
      | 0x10 =>
        if f.body.take 12 ≠ (o.nb.drop 0x3C).take 12 ∨ fld f.body 12 4 ≠ o.c then
          (w.upd (·.endOps o.inst o.node)).fail o.inst o.node stCollOperand 0
        else (w.upd (·.onOp id fun o => { o with ready := o.ready ++ [f.src] })).ceAgain ceRounds id
      | 0x11 => (w.ceDataIn o g f).ceProgress id (Wk.ceAgain ceRounds)
      | 0x12 => (w.ceDataIn o g f).ceProgress id (Wk.ceAgain ceRounds)
      | 0x13 =>
        (w.upd (·.onOp id fun o => { o with sent := o.sent.filter fun s => ¬ (s.2.1 = f.src ∧ s.2.2 = f.index) })).ceProgress id
          (Wk.ceAgain ceRounds)
      | 0x18 => (w.upd (·.onOp id fun o => { o with presence := o.presence ++ [(f.src, f.body)] })).cePresence id
      | 0x19 => w.ceUnion id (f.body ++ List.replicate (bitmapBytes o.experts - f.body.length) 0)
      | 0x20 => (w.upd (·.onOp id fun o => { o with votes := o.votes ++ [voteOf f.src f.body] })).ceVote id (Wk.ceAgain ceRounds)
      | 0x21 => w.verdict id (fld f.body 0 4) ((chunks 4 (f.body.drop 8)).map ofBytes) (Wk.ceAgain ceRounds)
      | 0x22 =>
        if g.me = 0 then w.verdict id 3 [] (Wk.ceAgain ceRounds) else w.ceTell o g ((g.me - 1) / g.fan) 0x22 []
      | _ => w

/-! ### COLLECTIVE at dispatch (R403 to R405, R414, R415) -/

/-- Whether a COLLECTIVE may dispatch: its group carries nothing, and a bitmap is free when it takes one. Nodes of other
opcodes of the CE need none. -/
def Wk.collFree (w : Wk) (d : Dev) (seq i : Nat) : Bool :=
  match d.inst seq with
  | none => false
  | some x =>
    match w.rdForm x.job x.fn (x.base + 128 * i) 128 with
    | .error _ => true
    | .ok nb => (d.opOf (bits (fld nb 0x3C 4) 8 6)).isNone && (fld nb 0x30 8 == 0 || decide (d.ce.bitmaps.length < 256))

/-- Releases the KERNEL successors of a COLLECTIVE whose bitmap is in place (R415). -/
def Wk.earlyKernels (w : Wk) (seq i id : Nat) : Wk :=
  match w.dev.node seq i with
  | none => w
  | some n =>
    (n.succ.zipIdx.filter fun p => match w.dev.node seq p.1 with | some m => m.opcode = 0x100 | none => false).foldl
      (fun w p =>
        let w := w.upd fun d =>
          (d.onNode seq i fun n => { n with given := n.given ++ [p.2] }).onNode seq p.1 fun m => { m with gates := m.gates ++ [id] }
        w.releaseOne seq p.1)
      w

/-- Whether two ranges overlap. -/
def rangesMeet (a n b m : Nat) : Bool := decide (a < b + m ∧ b < a + n)

/-- What the checks of a COLLECTIVE answer. -/
inductive CollRes where
  | fail (status : Nat)
  | raise (status addr : Nat) (half : Half)
  | param (e : Nat × Nat)
  | ok (g : Group64) (o : CeOp)

/-- The checks of a COLLECTIVE (R400 to R403), and the operation that it starts. -/
def Wk.collCheck (w : Wk) (seq i : Nat) (x : Inst) (nb : List Byte) : CollRes :=
  let k := bits (fld nb 0x3C 4) 8 6
  match w.dev.group k with
  | none => .fail stCollOperand
  | some g =>
    let n := g.count
    let o0 : CeOp :=
      { id := w.dev.ce.nextOp, group := k, inst := seq, node := i, exch := false, seq := g.nextSeq,
        half := if fld nb 0x28 8 = 0 then w.dev.leadHalf else halfOf (fld nb 0x28 8), nb := nb, strict := x.strict, size := 0, list := none,
        experts := 0, absent := 0, presence := [], raised := false, union := [], touched := 0, ready := [], done := [], bad := [], first := [],
        inbox := [], early := [], sent := [], asked := [], round := 1, votes := [], voted := false, heard := w.dev.time, orders := [],
        told := [], tapped := 0, tapFull := false, faults := [], left := false, verified := false }
    let nsrc := o0.srcTiles n g.me
    let live : Bool := w.dev.ce.bitmaps.any fun b => b.job = x.job ∧ b.tag = o0.tag
    if g.job ≠ x.job ∨ ¬ o0.ok g ∨ (o0.tag ≠ 0 ∧ live) then .fail stCollOperand
    else
      let pst := if o0.eset then (w.param x (bits (fld nb 0x40 4) 16 16)).map some else .ok none
      match pst with
      | .error e => .param e
      | .ok p =>
        let badSet : Bool := match p with
          | none => false
          | some p => !p.isSet || p.role == 1 || o0.c != p.experts * o0.tpe
        if badSet then .fail stCollOperand
        else
          let st := if nsrc = 0 then 0 else w.dev.checkRange x.job o0.src 32 false
          if st ≠ 0 then .raise st o0.src o0.half
          else
            let size := if nsrc = 0 then 0 else 32 * (1 + bits (fld (w.rdN o0.src 32) 4 4) 0 16)
            let o := { o0 with size := size, list := if o0.eset then none else some (List.range o0.c),
                               experts := match p with | some p => p.experts | none => 0 }
            let dn := o.pieces n g.me * size
            if nsrc ≠ 0 ∧ o.dst ≠ 0 ∧ rangesMeet o.src (nsrc * size) o.dst dn then .fail stCollOperand
            else
              let s1 := if nsrc = 0 then 0 else w.dev.checkRange x.job o.src (nsrc * size) false
              let s2 := if dn = 0 then 0 else w.dev.checkRange x.job o.dst dn true
              if s1 ≠ 0 then .raise s1 o.src o.half
              else if s2 ≠ 0 then .raise s2 o.dst o.half
              else
                match w.dev.poisonIn o.src (nsrc * size) with
                | some a => .raise stUncorrectable a o.half
                | none =>
                  let fault := if o.eset then none else w.srcFault o (List.range nsrc)
                  let pres := match p with | some p => w.rdLocal x.job p.presence (bitmapBytes p.experts) | none => .ok []
                  let s3 := match p with | some p => w.dev.checkRange x.job p.touched (bitmapBytes p.experts) true | none => 0
                  match fault, pres with
                  | some (st, a), _ => .raise st a o.half
                  | _, .error e => .raise e.1 e.2 o.half
                  | none, .ok u =>
                    if s3 ≠ 0 then .raise s3 (match p with | some p => p.touched | none => 0) o.half
                    else .ok g { o with union := u, touched := match p with | some p => p.touched | none => 0 }

/-- A COLLECTIVE whose checks passed starts: its number, its bitmap, READY frames, and what can move at once. -/
def Wk.collBegin (w : Wk) (seq i : Nat) (x : Inst) (nb : List Byte) (g : Group64) (o : CeOp) : Wk :=
  let k := o.group
  let w := w.upd fun d => d.onCe fun c =>
    { c with ops := c.ops ++ [o], nextOp := o.id + 1, groups := aput c.groups k { g with nextSeq := (g.nextSeq + 1) % 2 ^ 32 },
             bitmaps := if o.tag = 0 then c.bitmaps
                        else c.bitmaps ++ [⟨o.id, x.job, o.tag, seq, o.half, o.pieces g.count g.me, [], false⟩] }
  let guarded : Bool := match w.dev.job x.job with | some j => j.guarded | none => false
  let w := if o.mirror ∧ w.dev.mir.st ≠ 0 ∧ guarded ∧ g.members.contains w.dev.mir.partner then
      w.tapPlan g.fid o.seq o.id o.src o.size o.c
    else w
  let w := (o.sources g).foldl
    (fun w m => w.ceTell o g m 0x10 ((nb.drop 0x3C).take 12 ++ toBytes 4 o.c)) w
  let w := if o.tag = 0 then w else w.earlyKernels seq i o.id
  let w := if o.eset then w.cePresence o.id else w.ceProgress o.id (Wk.ceAgain ceRounds)
  let mine := w.dev.ce.held.filter fun h => h.1 = k ∧ h.2.seq = o.seq
  let w := w.upd fun d => d.onCe fun c => { c with held := c.held.filter fun h => ¬ (h.1 = k ∧ h.2.seq = o.seq) }
  mine.foldl (fun w h => w.ceApply o.id h.2) w

/-- COLLECTIVE at dispatch. -/
def Wk.runCollective (w : Wk) (seq i : Nat) (x : Inst) (nb : List Byte) : Wk :=
  match w.collCheck seq i x nb with
  | .fail st => w.fail seq i st 0
  | .raise st a h => w.raiseStatus seq i st a h
  | .param e => w.paramFails seq i e
  | .ok g o => w.collBegin seq i x nb g o

/-- COLLECTIVE. -/
def execCollective (inst node now : Nat) (s : State) : Host.Outcome State Fault Refusal :=
  finish s <|
    let w := s.start.at_ now
    w.dispatch inst node 0x500 (fun d a b => { w with dev := d }.collFree d a b) false noNull fun w x _ nb => w.runCollective inst node x nb

/-! ### The receiving CE (R399) -/

/-- The group that a MSG names. -/
def Dev.groupOf (d : Dev) (t : Txn) : Option (Nat × Group64) := d.ce.groups.find? fun g => g.2.fid = t.region ∧ g.2.job = t.job

/-- One frame of a MSG; `exch` takes exchange frames. -/
def Wk.ceFrame (w : Wk) (exch : Wk → CeOp → CeFrame → Wk) (k : Nat) (f : CeFrame) : Wk :=
  match w.dev.group k with
  | none => w
  | some g =>
    let stale (w : Wk) : Wk :=
      match w.dev.ce.past.find? fun o => o.group = k ∧ o.seq = f.seq ∧ f.kind = 2 ∧ f.epoch = g.epoch with
      | some o => exch w o f
      | none => w.upd fun d => d.count (match d.opOf k with | some o => o.half | none => d.leadHalf) Reg.CE_STALE_DISCARD_LO 1
    if f.epoch ≠ g.epoch then stale w
    else
      match w.dev.opOf k with
      | some o =>
        if f.seq = o.seq ∧ exchKind f.kind = o.exch then
          (if o.exch then exch (w.upd fun d => d.onOp o.id fun o => { o with heard := d.time }) o f else w.ceApply o.id f)
        else if (f.seq + 2 ^ 32 - g.nextSeq) % 2 ^ 32 < 2 ^ 31 then w.upd fun d => d.onCe fun c => { c with held := c.held ++ [(k, f)] }
        else stale w
      | none =>
        if (f.seq + 2 ^ 32 - g.nextSeq) % 2 ^ 32 < 2 ^ 31 then w.upd fun d => d.onCe fun c => { c with held := c.held ++ [(k, f)] }
        else stale w

/-- The checks of R399 and the frames of a MSG: what it did and the status it is acknowledged with. -/
def Wk.ceMsg (w : Wk) (exch : Wk → CeOp → CeFrame → Wk) (t : Txn) : Wk × Nat :=
  match w.dev.groupOf t with
  | none => (w, stDenied)
  | some (k, g) =>
    if ¬ g.members.contains t.src then (w, stDenied)
    else
      match readFrames 256 t.data with
      | none => (w.upd (·.count .west Reg.TOP_ERR_CORRECTED_LO 1), stParity)
      | some fs =>
        if fs.any fun f => f.epoch > g.epoch then (w, stReformed)
        else (fs.foldl (fun w f => w.ceFrame exch k f) w, stOk)

/-- Handles a MSG with duplicates set aside as for every request, but a MSG answered PARITY is not marked applied. -/
def Wk.ceRequest (w : Wk) (exch : Wk → CeOp → CeFrame → Wk) (p : Nat) (t : Txn) : Wk :=
  let r := w.ceMsg exch t
  let seen : Bool := (w.dev.winFor t.src t.seq).marks.any fun m => m.1 = t.seq
  if ¬ seen ∧ r.2 = stParity then r.1.upd fun d => d.respond (ackTxn t.src d.me t.tc stParity t.seq t.seq t.job)
  else w.request p t fun w => w.ceMsg exch t

/-- Whether a MSG begins with a frame of a kind; one whose first frame is damaged begins with every kind, and so does one that carries
JOB_ID 0 outside the classes of device engines, which is refused (R371). -/
def Txn.startsWith (t : Txn) (kind : Nat) : Bool :=
  t.op == opMsg && (if t.job = 0 then t.tc != 5 && t.tc != 6 else match readFrame t.data with | .frame f _ => f.kind == kind | .bad => true | .none => false)

/-! ### Timers and answers (R399, R419) -/

/-- What an answer to a CE's own MSG brings: GROUP_REFORMED is sent again, a refusal fails the operation's job, a lost
member is reported. -/
def Wk.ceHook (w : Wk) (t : Txn) (status : Nat) : Wk :=
  match w.dev.groupOf t with
  | none => w
  | some (k, g) =>
    match w.dev.opOf k with
    | none => w
    | some o =>
      if status = stOk then w
      else if status = stReformed then
        w.upd fun d => d.onCe fun c => { c with retries := c.retries ++ [⟨k, o.id, t.dest, t.data, t.tc, d.time + 10000⟩] }
      else if status = stMemberLost then w.memberLost o (g.members.idxOf t.dest)
      else
        match w.dev.inst o.inst, w.dev.node o.inst o.node with
        | some x, some n => w.refusedAfter (.node x.job x.tag n.id o.half) t.dest status []
        | _, _ => w

/-- EPOCH_RETRY: frames that met an older epoch are sent again, 10 µs later. -/
def Wk.epochRetry (w : Wk) (k : Nat) : Wk :=
  match w.dev.group k with
  | none => w
  | some g =>
    let due := w.dev.ce.retries.filter fun r => r.group = k ∧ r.due ≤ w.dev.time
    let w := w.upd fun d => d.onCe fun c => { c with retries := c.retries.filter fun r => ¬ (r.group = k ∧ r.due ≤ d.time) }
    due.foldl
      (fun w r =>
        match w.dev.op r.op with
        | none => w
        | some o =>
          if fld r.data 0 4 ≠ g.epoch ∨ ¬ w.dev.reachable r.dest then w
          else w.upd fun d =>
            ((d.holdReq (d.msgTxn g r.dest r.tc r.data) (.engine o.half)).count o.half Reg.CE_EPOCH_RETRY_LO 1).count o.half
              Reg.CE_BYTES_SENT_LO r.data.length)
      w

/-- EPOCH_RETRY. -/
def execEpochRetry (group now : Nat) (s : State) : Host.Outcome State Fault Refusal := finish s ((s.start.at_ now).epochRetry group)

/-- COLL_TIMEOUT: no frame for COLL_MS. -/
def Wk.collTimeout (w : Wk) (k : Nat) : Wk :=
  match w.dev.opOf k, w.dev.group k with
  | some o, some g =>
    if o.verified ∨ w.dev.time < o.heard + 1000000 * w.dev.rn w.dev.leadHalf Reg.CE_TIMEOUT then w
    else
      let dumb := (w.dev.efu.fetches.find? fun f => f.op = some o.id).map fun f =>
        (List.range g.count).filter fun m => m ≠ g.me ∧ ¬ f.demands.any fun p => p.1 = m
      let m := if o.exch then ((dumb.getD []).head?).getD (if g.me = 0 then 1 else 0) else (((o.sources g) ++ g.children g.me ++ (if g.me = 0 then [] else [(g.me - 1) / g.fan])).head?).getD 0
      if o.left then w.ceEnd o.id stMemberLost m else (w.memberLost o m).ceEnd o.id stMemberLost m
  | _, _ => w

/-- COLL_TIMEOUT. -/
def execCollTimeout (group now : Nat) (s : State) : Host.Outcome State Fault Refusal := finish s ((s.start.at_ now).collTimeout group)

/-! ### The group table (R397) -/

/-- Sets CE_GROUP_STATUS. -/
def Dev.groupResult (d : Dev) (r : Nat) : Dev := d.setReg d.leadHalf Reg.CE_GROUP_STATUS (w32 (r * 2 ^ 28))

/-- The entry words of CE_GROUP_WORDw. -/
def Dev.groupWord (d : Dev) (k : Nat) : Nat := d.rn d.leadHalf (Reg.CE_GROUP_WORD + 4 * k)

/-- INSTALL. -/
def Dev.groupInstall (d : Dev) (k : Nat) : Dev :=
  let w3 := d.groupWord 3
  let w4 := d.groupWord 4
  let n := bits w3 0 14 + 1
  let self := bits w3 16 14
  let fid := bits (d.groupWord 0) 0 18
  let job := bits (d.groupWord 1) 0 20
  let words := (List.range n).map fun i => (aget d.ce.spare (k, i)).getD 0
  let members := words.map fun x => x % 2 ^ 18
  if (d.group k).isSome then d.groupResult 3
  else if d.ce.groups.any fun g => g.2.fid = fid then d.groupResult 3
  else if (d.job job).isNone ∨ self ≥ n ∨ nth members self 0 ≠ d.me ∨ words.any (fun x => ¬ bit x 31) ∨ ¬ members.Nodup then d.groupResult 4
  else
    let g : Group64 := { fid := fid, job := job, epoch := d.groupWord 2, me := self, tapMember := bits w4 16 14, tapOn := bit w4 15,
                         fan := bits w4 8 4 + 2, weight := bits w4 0 6, members := members, nextSeq := 0 }
    ((d.onCe fun c => { c with groups := aput c.groups k g, spare := c.spare.filter fun s => s.1.1 ≠ k }).setupChanged).groupResult 1

/-- REFORM: EPOCH rises, a member is dropped, and the operation in flight ends GROUP_REFORMED (R420). -/
def Wk.groupReform (w : Wk) (k : Nat) : Wk :=
  match w.dev.group k with
  | none => w.upd (·.groupResult 5)
  | some g =>
    let drop := bits (w.dev.groupWord 5) 0 14
    if drop ≥ g.count ∨ drop = g.me then w.upd (·.groupResult 4)
    else
      let w := match w.dev.opOf k with | some o => w.ceEnd o.id stReformed 0 | none => w
      w.upd fun d =>
        ((d.onCe fun c =>
          { c with groups := aput c.groups k { g with epoch := (g.epoch + 1) % 2 ^ 32, members := g.members.eraseIdx drop,
                                                      me := if drop < g.me then g.me - 1 else g.me,
                                                      nextSeq := match aget c.groups k with | some x => x.nextSeq | none => 0 },
                   retries := c.retries.filter fun r => r.group ≠ k,
                   held := c.held.filter fun h => h.1 ≠ k }).setupChanged).groupResult 1

/-- REMOVE. -/
def Dev.groupRemove (d : Dev) (k : Nat) : Dev :=
  if (d.group k).isNone then d.groupResult 5
  else if (d.opOf k).isSome then d.groupResult 2
  else ((d.onCe fun c => { c with groups := adel c.groups k, held := c.held.filter fun h => h.1 ≠ k }).setupChanged).groupResult 1

/-- The words of an entry. -/
def Group64.words (g : Group64) : List Nat :=
  [2 ^ 31 + g.fid, g.job, g.epoch, g.me * 2 ^ 16 + (g.count - 1), g.tapMember * 2 ^ 16 + b2n g.tapOn * 2 ^ 15 + (g.fan - 2) * 2 ^ 8 + g.weight,
   0, 0, 0]

/-- LOOKUP. -/
def Dev.groupLookup (d : Dev) (k : Nat) : Dev :=
  match d.group k with
  | none => d.groupResult 5
  | some g => ((g.words.zipIdx).foldl (fun d p => d.setReg d.leadHalf (Reg.CE_GROUP_WORD + 4 * p.2) (w32 p.1)) d).groupResult 1

/-- A write of CE_GROUP_CTL. -/
def Wk.groupCtl (w : Wk) (v : Nat) : Wk :=
  let k := w.dev.rn w.dev.leadHalf Reg.CE_GROUP_SEL % 64
  match v % 4 with
  | 0 => w.upd (·.groupInstall k)
  | 1 => w.groupReform k
  | 2 => w.upd (·.groupRemove k)
  | _ => w.upd (·.groupLookup k)

/-- A write of CE_MEMBER_DATA: the word is stored at CE_MEMBER_INDEX, which advances. -/
def Dev.memberWrite (d : Dev) (v : Nat) : Dev :=
  let k := d.rn d.leadHalf Reg.CE_GROUP_SEL % 64
  let i := d.rn d.leadHalf Reg.CE_MEMBER_INDEX % 16384
  if (d.group k).isSome then d
  else
    (d.onCe fun c => { c with spare := aput c.spare (k, i) (bits v 31 1 * 2 ^ 31 + bits v 0 18) }).setReg d.leadHalf Reg.CE_MEMBER_INDEX
      (w32 ((i + 1) % 16384))

/-- What CE_MEMBER_DATA reads. -/
def Dev.memberRead (d : Dev) : Nat :=
  let k := d.rn d.leadHalf Reg.CE_GROUP_SEL % 64
  let i := d.rn d.leadHalf Reg.CE_MEMBER_INDEX % 16384
  match d.group k with
  | some g => if i < g.count then 2 ^ 31 + nth g.members i 0 else 0
  | none => (aget d.ce.spare (k, i)).getD 0

end Sys2Proof.Machine
end

