-- ==== Sys2Proof/Machine/Ecc.lean ====
section
/-! DEFINITION. The Reed–Solomon code of a stack access and the map of stack addresses (R241, R243). -/

namespace Sys2Proof.Machine

open Sys2Proof

/-! ### GF(2^16) -/

/-- A symbol of the code: a field element. -/
abbrev Sym := BitVec 16

/-- Multiplication by α, a root of x^16 + x^12 + x^3 + x + 1. -/
def gfX (a : Sym) : Sym := if a.msb then (a <<< 1) ^^^ 0x100B else a <<< 1

/-- Multiplication. -/
def gfMul (a b : Sym) : Sym :=
  (List.range 16).foldl (fun acc i => if b.getLsbD (15 - i) then gfX acc ^^^ a else gfX acc) 0

/-- α to a power. -/
def gfPow : Nat → Sym
  | 0 => 1
  | n + 1 => gfX (gfPow n)

/-! ### The code (R243) -/

/-- Data symbols of an access: symbol i is bytes 2i and 2i + 1, little-endian. -/
def rsData (bs : List (BitVec 8)) : List Sym :=
  (List.range 32).map fun i => (bs[2 * i + 1]?.getD 0).append (bs[2 * i]?.getD 0)

/-- The four coefficients below the leading one of the generator, whose roots are α^0 to α^3, highest first. -/
def rsGen : List Sym :=
  ((List.range 4).foldl
    (fun (g : List Sym) j => ((g ++ [0]).zip (0 :: g)).map fun (p : Sym × Sym) => p.1 ^^^ gfMul p.2 (gfPow j))
    [1]).drop 1

/-- The four check symbols of data symbols: the remainder of the division by the generator. -/
def rsCheck (data : List Sym) : List Sym :=
  data.foldl
    (fun (r : List Sym) (x : Sym) => ((r.drop 1 ++ [0]).zip rsGen).map fun (p : Sym × Sym) => p.1 ^^^ gfMul (x ^^^ (r.headD 0)) p.2)
    [0, 0, 0, 0]

/-- Errors of data symbols 0 to 31 and of check symbols 0 to 3 as errors of the code word's 36 symbols. -/
def rsErrs (data check : List (Nat × Sym)) : List (Nat × Sym) := data ++ check.map fun e => (32 + e.1, e.2)

/-- Syndromes at α^0 to α^3 of errors given as (symbol, difference): symbols 0 to 31 are data, 32 to 35 are check symbols,
and symbol i is the coefficient of x^(35 − i) (DESIGN CHOICE: the spec does not order them; no verdict on one or two errors
depends on it). -/
def rsSyndromes (errs : List (Nat × Sym)) : List Sym :=
  (List.range 4).map fun j =>
    errs.foldl (fun s e => if e.1 < 36 then s ^^^ gfMul e.2 (gfPow (j * (35 - e.1))) else s) 0

/-- What the controller finds in an access. -/
inductive RsRead where
  | clean
  | fixed (sym : Nat) (diff : Sym)
  | bad
  deriving DecidableEq, Repr

/-- The decoder: no error, one symbol that explains every syndrome, or an access that cannot be corrected. -/
def rsDecode (s : List Sym) : RsRead :=
  let x (j : Nat) : Sym := s[j]?.getD 0
  if (List.range 4).all fun j => x j == 0 then .clean
  else if x 0 = 0 then .bad
  else
    match (List.range 36).find? fun i =>
      let p := gfPow (35 - i)
      x 1 == gfMul (x 0) p && x 2 == gfMul (x 1) p && x 3 == gfMul (x 2) p with
    | some i => .fixed i (x 0)
    | none => .bad

/-- What an access with some symbol errors is found to be: the code is linear, so the data do not matter. -/
def rsRead (errs : List (Nat × Sym)) : RsRead := rsDecode (rsSyndromes errs)

/-- Whether errors and a correction leave every data symbol as it was written. -/
def rsWhole (errs : List (Nat × Sym)) : Bool :=
  let all := match rsRead errs with | .fixed i v => errs ++ [(i, v)] | _ => errs
  (List.range 32).all fun i => all.foldl (fun s e => if e.1 = i then s ^^^ e.2 else s) 0 == 0

/-! ### The address map (R241) -/

/-- Where a stack address lies. -/
structure StackPlace where
  stack : Nat        -- 0 to 7 west, 8 to 15 east
  pch : Nat          -- pseudo-channel in the stack, 0 to 63
  index : Nat        -- device pseudo-channel, 0 to 1,023
  rowCol : Nat
  byte : Nat         -- in the 256-byte granule
  deriving DecidableEq, Repr

/-- The place of a stack address. -/
def placeStack (a : Nat) : StackPlace :=
  let half := bits a 40 1
  let g := bits a 8 32
  let pcBit (i : Nat) : Nat :=
    (bits g i 1 + bits g (i + 9) 1 + bits g (i + 18) 1 + (if i ≤ 4 then bits g (i + 27) 1 else 0)) % 2 * 2 ^ i
  let pc := (List.range 9).foldl (fun s i => s + pcBit i) 0
  { stack := 8 * half + pc % 8, pch := pc / 8, index := 512 * half + pc, rowCol := g / 2 ^ 9, byte := a % 256 }

end Sys2Proof.Machine
end

