-- ==== Sys2Proof/Machine/FabTable.lean ====
section
/-! DEFINITION. Region, route, reader and remote-access registers of the FAB block, and port set-up (R349, R367 to R372,
R377, R387, R388, R393). -/

namespace Sys2Proof.Machine

open Sys2Proof

/-- Bytes of a client's region spans: all of them (T3), or those that L4 reaches (T4) (R250, R369). -/
def Dev.spanUsed (d : Dev) (c : Nat) (far : Bool) : Nat :=
  sumBy (d.fab.regions.filter fun e => e.client = c ∧ (¬ far ∨ e.reach = 1)) (·.span)

/-- Limit of a client's T3 or T4 charge, in bytes (R271). -/
def Dev.spanLimit (d : Dev) (c : Nat) (far : Bool) : Nat :=
  d.rn d.leadHalf (Reg.MEM_QUOTA_T1 + (if far then 12 else 8) + 16 * c) * 65536

/-- Whether a span lies in one half's T2 pool space or managed T1, with its base aligned (R367). -/
def spanOk (base span : Nat) : Bool :=
  isLocal base && span % 4096 == 0 && decide (4096 ≤ span ∧ span ≤ 0xFFFFFFF000)
    && (if isSram base then
          let b := tierBase (halfOf base) true
          base % 4096 == 0 && decide (b ≤ base ∧ base + span ≤ b + 0x1B000000)
        else
          let b := tierBase (halfOf base) false
          base % 65536 == 0 && decide (b ≤ base ∧ base + span ≤ b + 1020 * 2 ^ 30))

/-- The eight words of FAB_REGION_WORD. -/
def Dev.regionWords (d : Dev) : List Nat := (List.range 8).map fun k => d.rn d.leadHalf (Reg.FAB_REGION_WORD + 4 * k)

/-- The entry that eight words spell. -/
def regionOfWords (ws : List Nat) : Region :=
  let f (i : Nat) : Nat := nth ws i 0
  { base := f 0 + f 1 * 2 ^ 32, span := f 2 + f 3 % 256 * 2 ^ 32, mode := bits (f 4) 30 2, a := bit (f 4) 29, w := bit (f 4) 28,
    r := bit (f 4) 27, inv := bit (f 4) 26, reach := bits (f 4) 24 2, client := bits (f 4) 18 6, owner := bits (f 4) 0 18,
    job := bits (f 5) 0 20, readers := bits (f 6) 18 14, id := bits (f 6) 0 18 }

/-- The eight words of an entry. -/
def Region.words (e : Region) : List Nat :=
  [e.base % 2 ^ 32, e.base / 2 ^ 32, e.span % 2 ^ 32, e.span / 2 ^ 32,
   e.mode * 2 ^ 30 + b2n e.a * 2 ^ 29 + b2n e.w * 2 ^ 28 + b2n e.r * 2 ^ 27 + b2n e.inv * 2 ^ 26 + e.reach * 2 ^ 24
     + e.client * 2 ^ 18 + e.owner, e.job, e.readers * 2 ^ 18 + e.id, 0]

/-- Sets RESULT of FAB_REGION_STATUS. -/
def Dev.regionResult (d : Dev) (r : Nat) : Dev :=
  d.setReg d.leadHalf Reg.FAB_REGION_STATUS (w32 (r * 2 ^ 28 + d.fab.regions.length))

/-- INSTALL (R369). JOB_ID 0 names system regions, which no client installs: REFUSED_INVALID. -/
def Dev.regionInstall (d : Dev) : Dev :=
  let ws := d.regionWords
  let e := regionOfWords ws
  let reserved : Bool := nth ws 3 0 / 256 != 0 || nth ws 5 0 / 2 ^ 20 != 0 || nth ws 7 0 != 0
  if reserved ∨ e.mode > 1 ∨ e.reach > 1 ∨ e.job = 0 ∨ (e.mode = 1 ∧ (e.owner ≠ 0 ∨ e.readers ≠ 0)) ∨ ¬ spanOk e.base e.span then
    d.regionResult 5
  else if (d.regionOf e.job e.id).isSome then d.regionResult 2
  else if d.fab.regions.length ≥ 262144 then d.regionResult 3
  else if d.spanUsed e.client false + e.span > d.spanLimit e.client false
      ∨ (e.reach = 1 ∧ d.spanUsed e.client true + e.span > d.spanLimit e.client true) then d.regionResult 4
  else (d.onFab fun f => { f with regions := f.regions ++ [e] }).setupChanged.regionResult 1

/-- Takes an entry out, and its ordered-add entries (R362, R369). -/
def Dev.regionDrop (d : Dev) (e : Region) : Dev :=
  (d.onFab fun f => { f with regions := f.regions.filter fun x => x ≠ e,
                             ords := f.ords.filter fun o => ¬ (o.2.job = e.job ∧ o.2.region = e.id) }).setupChanged

/-- Transactions with nothing of their class and channel before them. -/
def frontTxns : List Txn → List Nat → List Txn
  | [], _ => []
  | t :: l, seen => if seen.contains t.chan then frontTxns l seen else t :: frontTxns l (t.chan :: seen)

/-- Source and SEQ of the writes into a region that have been translated and wait for a copy-back (R327, R368). -/
def Dev.writesIn (d : Dev) (e : Region) : List (Nat × Nat) :=
  let into (t : Txn) : Bool :=
    (t.op == opWrite || t.op == opAtomic || (t.op == opBulk && !bit t.len 7)) && t.job == e.job && t.region == e.id && d.mustWait t
  (d.fab.loop :: d.fab.ports.map (·.2.arrived)).flatMap fun l => ((frontTxns l []).filter into).map fun t => (t.src, t.seq)

/-- REMOVE: later requests find no entry. RESULT is PENDING while a request translated through the entry is still being applied: a write
that waits for a copy-back, or an INVALIDATE that waits for its readers (R369, R393). -/
def Dev.regionRemove (d : Dev) : Dev :=
  let e := regionOfWords d.regionWords
  match d.regionOf e.job e.id with
  | none => d.regionResult 6
  | some x =>
    let ws := d.writesIn x
    if ws.isEmpty ∧ ¬ d.fab.homes.any (fun h => h.job = x.job ∧ h.region = x.id) then (d.regionDrop x).regionResult 1
    else ((d.regionDrop x).onFab fun f => { f with leaving := f.leaving ++ [⟨x, ws⟩] }).regionResult 7

/-- LOOKUP. -/
def Dev.regionLookup (d : Dev) : Dev :=
  let e := regionOfWords d.regionWords
  match d.regionOf e.job e.id with
  | none => d.regionResult 6
  | some x =>
    ((List.range 8).foldl (fun d k => d.setReg d.leadHalf (Reg.FAB_REGION_WORD + 4 * k) (w32 (nth x.words k 0))) d).regionResult 1

/-- A write to FAB_REGION_CTL. -/
def Dev.regionCtl (d : Dev) (v : Nat) : Dev :=
  if v % 4 = 1 then d.regionInstall else if v % 4 = 2 then d.regionRemove else if v % 4 = 3 then d.regionLookup else d

/-- A write to FAB_ROUTE_ENTRY_HI, with the low word it latches: the entry is applied with reserved bits cleared. -/
def Dev.routeWrite (d : Dev) (lo hi : Nat) : Dev :=
  let dest := d.rn d.leadHalf Reg.FAB_ROUTE_DEST % 2 ^ 18
  let v := bits hi 30 2 * 2 ^ 62 + bits lo 0 24
  let d := if d.route dest = v then d else
    (d.onFab fun f => { f with routes := if v = 0 then adel f.routes dest else aput f.routes dest v }).setupChanged
  d.pump dest

/-- A write to FAB_SETUP_HASH_HI: VALID follows whether the hash is non-zero (R388). -/
def Dev.setupHashWrite (d : Dev) (lo hi : Nat) : Dev :=
  let h := d.leadHalf
  ((d.setReg h Reg.FAB_SETUP_HASH_LO (w32 lo)).setReg h Reg.FAB_SETUP_HASH_HI (w32 hi)).setReg h Reg.FAB_SETUP_STATUS
    (w32 (b2n (lo != 0 || hi != 0)))

/-- Set and member that FAB_READER_SEL selects. -/
def Dev.readerSel (d : Dev) : Nat × Nat :=
  let v := d.rn d.leadHalf Reg.FAB_READER_SEL
  (bits v 16 14, bits v 0 6)

/-- Clears the reserved bits of a member (R377). -/
def cleanMember (m : Nat) : Nat :=
  bits m 31 1 * 2 ^ 31 + bits m 0 18 + bits m 32 20 * 2 ^ 32 + bits m 64 40 * 2 ^ 64 + bits m 110 18 * 2 ^ 110

/-- A write to FAB_READER_CTL. Reader set 0 does not exist. -/
def Dev.readerCtl (d : Dev) (v : Nat) : Dev :=
  let k := d.readerSel
  let h := d.leadHalf
  if k.1 = 0 then d
  else if v % 4 = 1 then
    let m := cleanMember (sumBy (List.range 4) fun i => d.rn h (Reg.FAB_READER_WORD + 4 * i) * 2 ^ (32 * i))
    (d.onFab fun f => { f with readers := if m = 0 then adel f.readers k else aput f.readers k m }).setupChanged
  else if v % 4 = 2 then (d.onFab fun f => { f with readers := adel f.readers k }).setupChanged
  else if v % 4 = 3 then
    let m := (aget d.fab.readers k).getD 0
    (List.range 4).foldl (fun d i => d.setReg h (Reg.FAB_READER_WORD + 4 * i) (w32 (m / 2 ^ (32 * i)))) d
  else d

/-- Sets a job's remote access; nodes that waited for it may dispatch again (R186, R387). -/
def Dev.setRemote (d : Dev) (job : Nat) (on : Bool) : Dev :=
  match d.job job with
  | none => d
  | some j =>
    let d := d.setJob job { j with remote := on }
    if ¬ on then d
    else
      d.onTgu fun t => { t with insts := t.insts.map fun p =>
        if p.2.job = job then (p.1, { p.2 with nodes := p.2.nodes.map fun n => { n with remoteOff := false } }) else p }

/-- A write to FAB_REMOTE_CTL. -/
def Dev.remoteCtl (d : Dev) (v : Nat) : Dev :=
  let h := d.leadHalf
  let job := d.rn h Reg.FAB_REMOTE_JOB % 2 ^ 20
  if v % 4 = 1 ∨ v % 4 = 2 then
    if (d.job job).isNone then d.setReg h Reg.FAB_REMOTE_STATUS 3
    else (d.setRemote job (v % 4 = 1)).setReg h Reg.FAB_REMOTE_STATUS (w32 (v % 4))
  else d

/-- Whether the two ports of a block may take new BIFURCATE, ENCRYPT or TX_PRESET (R349). -/
def Dev.blockIdle (d : Dev) (b : Nat) : Bool :=
  [2 * b, 2 * b + 1].all fun p =>
    ¬ d.portExists p || [PortSt.disabled, PortSt.down, PortSt.failed].contains (d.fport p).st

/-- A port that no flit has reached, in the state that its block's set-up gives it. -/
def FPort.fresh (on : Bool) : FPort := { FPort.cold with st := if on then .down else .disabled }

/-- A port follows its block's set-up: DISABLED while ENABLE is 0, DOWN again once it is 1, but REFUSED_REVISION, which ends with a
full maintenance stop alone (R350). A port that does not exist has no state of its own. -/
def Wk.portEnable (w : Wk) (p : Nat) : Wk :=
  let x := w.dev.fport p
  let on := bit (w.dev.portCfg p) 31
  if ¬ w.dev.portExists p then w.upd (·.setPort p (.fresh on))
  else if ¬ on then
    if x.st = .disabled then w
    else (w.portTo p .disabled).upd fun d => d.setPort p { FPort.cold with st := .disabled, arrived := x.arrived, refused := x.refused }
  else if x.st = .disabled then w.portTo p (if x.refused then .refusedRevision else .down)
  else w

/-- A write to FAB_PORT_CFG of block `b`, 0 to 31. The states that the old set-up gave its ports stand until each follows the new. -/
def Wk.portCfgWrite (w : Wk) (b v : Nat) : Wk :=
  let off := Reg.FAB_PORT_CFG + 4 * (b % 16)
  let h := Half.ofCode (b / 16)
  let old := w.dev.rn h off
  let keep := bits old 0 31
  let new := if w.dev.blockIdle b then b2n (bit v 30) * 2 ^ 30 + b2n (bit v 29) * 2 ^ 29 + bits v 16 8 * 2 ^ 16 else keep
  let w := w.upd fun d => (d.setPort (2 * b) (d.fport (2 * b))).setPort (2 * b + 1) (d.fport (2 * b + 1))
  let w := w.upd (·.setReg h off (w32 (b2n (bit v 31) * 2 ^ 31 + new)))
  (w.portEnable (2 * b)).portEnable (2 * b + 1)

end Sys2Proof.Machine
end

