-- ==== Sys2Proof/Machine/FabLink.lean ====
section
/-! DEFINITION. Commands of the Solbite link and receiver: flits, port training, device time, requests that arrive, and
the timers of chapter 11. -/

namespace Sys2Proof.Machine

open Sys2Proof

/-! ### Flits and ports -/

/-- DATA_FLIT. `seq` is the flit's number in the sender's order; on a keyed link `flit` is its plaintext. -/
def execDataFlit (port seq : Nat) (flit : List Byte) (now : Nat) (s : State) : Host.Outcome State Fault Refusal :=
  finish s ((s.start.at_ now).dataFlit port seq flit)

/-- NAK. -/
def execNak (port : Nat) (flit : List Byte) (now : Nat) (s : State) : Host.Outcome State Fault Refusal :=
  finish s ((s.start.at_ now).nakFlit port flit)

/-- INIT. -/
def execInitFlit (port seq : Nat) (flit : List Byte) (now : Nat) (s : State) : Host.Outcome State Fault Refusal :=
  finish s ((s.start.at_ now).initFlit port seq flit)

/-- MAC. `tagOk` is the verdict of AES-256-GCM over the group. -/
def execMacFlit (port seq : Nat) (flit : List Byte) (tagOk : Bool) (now : Nat) (s : State) : Host.Outcome State Fault Refusal :=
  finish s ((s.start.at_ now).macFlit port seq flit tagOk)

/-- CREDIT. -/
def execCredit (port seq : Nat) (flit : List Byte) (now : Nat) (s : State) : Host.Outcome State Fault Refusal :=
  finish s ((s.start.at_ now).creditFlit port seq flit)

/-- NULL: a word of the stream that fills a flit. The parser of `Wk.parsePort` passes over it. -/
def execNullWord (port now : Nat) (s : State) : Host.Outcome State Fault Refusal :=
  finish s ((s.start.at_ now).parsePort port)

/-- LINK_DOWN. -/
def execLinkDown (port now : Nat) (s : State) : Host.Outcome State Fault Refusal := finish s ((s.start.at_ now).linkDown port)

/-- PORT_TRAINING_START. -/
def execPortTrainingStart (port now : Nat) (s : State) : Host.Outcome State Fault Refusal :=
  finish s ((s.start.at_ now).trainStart port)

/-- PORT_TRAINING_END. -/
def execPortTrainingEnd (port : Nat) (ok : Bool) (now : Nat) (s : State) : Host.Outcome State Fault Refusal :=
  finish s ((s.start.at_ now).trainEnd port ok)

/-! ### Device time (R392) -/

/-- MASTER and UPSTREAM of FAB_TIME_CFG, of the lead half. -/
def Dev.timeCfg (d : Dev) : Bool × Nat :=
  let v := d.rn d.leadHalf Reg.FAB_TIME_CFG
  (bit v 31, bits v 0 6)

/-- Sends a TIME flit that echoes the last one received. A full replay buffer keeps it back: no TIME flit waits (DESIGN CHOICE). -/
def Dev.sendTime (d : Dev) (p : Nat) : Dev :=
  let e := ((d.fport p).timeRecv).getD (0, 0)
  if d.replayRoom p = 0 then d
  else d.sendFlit p (some 4) (toBytes 8 d.time ++ toBytes 8 e.1 ++ toBytes 8 e.2 ++ toBytes 1 (b2n d.timeCfg.1)) []

/-- Takes an offset to a time source: set once before READY, slewed afterwards (R392, R494). -/
def Dev.takeOffset (d : Dev) (off : Int) : Dev :=
  if ¬ d.top.ready ∧ ¬ d.top.timeSet then
    { d with time := ((d.time : Int) + off).toNat, top := { d.top with timeSet := true } }
  else d.onTop fun t => { t with slew := off }

/-- A TIME flit arrives. From the upstream port it measures offset and delay; on any other port it is answered. -/
def Wk.timeFlit (w : Wk) (p seq : Nat) (flit : List Byte) : Wk :=
  w.onFlit p seq (some 4) flit fun w pl =>
    let f (o : Nat) : Nat := ofBytes ((pl.drop o).take 8)
    let t4 := w.dev.time
    let x := { w.dev.fport p with timeRecv := some (f 0, t4) }
    let w := w.upd (·.setPort p x)
    if ¬ w.dev.timeCfg.1 ∧ w.dev.timeCfg.2 = p then
      if f 8 = 0 then w
      else
        let t1 : Int := f 8
        let t2 : Int := f 16
        let t3 : Int := f 0
        let delay := ((t4 - t1) - (t3 - t2)) / 2
        w.upd (·.takeOffset (t3 + delay - t4))
    else if x.st = .up then w.upd (·.sendTime p) else w

/-- TIME. -/
def execTimeFlit (port seq : Nat) (flit : List Byte) (now : Nat) (s : State) : Host.Outcome State Fault Refusal :=
  finish s ((s.start.at_ now).timeFlit port seq flit)

/-- TIME_EXCHANGE: a follower sends a TIME flit on its upstream port. -/
def execTimeExchange (now : Nat) (s : State) : Host.Outcome State Fault Refusal :=
  onDev s fun d =>
    let d := d.at_ now
    if ¬ d.timeCfg.1 ∧ (d.fport d.timeCfg.2).st = .up then d.sendTime d.timeCfg.2 else d

/-! ### Requests that arrive -/

/-- READ: a read or a probe. -/
def execReadTx (port now : Nat) (s : State) : Host.Outcome State Fault Refusal :=
  finish s ((s.start.at_ now).onTxn port (·.op == opRead) fun w t => w.serveRead port t)

/-- Handles a write that a copy-back does not hold up (R327). -/
def Wk.onWrite (w : Wk) (p : Nat) (kind : Txn → Bool) (f : Wk → Txn → Wk) : Wk :=
  match w.dev.arrivedTxn p kind with
  | none => w
  | some t => if w.dev.mustWait t then w else w.onTxn p kind f

/-- WRITE. -/
def execWriteTx (port now : Nat) (s : State) : Host.Outcome State Fault Refusal :=
  finish s ((s.start.at_ now).onWrite port (·.op == opWrite) fun w t => w.serveWrite port t)

/-- ATOMIC. -/
def execAtomic (port now : Nat) (s : State) : Host.Outcome State Fault Refusal :=
  finish s ((s.start.at_ now).onWrite port (·.op == opAtomic) fun w t => w.serveAtomic port t)

/-- BULK: a segment that writes, or a GET. -/
def execBulk (port now : Nat) (s : State) : Host.Outcome State Fault Refusal :=
  finish s <|
    let w := s.start.at_ now
    match w.dev.arrivedTxn port (·.op == opBulk) with
    | some t =>
      if bit t.len 7 then w.onTxn port (·.op == opBulk) fun w t => w.serveRead port t
      else w.onWrite port (·.op == opBulk) fun w t => w.serveBulk port t
    | none => w

/-- FAB_INVALIDATE: at the home device. -/
def execFabInvalidate (port now : Nat) (s : State) : Host.Outcome State Fault Refusal :=
  finish s ((s.start.at_ now).onTxn port (fun t => t.op == opInv && !bit t.len 1) fun w t => w.serveInvalidate port t)

/-- FAB_INVALIDATE_DELIVER: at a reader. -/
def execFabInvalidateDeliver (port now : Nat) (s : State) : Host.Outcome State Fault Refusal :=
  finish s ((s.start.at_ now).onTxn port (fun t => t.op == opInv && bit t.len 1) fun w t => w.serveDeliver port t)

/-- FAB_FENCE: at the destination. -/
def execFabFence (port now : Nat) (s : State) : Host.Outcome State Fault Refusal :=
  finish s ((s.start.at_ now).onTxn port (·.op == opFence) fun w t => w.serveFence t)

/-! ### Timers -/

/-- ACK_COALESCE. -/
def execAckCoalesce (src now : Nat) (s : State) : Host.Outcome State Fault Refusal := onDev s fun d => (d.at_ now).coalesce src

/-- PATH_TIMEOUT. -/
def execPathTimeout (dest slot now : Nat) (s : State) : Host.Outcome State Fault Refusal :=
  onDev s fun d => (d.at_ now).pathTimeout dest slot

/-- SLOT_REVIVE. -/
def execSlotRevive (dest slot now : Nat) (s : State) : Host.Outcome State Fault Refusal :=
  onDev s fun d => (d.at_ now).slotRevive dest slot

/-- WINDOW_EXPIRY. -/
def execWindowExpiry (src now : Nat) (s : State) : Host.Outcome State Fault Refusal := onDev s fun d => (d.at_ now).windowExpiry src

end Sys2Proof.Machine
end

