-- ==== Sys2Proof/Machine/EfuCore.lean ====
section
/-! DEFINITION. Expert-table entries, sources and streams (R59 to R62, R105 to R107). -/

namespace Sys2Proof.Machine

open Sys2Proof

/-- Status FETCH_OPERAND. -/
def stFetch : Nat := 0x34

/-- Replaces the state of the EFUs. -/
def Dev.onEfu (d : Dev) (f : Efu → Efu) : Dev := { d with efu := f d.efu }

/-- The record of a FETCH_EXPERTS. -/
def Dev.fetch (d : Dev) (seq i : Nat) : Option Fetch := d.efu.fetches.find? fun f => f.seq = seq ∧ f.node = i

/-- Changes the record of a FETCH_EXPERTS. -/
def Dev.onFetch (d : Dev) (seq i : Nat) (g : Fetch → Fetch) : Dev :=
  d.onEfu fun e => { e with fetches := e.fetches.map fun f => if f.seq = seq ∧ f.node = i then g f else f }

/-- Reads the bytes of an entry (R60). -/
def entryOf (b : List Byte) : Entry :=
  let t := fld b 0xC 4
  let m := fld b 0x14 4
  { loc := fld b 0 8, secs := fld b 8 4, ty := t / 2 ^ 24, tiles := t % 2 ^ 24, dense := fld b 0x10 4, sparsity := bits m 30 2,
    mats := bits m 26 4, dev := m % 2 ^ 18, crc := fld b 0x1C 4 }

/-- Whether an entry is well formed. -/
def entryOk (b : List Byte) : Bool :=
  let e := entryOf b
  let m := fld b 0x14 4
  decide (1 ≤ e.secs ∧ 1 ≤ e.tiles ∧ e.sparsity ≤ 2 ∧ 1 ≤ e.mats ∧ e.mats ≤ 4) && tyOk e.ty && bits m 18 8 == 0 && bits (fld b 0x18 4) 16 16 == 0

/-- Reads the entry of an expert: one 32-byte read (R62), CRC first. -/
def Wk.entry (w : Wk) (job base e : Nat) : Except (Nat × Nat) Entry :=
  match w.rdLocal job (base + 32 * e) 32 with
  | .error x => .error x
  | .ok b =>
    if crc32c (b.take 28) ≠ fld b 0x1C 4 then .error (stTileCrc, base + 32 * e)
    else if ¬ entryOk b then .error (stTileFormat, base + 32 * e)
    else .ok (entryOf b)

/-- The entry of an expert for a FETCH_EXPERTS, which reads each entry once: what the fetch has read stands until its re-run
(R62). -/
def Wk.entryOnce (w : Wk) (seq i job base e : Nat) : Except (Nat × Nat) (Wk × Entry) :=
  match (w.dev.fetch seq i).bind fun f => aget f.entries e with
  | some en => .ok (w, en)
  | none =>
    match w.entry job base e with
    | .error er => .error er
    | .ok en => .ok (w.upd (·.onFetch seq i fun f => { f with entries := aput f.entries e en }), en)

/-- The half whose EFU reads an expert for consumers on some facets (R106). -/
def readerHalf (fs : List Nat) (e : Nat) : Half :=
  let west := (fs.filter (· < 160)).length
  if 2 * west > fs.length then .west else if 2 * west < fs.length then .east else Half.ofCode e

/-- A resident copy of an expert, the reading half's first. -/
def Dev.residentOf (d : Dev) (h : Half) (job base e crc : Nat) : Option (Half × Resident) :=
  let hit (k : Half) : Option (Half × Resident) :=
    ((d.efu.residents.get k).find? fun r => r.job = job ∧ r.base = base ∧ r.expert = e ∧ r.crc = crc).map fun r => (k, r)
  (hit h).orElse fun _ => hit h.other

/-- Notes the use of a resident copy. -/
def Dev.useResident (d : Dev) (h : Half) (job base e : Nat) : Dev :=
  d.onEfu fun u => { u with residents := u.residents.set h ((u.residents.get h).map fun r =>
    if r.job = job ∧ r.base = base ∧ r.expert = e then { r with used := d.time } else r) }

/-! ### Reads of a peer's bytes (R105, R121) -/

/-- Cuts bytes [lo, lo + n) of an expert into the pieces that its READs or BULK GETs carry: up to 256 B each, or what lies in
one 4 KiB block through a gateway. -/
def cutPieces (far : Bool) (off lo n : Nat) : List (Nat × Nat) :=
  if far then
    (List.range ((off + lo + n - 1) / 4096 - (off + lo) / 4096 + 1)).map fun k =>
      let win := (off + lo) / 4096 * 4096 + 4096 * k
      let a := max (off + lo) win
      (a - off, min (off + lo + n) (win + 4096) - a)
  else (List.range (cdiv n 256)).map fun k => (lo + 256 * k, min 256 (n - 256 * k))

/-- The pieces of bytes [lo, lo + n) of a peer's expert. -/
def Dev.piecesOf (d : Dev) (en : Entry) (lo n : Nat) : List (Nat × Nat) := cutPieces (d.level en.dev == 3) (regionOff en.loc) lo n

/-- Asks the owner for one piece of an expert. -/
def Dev.askPiece (d : Dev) (h : Half) (seq i job e : Nat) (en : Entry) (p : Nat × Nat) : Dev :=
  let at_ := regionOff en.loc + p.1
  if d.level en.dev = 3 then
    let win := at_ / 4096 * 4096
    d.countGateway.sendRead en.dev job (regionId en.loc) win 144 4 true (.expert seq i e p.1 (at_ - win) p.2 h)
  else d.sendRead en.dev job (regionId en.loc) at_ (cdiv p.2 32) 2 false (.expert seq i e p.1 0 p.2 h)

/-- Reads a half's EFU may still have outstanding (R105). -/
def Dev.efuRoom (d : Dev) (h : Half) : Nat := 4096 - d.fab.efuReads h

/-- Changes a stream of a fetch. -/
def Dev.onStream (d : Dev) (seq i k : Nat) (g : Stream → Stream) : Dev :=
  d.onFetch seq i fun f => { f with streams := f.streams.zipIdx.map fun p => if p.2 = k then g p.1 else p.1 }

/-- A stream asks for as many of its pieces as its EFU may have outstanding. -/
def Dev.pumpStream (d : Dev) (f : Fetch) (k : Nat) (s : Stream) : Dev :=
  let n := d.efuRoom s.half
  (s.todo.take n).foldl (fun d p => d.askPiece s.half f.seq f.node f.job s.expert s.entry p)
    (d.onStream f.seq f.node k fun s => { s with todo := s.todo.drop n })

/-- A staged expert asks in the same way. -/
def Dev.pumpStaged (d : Dev) (f : Fetch) (s : Staged) : Dev :=
  let n := d.efuRoom s.half
  (s.todo.take n).foldl (fun d p => d.askPiece s.half f.seq f.node f.job s.expert s.entry p)
    (d.onFetch f.seq f.node fun f => { f with staged := f.staged.map fun x => if x.expert = s.expert then { x with todo := x.todo.drop n } else x })

/-- The EFUs ask for what may go out: prefetch reads yield to every demand read (R105, R118). -/
def Dev.efuPump (d : Dev) : Dev :=
  let d := d.efu.fetches.foldl
    (fun d f => f.streams.zipIdx.foldl (fun d p => if p.1.ended ∨ p.1.todo.isEmpty then d else d.pumpStream f p.2 p.1) d) d
  d.efu.fetches.foldl (fun d f => f.staged.foldl (fun d s => if s.todo.isEmpty then d else d.pumpStaged f s) d) d

/-- Drops bytes [lo, lo + n) from what has come. -/
def cutData (l : List (Nat × List Byte)) (lo n : Nat) : List (Nat × List Byte) :=
  (l.flatMap fun p => [(p.1, p.2.take (lo - p.1)), (max p.1 (lo + n), p.2.drop (lo + n - p.1))]).filter fun p => ¬ p.2.isEmpty

/-! ### Streams (R106, R107) -/

/-- The stream of an expert to consumers, from the first source of R107 that applies; none when a remote expert has no
way here. `placed` holds the facets of every consumer of the expert that is placed, for the choice of R106. -/
def Dev.streamOf (d : Dev) (f : Fetch) (e : Nat) (en : Entry) (users : List (Nat × Nat)) (placed : List Nat) (again : Bool) : Option Stream :=
  let h := readerHalf placed e
  let s : Stream := { expert := e, entry := en, users := users, half := h, source := 4, tile := 0, off := 0, todo := [], mats := 0, data := [],
                      dense := [], rereads := 0, again := again, ended := false }
  match d.residentOf h f.job f.base e en.crc with
  | some (_, r) => some { s with source := 2, dense := r.tiles }
  | none =>
    match f.staged.find? fun x => x.expert = e ∧ x.entry = en with
    | some x => some { s with source := 3, data := x.data }
    | none =>
      if en.dev = d.me then some s
      else if f.mode = 1 then some { s with source := 5, todo := d.piecesOf en 0 (32 * en.secs) }
      else if f.mode = 2 then some { s with source := 6 }
      else none

/-- An act of a fetch's attempt; once the fetch is done, its counts advance at once (DESIGN CHOICE). -/
def Dev.fetchCount (d : Dev) (seq i : Nat) (h : Half) (off n : Nat) : Dev :=
  if n = 0 then d
  else
    match d.node seq i with
    | some m => if m.st = .running then d.onNode seq i fun m => { m with acts := m.acts ++ [.count h off n] } else d.count h off n
    | none => d.count h off n

/-- Marks the copy that serves a stream used, in the half that holds it (R116). -/
def Dev.markResident (d : Dev) (f : Fetch) (s : Stream) : Dev :=
  match d.residentOf s.half f.job f.base s.expert s.entry.crc with
  | some (k, _) => d.useResident k f.job f.base s.expert
  | none => d

/-- Begins a stream: it is counted, a resident copy is marked used, and bytes at a peer are asked for. `blame` is the node
that fails when its owner cannot be reached or its LOCATION has another form. -/
def Wk.beginStream (w : Wk) (f : Fetch) (s : Stream) (blame : Nat) : Wk :=
  if s.source = 5 ∧ ¬ isRegion s.entry.loc then w.fail f.seq blame stDenied s.entry.loc
  else if s.source = 5 ∧ ¬ w.dev.reachable s.entry.dev then w.fail f.seq blame stMemberLost s.entry.dev
  else w.upd fun d =>
    let d := d.onFetch f.seq f.node fun f => { f with streams := f.streams ++ [s] }
    let d := if s.source = 2 then (d.markResident f s).fetchCount f.seq f.node s.half Reg.EFU_RESIDENT_HIT_LO 1 else d
    let d := d.fetchCount f.seq f.node s.half Reg.EFU_EXPERTS_FETCHED_LO 1
    let d := if s.again then d.fetchCount f.seq f.node s.half Reg.EFU_REDELIVER_LO 1 else d
    d.efuPump

/-! ### Managed T1 that staging and residency take (R116, R118, R239) -/

/-- Managed T1 of a half that no pool takes. -/
def Dev.uncarved (d : Dev) (h : Half) : Nat :=
  432 * 2 ^ 20 - sumBy (d.enabledPools h true) fun p => d.poolCount h p * d.poolSize h p

/-- The half whose EFU holds an expert's staging. -/
def stageHalf (e : Nat) : Half := Half.ofCode e

/-- Bytes of resident copies of a half, those not yet usable included. -/
def Dev.residentBytes (d : Dev) (h : Half) : Nat :=
  sumBy (d.efu.residents.get h) (·.bytes) + sumBy d.efu.fetches fun f => sumBy (f.made.filter fun m => m.1 = h) fun m => m.2.bytes

/-- Bytes of prefetch and exchange staging of a half. -/
def Dev.stagedBytes (d : Dev) (h : Half) : Nat :=
  sumBy d.efu.fetches fun f =>
    f.stagedIn h + sumBy (f.exch.filter fun x => stageHalf x.expert = h) fun x => sumBy x.tiles fun t => t.2.length

/-- Free uncarved space of a half. -/
def Dev.uncarvedFree (d : Dev) (h : Half) : Nat := d.uncarved h - d.residentBytes h - d.stagedBytes h

/-- The least recently used of some resident copies. -/
def oldest : List Resident → Option Resident
  | [] => none
  | r :: l => some (l.foldl (fun m x => if x.used < m.used then x else m) r)

/-- Evicts whole copies of a half, least recently used first, until a test holds. The first argument bounds how many. -/
def Dev.evictWhile (d : Dev) (h : Half) (bad : Dev → Bool) : Nat → Dev
  | 0 => d
  | k + 1 =>
    if ¬ bad d then d
    else
      match oldest (d.efu.residents.get h) with
      | none => d
      | some r => Dev.evictWhile (d.onEfu fun u => { u with residents := u.residents.set h ((u.residents.get h).erase r) }) h bad k

/-- Evicts until a test holds or nothing is left. -/
def Dev.evictUntil (d : Dev) (h : Half) (bad : Dev → Bool) : Dev := d.evictWhile h bad (d.efu.residents.get h).length

/-! ### Exchange staging (R122, R239, R251) -/

/-- A checked tile of an exchanged expert enters staging, when the uncarved space, after resident copies have made room, and
the client's quota take it; otherwise it waits. -/
def Dev.exchPut (d : Dev) (f : Fetch) (e k : Nat) (bs : List Byte) : Dev :=
  let h := stageHalf e
  let d := d.evictUntil h fun d => decide (d.uncarvedFree h < bs.length)
  let on (g : ExchIn → ExchIn) (d : Dev) : Dev := d.onFetch f.seq f.node fun f => { f with exch := f.exch.map fun x => if x.expert = e then g x else x }
  if d.uncarvedFree h < bs.length ∨ ¬ d.quotaAllows f.client true bs.length then
    on (fun x => { x with parked := x.parked.filter (·.1 ≠ k) ++ [(k, bs)] }) d
  else
    let d := on (fun x => { x with tiles := x.tiles ++ [(k, bs)], parked := x.parked.filter (·.1 ≠ k) }) d
    match (d.fetch f.seq f.node).bind fun f => f.exch.find? fun x => x.expert = e with
    | some x => if x.tiles.length = x.want then d.fetchCount f.seq f.node h Reg.EFU_EXCHANGE_RECV_LO 1 else d
    | none => d

/-- Tiles that wait for exchange staging take what space has become free. -/
def Dev.exchAdmit (d : Dev) : Dev :=
  d.efu.fetches.foldl (fun d f => f.exch.foldl (fun d x => x.parked.foldl (fun d t => d.exchPut f x.expert t.1 t.2) d) d) d

/-! ### Progress of a fetch (R105, R114, R115) -/

/-- Whether a re-run skips an expert: all its consumers have committed. -/
def Dev.fetchSkips (d : Dev) (f : Fetch) (e : Nat) : Bool :=
  (match d.node f.seq f.node with | some n => decide (1 < n.attempt) | none => false)
    && ((d.consumers f.seq f.node f.slot).filter fun c => c.2.2 = e).all fun c =>
      match d.node f.seq c.2.1 with | some m => m.st == .done | none => true

/-- The next demanded expert to start. -/
def Dev.fetchNext (d : Dev) (f : Fetch) : Option Nat := f.demand.find? fun e => decide (f.passed ≤ e) && !d.fetchSkips f e

/-- Whether the exchange of a fetch has served its peers and brought its own experts. -/
def Fetch.exchDone (f : Fetch) : Bool := f.mode != 2 || (f.served && f.exch.all fun x => x.tiles.length == x.want)

/-- Whether a fetch has nothing left to do (R114). -/
def Dev.fetchFinished (d : Dev) (f : Fetch) : Bool :=
  (d.fetchNext f).isNone && f.streams.all (·.ended) && f.exchDone
    && (d.consumers f.seq f.node f.slot).all fun c =>
      !f.demand.contains c.2.2
        || (match d.node f.seq c.2.1 with
            | some m => m.st == .done || m.st == .committing || (m.st == .running && !m.tiles)
            | none => true)

/-- Exchange staging takes what it has room for, and fetches with nothing left to do report their work complete. -/
def Dev.fetchScan (d : Dev) : Dev :=
  let d := d.exchAdmit
  (d.efu.fetches.filter fun f => f.st = .running).foldl
    (fun d f =>
      match d.node f.seq f.node with
      | some n => if n.st = .running ∧ n.eng = .working ∧ d.fetchFinished f then d.engineDone f.seq f.node else d
      | none => d)
    d

end Sys2Proof.Machine
end

