-- ==== Sys2Proof/Machine/Facet.lean ====
section
/-! DEFINITION. The facet: its registers and tile store, how an instruction runs and fails, and the CONTROL and SCALAR
classes (R143 to R160). -/

namespace Sys2Proof.Machine

open Sys2Proof

/-- Status FACET_OPERAND. -/
def stFacetOperand : Nat := 0x38
/-- Status ILLEGAL_INSTRUCTION. -/
def stIllegal : Nat := 0x39

/-! ### Registers and tile store -/

/-- A scalar register; S0 reads 0. -/
def FacetRun.rs (r : FacetRun) (i : Nat) : Nat := if i = 0 then 0 else (nth r.s i 0).toNat

/-- Writes a scalar register modulo 2^64; S0 ignores writes. -/
def FacetRun.ws (r : FacetRun) (i x : Nat) : FacetRun := if i = 0 then r else { r with s := setNth r.s i (w64 x) }

/-- A tile pointer. -/
def FacetRun.ptr (r : FacetRun) (i : Nat) : Nat := nth r.tp i 0

/-- The 128 lanes of a vector register, as FP32 codes. -/
def FacetRun.vec (r : FacetRun) (i : Nat) : List Nat :=
  match aget r.v i with
  | some l => l.map (·.toNat)
  | none => List.replicate 128 0

/-- Writes a vector register. -/
def FacetRun.setVec (r : FacetRun) (i : Nat) (l : List Nat) : FacetRun := { r with v := aput r.v i (l.map w32) }

/-- The 4,096 elements of an accumulator slot, row by row, as FP32 codes. -/
def FacetRun.slot (r : FacetRun) (i : Nat) : List Nat :=
  match aget r.acc i with
  | some l => l.map (·.toNat)
  | none => List.replicate 4096 0

/-- Writes an accumulator slot. -/
def FacetRun.setSlot (r : FacetRun) (i : Nat) (l : List Nat) : FacetRun := { r with acc := aput r.acc i (l.map w32) }

/-- Bytes that a slot of the ring holds while no tile has arrived in it: free values, fresh at each instruction
(assumption 4: the spec states no contents). -/
def FacetRun.junk (r : FacetRun) (a : Nat) : Byte := Config.slotByte (r.started + r.index) (r.steps * 2 ^ 21 + a)

/-- One sector of the slot ring, counted from SLOT_BASE. -/
def FacetRun.ringSec (r : FacetRun) (i : Nat) : List Byte :=
  match nth r.ring (i / r.slotSec) none with
  | some t =>
    let b := (t.drop (32 * (i % r.slotSec))).take 32
    b ++ List.replicate (32 - b.length) 0
  | none => (List.range 32).map fun k => r.junk (32 * i + k)

/-- Whether sectors lie in the program's scratch. -/
def FacetRun.inScratch (r : FacetRun) (s n : Nat) : Bool := decide (s + n ≤ r.scratchSec)

/-- Whether sectors lie in the slot ring. -/
def FacetRun.inRing (r : FacetRun) (s n : Nat) : Bool :=
  decide (r.slotTiles ≠ 0 ∧ r.slotBase ≤ s ∧ s + n ≤ r.slotBase + r.slotTiles * r.slotSec)

/-- Sectors of the tile store that the program may read (R146). -/
def FacetRun.readSec (r : FacetRun) (s n : Nat) : Except Nat (List Byte) :=
  if r.inScratch s n then .ok ((List.range n).flatMap fun i => (aget r.scratch (s + i)).getD (List.replicate 32 0))
  else if r.inRing s n then .ok ((List.range n).flatMap fun i => r.ringSec (s - r.slotBase + i))
  else .error stFacetOperand

/-- Writes sectors of the scratch; any other area is a fault (R146, R192). -/
def FacetRun.writeSec (r : FacetRun) (s : Nat) (bs : List Byte) : Except Nat FacetRun :=
  let cs := chunks 32 bs
  if ¬ r.inScratch s cs.length then .error stFacetOperand
  else .ok { r with scratch := ((List.range cs.length).zip cs).foldl (fun l c => aput l (s + c.1) c.2) r.scratch }

/-- The tile at a sector, with the header checks of R161. How much is read follows from TYPE and SPARSITY; the other fields
are as they stand, whatever THDR wrote beside them. -/
def FacetRun.tile (r : FacetRun) (s : Nat) : Except Nat Tile :=
  match r.readSec s 1 with
  | .error e => .error e
  | .ok hb =>
    let h := Hdr.parse hb
    if h.ver ≠ 1 ∨ ¬ tyOk h.ty ∨ h.sparsity = 3 ∨ (h.sparsity ≠ 0 ∧ h.ty = tyInt32) ∨ h.comp ≠ 0 then .error stFacetOperand
    else
      let n := plainSectors h.ty h.sparsity
      match r.readSec s (1 + n) with
      | .error e => .error e
      | .ok bs => .ok { hdr := h, body := bs.drop 32 }

/-- Puts a tile at a sector of the scratch, its header as it stands. -/
def FacetRun.putTile (r : FacetRun) (s : Nat) (t : Tile) : Except Nat FacetRun := r.writeSec s (t.hdr.bytes ++ t.body)

/-! ### How an instruction ends -/

/-- How an instruction of a facet ends. -/
inductive Res where
  | next (w : Wk) (r : FacetRun)               -- the next instruction follows
  | jump (w : Wk) (r : FacetRun) (pc : Int)
  | fatal (w : Wk) (status d0 : Nat)           -- the command fails, class JOB_FATAL
  | soft (w : Wk) (status d0 : Nat)            -- the command fails, class CONTAINED
  | noRemote (w : Wk)                          -- REMOTE_DISABLED, not counted (R186)
  | wait (w : Wk) (r : FacetRun)               -- not ready: the instruction is taken up again
  | done (w : Wk) (r : FacetRun)               -- END

/-- Continues with a value or fails with its status. -/
def Res.ofTile {α : Type} (w : Wk) (x : Except Nat α) (f : α → Res) : Res :=
  match x with
  | .error st => .fatal w st 0
  | .ok a => f a

/-- Continues with bytes read from memory, or fails with the status and address of the refusal. -/
def Res.ofRead {α : Type} (w : Wk) (x : Except (Nat × Nat) α) (f : α → Res) : Res :=
  match x with
  | .error e => .fatal w e.1 e.2
  | .ok a => f a

/-- The run of a facet. -/
def Dev.run (d : Dev) (f : Nat) : Option FacetRun := aget d.fac.runs f

/-- Replaces the run of a facet. -/
def Dev.setRun (d : Dev) (f : Nat) (r : FacetRun) : Dev := { d with fac := { d.fac with runs := aput d.fac.runs f r } }

/-- Frees a facet. -/
def Dev.dropRun (d : Dev) (f : Nat) : Dev := { d.fallIdle f with fac := { d.fac with runs := adel d.fac.runs f } }

/-- A counter of the facets of a facet's half (R191, R210). -/
def Wk.fcount (w : Wk) (f off n : Nat) : Wk := w.upd (·.count (facetHalf f) off n)

/-- Adds to the commit actions of a node. -/
def Dev.addActs (d : Dev) (seq i : Nat) (l : List CommitAct) : Dev := d.onNode seq i fun n => { n with acts := n.acts ++ l }

/-- Counts of R210, which advance when the command completes. -/
def Wk.sparse (w : Wk) (f : Nat) (r : FacetRun) (off n : Nat) : Wk :=
  if n = 0 then w else w.upd (·.addActs r.seq r.node [.count (facetHalf f) off n])

/-- Counts egress bytes and stages local writes (R187). -/
def Wk.fstage (w : Wk) (f : Nat) (r : FacetRun) (rs : List Run) : Wk :=
  (w.fcount f Reg.TGU_FACET_EGRESS_BYTES_LO (sumBy rs fun x => x.bytes.length)).stage r.seq r.node rs

/-- The commit-log allowance of an instance (R188). -/
def logAllowance : Nat := 65536

/-- Takes commit-log space, or fails COMMIT_LOG_FULL. -/
def Res.log (w : Wk) (r : FacetRun) (n : Nat) (f : FacetRun → Res) : Res :=
  if r.logUsed + n > logAllowance then .fatal w 0x1E 0 else f { r with logUsed := r.logUsed + n, logAll := r.logAll + n }

/-- Adds entries to the commit log of a run's instance. -/
def Wk.log (w : Wk) (r : FacetRun) (es : List LogEntry) : Wk :=
  w.upd fun d => d.onNode r.seq r.node fun n => { n with log := n.log ++ es.map fun e => (r.index, e) }

/-- Address of an instruction. -/
def FacetRun.addr (r : FacetRun) (pc : Int) : Nat := wrapInt ((fld r.nb 0x20 8 : Int) + 8 * pc) 64

/-- The state an instance starts in (R151). -/
def FacetRun.reset (r : FacetRun) (index now : Nat) : FacetRun :=
  { r with index := index, pc := 0,
           s := (List.range 32).map fun i => if i = 1 then w64 index else if 2 ≤ i ∧ i ≤ 10 then w64 (fld r.nb (0x38 + 8 * (i - 2)) 8) else 0,
           tp := List.replicate 64 0, v := [], acc := [], scratch := [], calls := [], logUsed := 0,
           groups := List.replicate 16 0, incoming := [], window := none, waiting := none, steps := 0, started := now }

/-! ### Encodings (R155 to R157) -/

/-- Bits [55:0] that the fields of an opcode use, as (low bit, width). -/
def fieldsOf (op : Nat) : List (Nat × Nat) :=
  match op with
  | 0x00 => [] | 0x01 => [] | 0x06 => []
  | 0x02 => [(0, 24)] | 0x05 => [(0, 24)] | 0x07 => [(0, 24)]
  | 0x03 => [(51, 5), (46, 5), (43, 3), (0, 24)]
  | 0x04 => [(51, 5), (0, 24)]
  | 0x11 => [(51, 5), (46, 5), (0, 32)]
  | 0x17 => [(51, 5), (46, 5), (41, 5), (0, 32)] | 0x18 => [(51, 5), (46, 5), (41, 5), (0, 32)]
  | 0x1B => [(51, 5), (0, 32)] | 0x1D => [(51, 5), (0, 32)]
  | 0x1C => [(51, 5), (46, 5), (0, 32)] | 0x1E => [(51, 5), (46, 5), (0, 32)] | 0x1F => [(51, 5), (46, 5), (0, 32)]
  | 0x20 => [(50, 6), (39, 5), (0, 32)] | 0x21 => [(50, 6), (39, 5), (0, 32)] | 0x22 => [(50, 6), (39, 5), (0, 32)]
  | 0x23 => [(50, 6), (44, 6)]
  | 0x24 => [(50, 6), (39, 5), (34, 5)] | 0x27 => [(50, 6), (39, 5), (34, 5)] | 0x28 => [(50, 6), (39, 5), (34, 5)]
  | 0x25 => [(50, 6)]
  | 0x26 => [(50, 6), (39, 5), (34, 5), (6, 2)]
  | 0x29 => [(50, 6), (44, 6), (32, 2), (0, 8)]
  | 0x30 => [(52, 4), (46, 6), (40, 6), (38, 2), (36, 2), (35, 1), (34, 1)]
  | 0x31 => [(52, 4), (46, 6), (38, 2), (36, 2), (32, 2), (24, 8)]
  | 0x32 => [(52, 4), (46, 6), (38, 2), (36, 2)] | 0x34 => [(52, 4), (46, 6), (38, 2), (36, 2)]
  | 0x33 => [(52, 4)]
  | 0x43 => [(51, 5), (46, 5), (41, 5), (36, 5)] | 0x47 => [(51, 5), (46, 5), (41, 5), (36, 5)]
  | 0x48 => [(51, 5), (10, 5)]
  | 0x49 => [(46, 5), (10, 5), (3, 7)]
  | 0x4A => [(51, 5), (46, 5)] | 0x4B => [(51, 5), (46, 5)]
  | 0x4C => [(51, 5), (30, 6), (25, 5)]
  | 0x4D => [(46, 5), (30, 6), (25, 5), (23, 2), (15, 8)]
  | 0x4E => [(51, 5), (30, 4), (25, 5)]
  | 0x4F => [(46, 5), (30, 4), (25, 5)]
  | 0x60 => [(46, 5), (41, 5), (40, 1), (0, 32)]
  | 0x61 => [(51, 5), (46, 5), (41, 5), (40, 1), (0, 32)]
  | 0x62 => [(46, 5), (0, 32)]
  | 0x63 => [(0, 4)]
  | 0x70 => [(46, 5), (41, 5), (35, 6), (31, 4), (16, 3), (0, 16)]
  | 0x71 => [(46, 5), (41, 5), (35, 6), (31, 4)]
  | 0x72 => [(46, 5), (41, 5), (35, 6), (16, 3), (0, 16)]
  | 0x73 => [(46, 5), (41, 5), (35, 6)]
  | 0x74 => [(51, 5), (46, 5), (41, 5), (27, 4)]
  | 0x80 => [(46, 5)]
  | 0x81 => [(51, 5)]
  | _ =>
    if 0x10 ≤ op ∧ op ≤ 0x1A then [(51, 5), (46, 5), (41, 5)]
    else if 0x40 ≤ op ∧ op ≤ 0x46 then [(51, 5), (46, 5), (41, 5)]
    else if 0x50 ≤ op ∧ op ≤ 0x5B then [(51, 5), (46, 5)]
    else []

/-- Whether an opcode is defined (R155). -/
def opDefined (op : Nat) : Bool :=
  decide (op ≤ 0x07) || decide (0x10 ≤ op ∧ op ≤ 0x1F) || decide (0x20 ≤ op ∧ op ≤ 0x29) || decide (0x30 ≤ op ∧ op ≤ 0x34)
    || decide (0x40 ≤ op ∧ op ≤ 0x4F) || decide (0x50 ≤ op ∧ op ≤ 0x5B) || decide (0x60 ≤ op ∧ op ≤ 0x63)
    || decide (0x70 ≤ op ∧ op ≤ 0x74) || decide (0x80 ≤ op ∧ op ≤ 0x81)

/-- Whether an instruction word is well encoded (R157). -/
def encodingOk (word : Nat) : Bool :=
  let op := word / 2 ^ 56
  let used := sumBy (fieldsOf op) fun f => bits word f.1 f.2 * 2 ^ f.1
  let f (lo n : Nat) : Nat := bits word lo n
  let fold := f 38 2
  let ff := 2 ^ fold
  opDefined op && bits word 0 56 == used
    && (op != 0x03 || decide (f 43 3 ≤ 5))
    && (!(op == 0x30 || op == 0x31 || op == 0x32 || op == 0x34) || (fold != 3 && decide (f 36 2 < ff)))
    && (op != 0x30 || decide (f 46 6 + ff ≤ 64 ∧ f 40 6 + ff ≤ 64))
    && (!(op == 0x31 || op == 0x29) || f 32 2 != 3)
    && (op != 0x4D || f 23 2 != 3)
    && (op != 0x26 || (decide (f 39 5 ≤ 30) && decide (f 6 2 ≤ 1)))
    && (op != 0x74 || (decide (f 27 4 ≤ 7) && !(f 27 4 == 6 && decide (f 51 5 > 30))))
    && (op != 0x80 || decide (f 46 5 ≤ 28))
    && (op != 0x61 || (decide (1 ≤ f 0 32 ∧ f 0 32 ≤ 4096) && f 40 1 == 1))

/-! ### Running an instruction -/

/-- Fails a command for a facet instruction. -/
def Wk.facetFail (w : Wk) (r : FacetRun) (status d0 : Nat) : Wk :=
  if status = stDenied ∨ status = stUncorrectable ∨ status = stReadOnly then w.raiseStatus r.seq r.node status d0 w.dev.leadHalf
  else w.fail r.seq r.node status d0

/-- A remote instruction while remote access is disabled: CONTAINED, not counted, and re-run once it is enabled (R186). -/
def Wk.remoteDisabled (w : Wk) (f : Nat) (r : FacetRun) : Wk :=
  match w.dev.inst r.seq with
  | none => w
  | some x =>
    match x.nodes[r.node]? with
    | none => w
    | some n =>
      let w := w.upd (·.count .west Reg.TOP_ERR_CONTAINED_LO 1)
      let w := w.postJob (facetHalf f) (nodeEvent x n 2 stRemoteOff 0 n.attempt 0 (facetIsland f))
      (w.killRerun r.seq r.node false).upd fun d => d.onNode r.seq r.node fun n => { n with remoteOff := true }

/-- The word that a facet is to run next, when its code is loaded. -/
def FacetRun.word (r : FacetRun) : Option Nat :=
  if r.pc < 0 then none else (r.code[r.pc.toNat]?).map (·.toNat)

/-- What follows an instruction: `onEnd` closes an instance. -/
def applyRes (onEnd : Wk → Nat → FacetRun → Wk) (f : Nat) (r : FacetRun) (x : Res) : Wk :=
  let put (w : Wk) (r : FacetRun) : Wk := if (w.dev.run f).isSome then w.upd (·.setRun f r) else w
  match x with
  | .next w r => put w { r with pc := r.pc + 1, steps := r.steps + 1, waiting := none }
  | .jump w r pc => put w { r with pc := pc, steps := r.steps + 1 }
  | .fatal w st d0 => w.facetFail r st d0
  | .soft w st d0 => w.contained r.seq r.node st d0 (some f) (facetHalf f) (facetIsland f)
  | .noRemote w => w.remoteDisabled f r
  | .wait w r => put w { r with waiting := some (r.waiting.getD w.dev.time) }
  | .done w r => onEnd w f { r with steps := r.steps + 1 }

/-- Whether the command of a run is stalled for a shadow frame (R327, R328). -/
def Dev.nodeStalled (d : Dev) (r : FacetRun) : Bool := match d.node r.seq r.node with | some n => n.stalled | none => false

/-- Runs the instruction at a facet's pc when it has the opcode of the command. An encoding fault or a pc outside the
loaded code fails whatever the command (R157). A facet that runs nothing, or another opcode, or whose
command is stalled for a shadow frame, is left as it is. -/
def Wk.facetStep (w : Wk) (onEnd : Wk → Nat → FacetRun → Wk) (f op : Nat) (body : Wk → Nat → FacetRun → Nat → Res) : Wk :=
  match w.dev.run f with
  | none => w
  | some r =>
    if ¬ r.loaded ∨ r.drain ∨ w.dev.nodeStalled r then w
    else
      match r.word with
      | none => w.facetFail r stIllegal (r.addr r.pc)
      | some word =>
        if ¬ encodingOk word then w.facetFail r stIllegal (r.addr r.pc)
        else if word / 2 ^ 56 ≠ op then w
        else applyRes onEnd f r (body w f r word)

/-! ### CONTROL (R158) -/

/-- Signed branch distance. -/
def offsetOf (word : Nat) : Int := sext word 24

/-- The conditions of COND. -/
def branchCond (c a b : Nat) : Bool :=
  match c with
  | 0 => a == b
  | 1 => a != b
  | 2 => decide (sext a 64 < sext b 64)
  | 3 => decide (sext a 64 ≥ sext b 64)
  | 4 => decide (a < b)
  | _ => decide (a ≥ b)

/-- SA of format C, SD of the others. -/
def f51 (word : Nat) : Nat := bits word 51 5
/-- SB of format C, SA of formats S, Y, X and VA. -/
def f46 (word : Nat) : Nat := bits word 46 5
/-- SB of formats S, Y and X, and VB. -/
def f41 (word : Nat) : Nat := bits word 41 5
/-- IMM, sign-extended, modulo 2^64. -/
def immOf (word : Nat) : Nat := wrapInt (sext word 32) 64

/-- NOP. -/
def bodyNop (w : Wk) (_f : Nat) (r : FacetRun) (_word : Nat) : Res := .next w r
/-- END. -/
def bodyEnd (w : Wk) (_f : Nat) (r : FacetRun) (_word : Nat) : Res := .done w r
/-- BR. -/
def bodyBr (w : Wk) (_f : Nat) (r : FacetRun) (word : Nat) : Res := .jump w r (r.pc + offsetOf word)
/-- BC. -/
def bodyBc (w : Wk) (_f : Nat) (r : FacetRun) (word : Nat) : Res :=
  if branchCond (bits word 43 3) (r.rs (f51 word)) (r.rs (f46 word)) then .jump w r (r.pc + offsetOf word) else .next w r
/-- LOOP. -/
def bodyLoop (w : Wk) (_f : Nat) (r : FacetRun) (word : Nat) : Res :=
  let r := r.ws (f51 word) (r.rs (f51 word) + (2 ^ 64 - 1))
  if r.rs (f51 word) ≠ 0 then .jump w r (r.pc + offsetOf word) else .next w r
/-- CALL. -/
def bodyCall (w : Wk) (_f : Nat) (r : FacetRun) (word : Nat) : Res :=
  if r.calls.length ≥ 8 then .fatal w stIllegal (r.addr r.pc)
  else .jump w { r with calls := (r.pc + 1) :: r.calls } (r.pc + offsetOf word)
/-- RET. -/
def bodyRet (w : Wk) (_f : Nat) (r : FacetRun) (_word : Nat) : Res :=
  match r.calls with
  | [] => .fatal w stIllegal (r.addr r.pc)
  | a :: l => .jump w { r with calls := l } a
/-- TRAP. -/
def bodyTrap (w : Wk) (_f : Nat) (_r : FacetRun) (word : Nat) : Res := .fatal w 0x3A (bits word 0 24)

/-! ### SCALAR (R159, R160) -/

/-- A scalar operation of two registers. -/
def bodyScalar (op : Nat → Nat → Nat) (w : Wk) (_f : Nat) (r : FacetRun) (word : Nat) : Res :=
  .next w (r.ws (f51 word) (op (r.rs (f46 word)) (r.rs (f41 word))))

/-- A scalar operation of one register and IMM. -/
def bodyImm (op : Nat → Nat → Nat) (w : Wk) (_f : Nat) (r : FacetRun) (word : Nat) : Res :=
  .next w (r.ws (f51 word) (op (r.rs (f46 word)) (immOf word)))

/-- A shift: its amount is S[SB] + IMM modulo 64. -/
def bodyShift (op : Nat → Nat → Nat) (w : Wk) (_f : Nat) (r : FacetRun) (word : Nat) : Res :=
  .next w (r.ws (f51 word) (op (r.rs (f46 word)) ((r.rs (f41 word) + immOf word) % 64)))

/-- Signed minimum. -/
def smin (a b : Nat) : Nat := if sext a 64 ≤ sext b 64 then a else b
/-- Signed maximum. -/
def smax (a b : Nat) : Nat := if sext a 64 ≥ sext b 64 then a else b

/-- A timing-dependent choice of a facet (R182, R190). -/
def Wk.facetTdc (w : Wk) (f : Nat) (r : FacetRun) : Wk :=
  (w.fcount f Reg.TGU_FACET_TDC_LO 1).upd fun d =>
    (d.count .west Reg.TOP_TDC_COUNT_LO 1).onNode r.seq r.node fun n => { n with tdc := n.tdc + 1 }

/-- The special values of R160 but DEVICE_TIME. -/
def Dev.rdspec (d : Dev) (r : FacetRun) (code : Nat) : Option Nat :=
  match code with
  | 0x00 => some r.index
  | 0x01 => some r.count
  | 0x02 => some r.job
  | 0x03 => some d.me
  | 0x05 => some r.slotBase
  | 0x06 => some r.slotSec
  | 0x07 => some r.slotTiles
  | 0x08 => some r.scratchSec
  | 0x09 => some (fld r.nb 0x10 8)
  | 0x0A => some (b2n r.strict)
  | _ => if 0x10 ≤ code ∧ code ≤ 0x1B then some (fld r.nb (0x20 + 8 * (code - 0x10)) 8) else none

/-- RDSPEC. -/
def bodyRdspec (w : Wk) (f : Nat) (r : FacetRun) (word : Nat) : Res :=
  let code := bits word 0 32
  if code = 4 then
    if r.strict then .fatal w stStrict 0 else .next (w.facetTdc f r) (r.ws (f51 word) w.dev.time)
  else
    match w.dev.rdspec r code with
    | none => .fatal w stIllegal (r.addr r.pc)
    | some x => .next w (r.ws (f51 word) x)

/-- Reads device memory for an instance: the form, then the alignment, then the checks of R242 (R187, R192). -/
def Wk.fread (w : Wk) (r : FacetRun) (a n align : Nat) : Except (Nat × Nat) (List Byte) :=
  if ¬ isLocal a then .error (stDenied, a)
  else if a % align ≠ 0 then .error (stFacetOperand, 0)
  else
    match w.dev.node r.seq r.node with
    | none => .error (stFacetOperand, 0)
    | some m => w.rdNode r.job m a n

/-- LD64 and LD32: `n` bytes, zero-extended. -/
def bodyLoad (n : Nat) (w : Wk) (_f : Nat) (r : FacetRun) (word : Nat) : Res :=
  Res.ofRead w (w.fread r ((r.rs (f46 word) + immOf word) % 2 ^ 64) n n) fun bs => .next w (r.ws (f51 word) (ofBytes bs))

end Sys2Proof.Machine
end

