-- ==== Sys2Proof/Machine/FacetTile.lean ====
section
/-! DEFINITION. The TILE class of the facet (R161, R203): tiles moved, gathered, converted and staged. -/

namespace Sys2Proof.Machine

open Sys2Proof

/-- Sector that the tile pointer of a T-format word names. -/
def FacetRun.tpOf (r : FacetRun) (word : Nat) : Nat := r.ptr (bits word 50 6)
/-- Sector that TP2 of a T-format word names. -/
def FacetRun.tp2Of (r : FacetRun) (word : Nat) : Nat := r.ptr (bits word 44 6)
/-- SA of a T-format word. -/
def tSA (word : Nat) : Nat := bits word 39 5
/-- SB of a T-format word. -/
def tSB (word : Nat) : Nat := bits word 34 5

/-- Counts bytes through ingress. -/
def Wk.ingress (w : Wk) (f n : Nat) : Wk := w.fcount f Reg.TGU_FACET_INGRESS_BYTES_LO n

/-- The rounding of a converting instruction, with the job's seed and its salt. -/
def Wk.conv (w : Wk) (r : FacetRun) (mode salt : Nat) : Conv :=
  { mode := (Rnd.ofCode mode).getD .rne, seed := match w.dev.job r.job with | some j => j.seed | none => 0, salt := salt }

/-- Checks a local write of an instance: the form, then the alignment. Its rights are checked at the commit (R242, R325). -/
def fwriteOk (a align : Nat) : Except (Nat × Nat) Unit :=
  if ¬ isLocal a then .error (stDenied, a) else if a % align ≠ 0 then .error (stFacetOperand, 0) else .ok ()

/-- Puts a tile in the scratch and goes on. -/
def Res.put (w : Wk) (r : FacetRun) (sec : Nat) (t : Tile) : Res := .ofTile w (r.putTile sec t) fun r => .next w r

/-- TPSET. -/
def bodyTpset (w : Wk) (_f : Nat) (r : FacetRun) (word : Nat) : Res :=
  .next w { r with tp := setNth r.tp (bits word 50 6) ((r.rs (tSA word) + immOf word) % 65536) }

/-- TLOAD: the header tells how much follows; then CRC and format (R56, R57). -/
def bodyTload (w : Wk) (f : Nat) (r : FacetRun) (word : Nat) : Res :=
  let a := (r.rs (tSA word) + immOf word) % 2 ^ 64
  Res.ofRead w (w.fread r a 32 32) fun hb =>
    match storedSectors hb with
    | none => .fatal (w.ingress f 32) stTileFormat a
    | some n =>
      Res.ofRead w (w.fread r a (32 + 32 * n) 32) fun bs =>
        let w := w.ingress f (32 + 32 * n)
        match openTile false bs with
        | .error st => if st = stTileCrc then .soft w st a else .fatal w st a
        | .ok t => .put w r (r.tpOf word) t

/-- The bytes that TSTORE and RSTORET write for a tile of the tile store: its padding zero (R33), a fresh zero-map (R53),
PAYLOAD_SECTORS and META_SECTORS as R32 gives them for its TYPE and SPARSITY (DESIGN CHOICE, assumption 29: R161 does not
say what becomes of other lengths that THDR left beside a TYPE), and the CRC. -/
def Tile.facetStored (t : Tile) : List Byte :=
  ({ t with hdr := { t.hdr with metaSec := if t.hdr.sparsity = 0 then 0 else 16 } } : Tile).padded.mapped.stored

/-- TSTORE: the tile with its CRC and a fresh zero-map. -/
def bodyTstore (w : Wk) (f : Nat) (r : FacetRun) (word : Nat) : Res :=
  let a := (r.rs (tSA word) + immOf word) % 2 ^ 64
  Res.ofTile w (r.tile (r.tpOf word)) fun t =>
    let bs := t.facetStored
    Res.ofRead w (fwriteOk a 32) fun _ => .next (w.fstage f r [⟨a, bs⟩]) r

/-- TCOPY: header, map and payload. -/
def bodyTcopy (w : Wk) (_f : Nat) (r : FacetRun) (word : Nat) : Res :=
  Res.ofTile w (r.tile (r.tp2Of word)) fun t => .put w r (r.tpOf word) t

/-- Whether THDR may not change a SPARSITY code `a` to `b` (R201). -/
def sparsityFault (a b : Nat) : Bool := a != b && (a == 1 || a == 2 || b == 1 || b == 2)

/-- THDR: header words 0x00, 0x08 and 0x0C; the zero-map is cleared. A change of SPARSITY from or to a sparse tile's code is
a fault (R201); the reserved code may come and go, and only a later use of the header fails (R161). -/
def bodyThdr (w : Wk) (_f : Nat) (r : FacetRun) (word : Nat) : Res :=
  let sec := r.tpOf word
  let a := r.rs (tSA word)
  Res.ofTile w (r.readSec sec 1) fun hb =>
    let w0 := setBits (bits a 0 32) 22 1 0
    if sparsityFault (bits (ofBytes (hb.take 4)) 23 2) (bits w0 23 2) then .fatal w stFacetOperand 0
    else
      let nb := toBytes 4 w0 ++ (hb.drop 4).take 4 ++ toBytes 4 (bits a 32 32) ++ toBytes 4 (bits (r.rs (tSB word)) 0 32)
        ++ toBytes 8 0 ++ toBytes 4 (setBits (ofBytes ((hb.drop 24).take 4)) 0 8 0) ++ (hb.drop 28).take 4
      Res.ofTile w (r.writeSec sec nb) fun r => .next w r

/-- TZERO. -/
def bodyTzero (w : Wk) (_f : Nat) (r : FacetRun) (word : Nat) : Res :=
  Res.ofTile w (r.tile (r.tpOf word)) fun t =>
    if t.hdr.sparsity ≠ 0 then .fatal w stFacetOperand 0
    else .put w r (r.tpOf word) ({ t with body := List.replicate t.body.length 0 } : Tile).mapped

/-- A row that TGATHER reads from a grid tile: its 64 element codes, or none for a dropped index. -/
def Wk.gatherRow (w : Wk) (r : FacetRun) (ty base cols col rows i : Nat) : Except (Nat × Nat) (Option (List Nat)) :=
  if i ≥ rows then .ok none
  else
    let eb := elemBits ty / 8
    let a := (base + (i / 64 * cols + col) * (32 + 32 * plainSectors ty 0)) % 2 ^ 64
    match w.fread r a 32 32 with
    | .error e => .error e
    | .ok hb =>
      let h := Hdr.parse hb
      if (storedSectors hb).isNone ∨ ¬ h.formatOk false ∨ h.ty ≠ ty ∨ h.sparsity ≠ 0 ∨ h.trow ≠ i / 64 ∨ h.tcol ≠ col then
        .error (stTileFormat, a)
      else
        match w.fread r (a + 32 + i % 64 * (64 * eb)) (64 * eb) 1 with
        | .error e => .error e
        | .ok bs =>
          .ok (some (((unpackElems (elemBits ty) bs).zipIdx).map fun p => if h.valid (i % 64) p.2 then p.1 else 0))

/-- Gathers the rows of a list in order; a fault carries the indices dropped before it. -/
def Wk.gatherRows (w : Wk) (r : FacetRun) (ty base cols col rows : Nat) (is : List Nat) :
    Except (Nat × Nat × Nat) (List (List Nat) × Nat) :=
  is.foldl
    (fun a i =>
      match a with
      | .error e => .error e
      | .ok (out, n) =>
        match w.gatherRow r ty base cols col rows i with
        | .error e => .error (e.1, e.2, n)
        | .ok none => if r.fod then .error (0x31, 0, n + 1) else .ok (out ++ [List.replicate 64 0], n + 1)
        | .ok (some cs) => .ok (out ++ [cs], n))
    (.ok ([], 0))

/-- TGATHER. -/
def bodyTgather (w : Wk) (f : Nat) (r : FacetRun) (word : Nat) : Res :=
  Res.ofTile w (r.tile (r.tpOf word)) fun t =>
    if t.hdr.sparsity ≠ 0 ∨ isMx t.hdr.ty then .fatal w stFacetOperand 0
    else
      let base := r.rs (tSA word)
      let g := r.rs (tSA word + 1)
      let es := if bits word 6 2 = 0 then 8 else 4
      Res.ofRead w (w.fread r (r.rs (tSB word)) (t.hdr.rows * es) 1) fun ent =>
        let is := (chunks es ent).map fun e => if es = 8 then ofBytes (e.drop 4) else ofBytes e
        match w.gatherRows r t.hdr.ty base (bits g 0 16) (bits g 16 16) (bits g 32 32) is with
        | .error (st, d0, n) => .fatal (w.sparse f r Reg.TGU_SPARSE_DROP_INDEX_LO n) st d0
        | .ok (rows, n) =>
          let w := (w.sparse f r Reg.TGU_SPARSE_DROP_INDEX_LO n).ingress f
            ((is.length - n) * 64 * (elemBits t.hdr.ty / 8))
          let h := { t.hdr with cols := 64 }
          let cs := rows.flatten
          let body := packElems (elemBits h.ty) (cs ++ List.replicate (4096 - cs.length) 0)
          .put w r (r.tpOf word) ({ hdr := h, body := body } : Tile).mapped

/-- A payload whose rows are read from memory: `n` bytes for each row, from `base` on at a stride, laid at the row pitch
of elements of `eb` bytes. -/
def Wk.rowsIn (w : Wk) (r : FacetRun) (eb n base stride rows : Nat) (body : List Byte) : Except (Nat × Nat) (List Byte) :=
  (List.range rows).foldl
    (fun (b : Except (Nat × Nat) (List Byte)) i =>
      match b with
      | .error e => .error e
      | .ok b =>
        match w.fread r ((base + i * stride) % 2 ^ 64) n 1 with
        | .error e => .error e
        | .ok bs => .ok (overlay b (64 * eb * i) bs))
    (.ok body)

/-- The runs that a tile's rows make in memory. -/
def rowsOut (t : Tile) (base stride : Nat) : List Run :=
  let eb := elemBits t.hdr.ty / 8
  (List.range t.hdr.rows).map fun i =>
    (⟨(base + i * stride) % 2 ^ 64, (t.body.drop (64 * eb * i)).take (t.hdr.cols * eb)⟩ : Run)

/-- The checks of local writes, run by run. -/
def runsOk (rs : List Run) : Except (Nat × Nat) Unit :=
  rs.foldl (fun (a : Except (Nat × Nat) Unit) x => match a with | .error e => .error e | .ok _ => fwriteOk x.addr 1) (.ok ())

/-- TLDR: rows of elements from memory. -/
def bodyTldr (w : Wk) (f : Nat) (r : FacetRun) (word : Nat) : Res :=
  Res.ofTile w (r.tile (r.tpOf word)) fun t =>
    if t.hdr.sparsity ≠ 0 ∨ isMx t.hdr.ty then .fatal w stFacetOperand 0
    else
      let eb := elemBits t.hdr.ty / 8
      let n := t.hdr.cols * eb
      Res.ofRead w (w.rowsIn r eb n (r.rs (tSA word)) (r.rs (tSB word)) t.hdr.rows t.body) fun b =>
        .put (w.ingress f (t.hdr.rows * n)) r (r.tpOf word) ({ t with body := b } : Tile).unmapped

/-- TSTR: rows of elements to memory. -/
def bodyTstr (w : Wk) (f : Nat) (r : FacetRun) (word : Nat) : Res :=
  Res.ofTile w (r.tile (r.tpOf word)) fun t =>
    if t.hdr.sparsity ≠ 0 ∨ isMx t.hdr.ty then .fatal w stFacetOperand 0
    else
      let rs := rowsOut t (r.rs (tSA word)) (r.rs (tSB word))
      Res.ofRead w (runsOk rs) fun _ => .next (w.fstage f r rs) r

/-- Counts the decode of a sparse tile over the groups that a test picks; under FAULT_ON_DROP a dropped index fails the
command, counted up to that index (R209, R210). -/
def Res.decoded (w : Wk) (f : Nat) (r : FacetRun) (t : Tile) (pick : Nat → Nat → Bool) (k : Wk → View → Res) : Res :=
  let v := t.viewOf pick
  if r.sfod ∧ v.drop ≠ 0 then
    let n := t.tallyStop pick
    .fatal ((w.sparse f r Reg.TGU_SPARSE_BAD_GROUP_LO n.1).sparse f r Reg.TGU_SPARSE_DROP_INDEX_LO n.2) 0x31 0
  else k ((w.sparse f r Reg.TGU_SPARSE_BAD_GROUP_LO v.bad).sparse f r Reg.TGU_SPARSE_DROP_INDEX_LO v.drop) v

/-- TCVT. An MX target is quantised from the exact values of R36 and R37, not from their FP32 roundings (DESIGN CHOICE,
assumption 29: R161 names R42 without saying at which width the source's values enter). -/
def bodyTcvt (w : Wk) (f : Nat) (r : FacetRun) (word : Nat) : Res :=
  Res.ofTile w (r.tile (r.tpOf word)) fun t =>
    if t.hdr.sparsity ≠ 0 then .fatal w stFacetOperand 0
    else
      Res.ofTile w (r.tile (r.tp2Of word)) fun src =>
        Res.decoded w f r src (fun _ _ => true) fun w v =>
          let h := { t.hdr with rows := src.hdr.rows, cols := src.hdr.cols }
          let body := packVals h (w.conv r (bits word 32 2) (bits word 0 8)) v.val
          .put w r (r.tpOf word) ({ hdr := h, body := body } : Tile).mapped

end Sys2Proof.Machine
end

