-- ==== Sys2Proof/Machine/FacetMath.lean ====
section
/-! DEFINITION. The MATRIX, VECTOR and SPECIAL classes of the facet (R162 to R164, R168 to R178, R204 to R210). -/

namespace Sys2Proof.Machine

open Sys2Proof

/-! ### MMA (R168 to R173, R204 to R207) -/

/-- Types of the second row of R168. -/
def narrowType (t : Nat) : Bool := t == tyE4m3 || t == tyE5m2 || decide (0x10 ≤ t ∧ t ≤ 0x14)

/-- Facet clk of a pair of types; none for a pair that an MMA does not accept (R168). -/
def pairClk (a b : Nat) : Option Nat :=
  if a = 0x14 ∧ b = 0x14 then some 32
  else if narrowType a ∧ narrowType b then some 64
  else if a = b ∧ (a = tyInt8 ∨ a = tyMxInt8) then some 64
  else if a = b ∧ (a = tyBf16 ∨ a = tyFp16) then some 128
  else if a = b ∧ a = tyFp32 then some 1024
  else none

/-- Whether an MMA accepts a pair of operands of an H (R168 to R170, R201). -/
def pairOk (a b : Hdr) (form : Bool) (H : Nat) : Bool :=
  (pairClk a.ty b.ty).isSome && a.sparsity == 0 && !(isMx a.ty && a.axis) && !(isMx b.ty && b.axis != form)
    && !(form && b.sparsity != 0 && !(isMx b.ty && b.axis)) && decide (a.rows ≤ H)

/-- Values of a view by row and column. -/
def View.vals (v : View) : Array Num := ((List.range 4096).map fun i => v.val (i / 64) (i % 64)).toArray

/-- The value of B(n, k). -/
def bAt (form : Bool) (b : Array Num) (n k : Nat) : Num := b.getD (if form then 64 * k + n else 64 * n + k) .zero

/-- K-blocks of an A tile that its zero-map marks (R204). -/
def markedBlocks (h : Hdr) : List Nat :=
  if ¬ h.zmap then [] else if h.zrows = 2 ^ 64 - 1 then List.range 8 else rangeFilter 8 fun k => bit h.zk k

/-- K-blocks skipped: those marked where every B value is finite (R205). -/
def skipped (h : Hdr) (form : Bool) (b : Array Num) : List Nat :=
  (markedBlocks h).filter fun k => (List.range 512).all fun i => (bAt form b (i / 8) (8 * k + i % 8)).isFin

/-- Whether a recorded zero-map marks data that is not zero (R54). -/
def falseMap (v : View) : Bool :=
  v.hdr.zmap && (let m := v.zeroMap; v.hdr.zrows &&& m.1 != v.hdr.zrows || v.hdr.zk &&& m.2 != v.hdr.zk)

/-- One step of R172 in j: acc ← fl(acc + fl(p)) for the H rows from `top`. A skip changes no bit (R205). -/
def mmaStep (acc : List Nat) (top H : Nat) (form : Bool) (a b : Array Num) : List Nat :=
  acc.zipIdx.map fun p =>
    let row := p.2 / 64
    if top ≤ row ∧ row < top + H then
      let s := exactSum ((List.range 64).map fun k => (a.getD (64 * (row - top) + k) .zero).mul (bAt form b (p.2 % 64) k))
      fadd p.1 (flc s)
    else p.1

/-- Sets rows of an accumulator. -/
def setRows (acc : List Nat) (top H : Nat) (x : Nat → Nat) : List Nat :=
  acc.zipIdx.map fun p => if top ≤ p.2 / 64 ∧ p.2 / 64 < top + H then x p.2 else p.1

/-- What an MMA leaves: the accumulator, the counts of R207 and R210, and whether a false zero-map or a dropped index
was met. -/
structure MmaOut where
  acc : List Nat
  skip : Nat
  bad : Nat
  drop : Nat
  sparse : Bool
  work : Nat          -- sum of base × computed K-blocks × 4 / s (R207)
  undef : Bool
  stop : Bool

/-- Takes the pairs of an MMA in order; with `sfod`, a dropped index ends it. -/
def mmaPairs (top H : Nat) (form sfod : Bool) (acc : List Nat) (ps : List (Tile × Tile)) : MmaOut :=
  ps.foldl
    (fun (o : MmaOut) p =>
      if o.stop then o
      else
        let bv := p.2.view
        let sp := p.2.hdr.sparsity
        let o := { o with sparse := o.sparse || sp != 0 }
        if sfod ∧ bv.drop ≠ 0 then
          let n := p.2.tallyStop fun _ _ => true
          { o with bad := o.bad + n.1, drop := o.drop + n.2, stop := true }
        else
          let av := p.1.view
          let b := bv.vals
          let k := (skipped p.1.hdr form b).length
          { o with acc := mmaStep o.acc top H form av.vals b, skip := o.skip + k, bad := o.bad + bv.bad,
                   drop := o.drop + bv.drop, undef := o.undef || falseMap av,
                   work := o.work + (pairClk p.1.hdr.ty p.2.hdr.ty).getD 0 * (8 - k) * (4 / 2 ^ sp) })
    { acc := acc, skip := 0, bad := 0, drop := 0, sparse := false, work := 0, undef := false, stop := false }

/-- Tiles at consecutive tile pointers. -/
def FacetRun.tiles (r : FacetRun) (tp n : Nat) : Except Nat (List Tile) :=
  (List.range n).foldl
    (fun (a : Except Nat (List Tile)) i =>
      match a with
      | .error e => .error e
      | .ok l => match r.tile (r.ptr (tp + i)) with | .error e => .error e | .ok t => .ok (l ++ [t]))
    (.ok [])

/-- Draws `n` free values (assumption 4). -/
def Dev.drawMany (d : Dev) (n : Nat) : Dev × List Nat :=
  ({ d with free := d.free + n }, (List.range n).map fun i => (Config.freeWord (d.free + i)).toNat % 2 ^ 32)

/-- Counts of an MMA (R191, R207, R210). -/
def Wk.mmaCount (w : Wk) (f : Nat) (r : FacetRun) (F : Nat) (o : MmaOut) : Wk :=
  let w := w.fcount f Reg.TGU_FACET_MMA_LO 1
  let w := if o.stop then w else w.fcount f Reg.TGU_FACET_MMA_CLK_LO (max 1 (cdiv o.work (32 * F)))
  (((w.sparse f r Reg.TGU_SPARSE_BAD_GROUP_LO o.bad).sparse f r Reg.TGU_SPARSE_DROP_INDEX_LO o.drop).sparse f r
    Reg.TGU_SPARSE_MMA_LO (b2n o.sparse)).sparse f r Reg.TGU_SPARSE_SKIP_KBLOCK_LO o.skip

/-- MMA on given tiles: the accumulator that follows, or a fault. Rows that a false zero-map reached are free values
(R54, assumption 4). -/
def Res.mma (w : Wk) (f : Nat) (r : FacetRun) (fold arb : Nat) (form clear : Bool) (acc : List Nat) (as bs : List Tile)
    (k : Wk → List Nat → Res) : Res :=
  let H := 64 / 2 ^ fold
  let ps := as.zip bs
  if ¬ ps.all fun p => pairOk p.1.hdr p.2.hdr form H then .fatal w stFacetOperand 0
  else
    let top := H * arb
    let acc := if clear then setRows acc top H fun _ => 0 else acc
    let o := mmaPairs top H form r.sfod acc ps
    let w := w.mmaCount f r (2 ^ fold) o
    if o.stop then .fatal w 0x31 0
    else if o.undef then
      let x := w.dev.drawMany (64 * H)
      k { w with dev := x.1 } (setRows o.acc top H fun i => nth x.2 (i - 64 * top) 0)
    else k w o.acc

/-- FOLD. -/
def mFold (word : Nat) : Nat := bits word 38 2
/-- ARB. -/
def mArb (word : Nat) : Nat := bits word 36 2
/-- ACC. -/
def mAcc (word : Nat) : Nat := bits word 52 4
/-- TPA. -/
def mTpa (word : Nat) : Nat := bits word 46 6

/-- MMA. -/
def bodyMma (w : Wk) (f : Nat) (r : FacetRun) (word : Nat) : Res :=
  let n := 2 ^ mFold word
  Res.ofTile w (r.tiles (mTpa word) n) fun as =>
    Res.ofTile w (r.tiles (bits word 40 6) n) fun bs =>
      Res.mma w f r (mFold word) (mArb word) (bit word 35) (bit word 34) (r.slot (mAcc word)) as bs fun w acc =>
        .next w (r.setSlot (mAcc word) acc)

/-! ### ACC_STORE, ACC_LOAD, ACC_ADD and ACC_ZERO (R162, R175) -/

/-- A dense tile that takes rows of an accumulator from `top` on. -/
def storeAcc (t : Hdr) (k : Conv) (acc : List Nat) (top H : Nat) : Tile :=
  let h := { t with rows := min t.rows H, cols := 64 }
  let a := acc.toArray
  ({ hdr := h, body := packVals h k fun r c => f32 (a.getD (64 * (top + r) + c) 0) } : Tile).mapped

/-- ACC_STORE. -/
def bodyAccStore (w : Wk) (_f : Nat) (r : FacetRun) (word : Nat) : Res :=
  let sec := r.ptr (mTpa word)
  let H := 64 / 2 ^ mFold word
  Res.ofTile w (r.tile sec) fun t =>
    if t.hdr.sparsity ≠ 0 then .fatal w stFacetOperand 0
    else .put w r sec (storeAcc t.hdr (w.conv r (bits word 32 2) (bits word 24 8)) (r.slot (mAcc word)) (H * mArb word) H)

/-- Accumulator rows from a tile: fl(value), or fl(acc + value). -/
def loadAcc (acc : List Nat) (v : View) (top H : Nat) (add : Bool) : List Nat :=
  acc.zipIdx.map fun p =>
    let row := p.2 / 64
    if top ≤ row ∧ row < top + H then
      let x := v.val (row - top) (p.2 % 64)
      if add then flc ((f32 p.1).add x) else fl x
    else p.1

/-- ACC_LOAD, or ACC_ADD with `add`. -/
def bodyAccLoad (add : Bool) (w : Wk) (_f : Nat) (r : FacetRun) (word : Nat) : Res :=
  let H := 64 / 2 ^ mFold word
  Res.ofTile w (r.tile (r.ptr (mTpa word))) fun t =>
    if t.hdr.sparsity ≠ 0 then .fatal w stFacetOperand 0
    else .next w (r.setSlot (mAcc word) (loadAcc (r.slot (mAcc word)) t.view (H * mArb word) H add))

/-- ACC_ZERO. -/
def bodyAccZero (w : Wk) (_f : Nat) (r : FacetRun) (word : Nat) : Res :=
  .next w (r.setSlot (mAcc word) (List.replicate 4096 0))

/-! ### VECTOR (R163, R176, R177) -/

/-- A lane-by-lane operation of VA, VB and VC. -/
def bodyLanes (op : Nat → Nat → Nat → Nat) (w : Wk) (_f : Nat) (r : FacetRun) (word : Nat) : Res :=
  let c := r.vec (bits word 36 5)
  .next w (r.setVec (f51 word)
    (((r.vec (f46 word)).zip (r.vec (f41 word))).zipIdx.map fun p => op p.1.1 p.1.2 (nth c p.2 0)))

/-- 1.0 where a is below b. -/
def cmpLt (a b : Nat) : Nat := if flt a b then scaleOne else 0
/-- VSEL on one lane: a NaN in VC is not 0. -/
def vsel (a b c : Nat) : Nat := if (f32 c).isZero then b else a

/-- VBCAST. -/
def bodyVbcast (w : Wk) (_f : Nat) (r : FacetRun) (word : Nat) : Res :=
  .next w (r.setVec (f51 word) (List.replicate 128 (bits (r.rs (bits word 10 5)) 0 32)))

/-- VEXT. -/
def bodyVext (w : Wk) (_f : Nat) (r : FacetRun) (word : Nat) : Res :=
  .next w (r.ws (bits word 10 5) (nth (r.vec (f46 word)) (bits word 3 7) 0))

/-- One level of the tree of R177. -/
def treeStep (op : Nat → Nat → Nat) (s : Nat) (l : List Nat) : List Nat :=
  ((l.take s).zip (l.drop s)).map fun p => op p.1 p.2

/-- The fixed tree over 128 lanes. -/
def tree (op : Nat → Nat → Nat) (l : List Nat) : Nat :=
  ([64, 32, 16, 8, 4, 2, 1].foldl (fun l s => treeStep op s l) l).headD 0

/-- VRSUM and VRMAX. -/
def bodyTree (op : Nat → Nat → Nat) (w : Wk) (_f : Nat) (r : FacetRun) (word : Nat) : Res :=
  .next w (r.setVec (f51 word) (tree op (r.vec (f46 word)) :: List.replicate 127 0))

/-- Groups that a chunk of a sparse tile reads (R210). -/
def chunkPick (h : Hdr) (c l g : Nat) : Bool :=
  if h.byCol then g == 2 * c / (if h.sparsity = 1 then 4 else 8) else l == 2 * c || l == 2 * c + 1

/-- VLD: fl of the value of each element. -/
def bodyVld (w : Wk) (f : Nat) (r : FacetRun) (word : Nat) : Res :=
  let c := bits word 25 5
  Res.ofTile w (r.tile (r.ptr (bits word 30 6))) fun t =>
    Res.decoded w f r t (chunkPick t.hdr c) fun w v =>
      .next w (r.setVec (f51 word) ((List.range 128).map fun i => fl (v.val (2 * c + i / 64) (i % 64))))

/-- The payload with a chunk of 128 lanes converted into it (R176). -/
def storeChunk (t : Tile) (k : Conv) (c : Nat) (lanes : List Nat) : List Byte :=
  let h := t.hdr
  let eb := elemBits h.ty
  let row (i : Nat) : Nat := 2 * c + i / 64
  let x := (lanes.map f32).toArray
  let at_ (i : Nat) : Num := if h.valid (row i) (i % 64) then x.getD i .zero else .zero
  if isMx h.ty then
    let bs := (List.range 4).map fun q =>
      mxQuantise h.ty k.mode ((List.range 32).map fun j => (at_ (32 * q + j), k.draw h (row (32 * q + j)) ((32 * q + j) % 64)))
    let data := overlay (t.body.take (4096 * eb / 8)) (128 * c * eb / 8) (packElems eb (bs.flatMap (·.2)))
    data ++ overlay (t.body.drop (4096 * eb / 8)) (4 * c) (bs.map fun b => BitVec.ofNat 8 b.1)
  else
    overlay t.body (128 * c * eb / 8) (packElems eb ((List.range 128).map fun i =>
      if h.valid (row i) (i % 64) then encodeElem h.ty h.scale k.mode (k.draw h (row i) (i % 64)) (at_ i) else 0))

/-- VST. -/
def bodyVst (w : Wk) (_f : Nat) (r : FacetRun) (word : Nat) : Res :=
  let sec := r.ptr (bits word 30 6)
  Res.ofTile w (r.tile sec) fun t =>
    if t.hdr.sparsity ≠ 0 ∨ t.hdr.byCol then .fatal w stFacetOperand 0
    else
      let body := storeChunk t (w.conv r (bits word 23 2) (bits word 15 8)) (bits word 25 5) (r.vec (f46 word))
      .put w r sec ({ t with body := body } : Tile).unmapped

/-- VLDA. -/
def bodyVlda (w : Wk) (_f : Nat) (r : FacetRun) (word : Nat) : Res :=
  .next w (r.setVec (f51 word) (((r.slot (bits word 30 4)).drop (128 * bits word 25 5)).take 128))

/-- VSTA. -/
def bodyVsta (w : Wk) (_f : Nat) (r : FacetRun) (word : Nat) : Res :=
  let a := bits word 30 4
  let o := 128 * bits word 25 5
  let l := r.slot a
  .next w (r.setSlot a (l.take o ++ r.vec (f46 word) ++ l.drop (o + 128)))

/-! ### SPECIAL (R164, R178) -/

/-- A special function of VA. -/
def bodySpecial (fn : SpFn) (w : Wk) (_f : Nat) (r : FacetRun) (word : Nat) : Res :=
  .next w (r.setVec (f51 word) ((r.vec (f46 word)).map (special fn)))

end Sys2Proof.Machine
end

