-- ==== Sys2Proof/Machine/FacetRemote.lean ====
section
/-! DEFINITION. The REMOTE and STAGE classes of the facet (R166, R167, R183 to R188). -/

namespace Sys2Proof.Machine

open Sys2Proof

/-- Status FAR_ATOMIC. -/
def stFarAtomic : Nat := 0x21

/-- Remote byte offset of an X-format word. -/
def FacetRun.xOff (r : FacetRun) (word : Nat) : Nat := r.rs (f46 word)
/-- Target device. -/
def FacetRun.xDev (r : FacetRun) (word : Nat) : Nat := bits (r.rs (f41 word)) 18 18
/-- Target region. -/
def FacetRun.xReg (r : FacetRun) (word : Nat) : Nat := bits (r.rs (f41 word)) 0 18
/-- Sector of the local side. -/
def FacetRun.xSec (r : FacetRun) (word : Nat) : Nat := r.ptr (bits word 35 6)

/-- What every remote instruction checks: remote access (R186), alignment (R183), and that the offset and the device
can be named. -/
def Res.remote (w : Wk) (r : FacetRun) (word align : Nat) (k : Unit → Res) : Res :=
  let on : Bool := match w.dev.job r.job with | some j => j.remote | none => false
  if ¬ on then .noRemote w
  else if r.xOff word % align ≠ 0 then .fatal w stFacetOperand 0
  else if r.xOff word ≥ 2 ^ 40 then .fatal w stDenied (r.xDev word)
  else if ¬ w.dev.reachable (r.xDev word) then .fatal w stMemberLost (r.xDev word)
  else k ()

/-! ### Remote loads (R184) -/

/-- Loads outstanding on a facet. -/
def FacetRun.outstanding (r : FacetRun) : Nat := sumBy r.groups id

/-- Counts loads in a group. -/
def FacetRun.addLoads (r : FacetRun) (g n : Nat) : FacetRun := { r with groups := setNth r.groups g (nth r.groups g 0 + n) }

/-- Takes loads out of a group. -/
def FacetRun.subLoads (r : FacetRun) (g n : Nat) : FacetRun := { r with groups := setNth r.groups g (nth r.groups g 0 - n) }

/-- Pieces of a range of a region, as offset from its start and length: 4 KiB windows through a gateway, else 256 B
(R383). The first argument bounds their number. -/
def loadPieces (far : Bool) (off len : Nat) : Nat → Nat → List (Nat × Nat)
  | 0, _ => []
  | k + 1, at_ =>
    if at_ ≥ len then []
    else
      let n := if far then min (len - at_) (4096 - (off + at_) % 4096) else min (len - at_) 256
      (at_, n) :: loadPieces far off len k (at_ + n)

/-- Sends the reads of bytes [first, len) of a remote load. -/
def Wk.sendLoad (w : Wk) (f : Nat) (r : FacetRun) (x : Incoming) (first : Nat) : Wk :=
  let far : Bool := x.dev != w.dev.me && w.dev.level x.dev == 3
  (loadPieces far (x.off + first) (x.len - first) (x.len / 32 + 1) 0).foldl
    (fun w p =>
      let o := x.off + first + p.1
      w.upd fun d =>
        if far then
          d.countGateway.sendRead x.dev r.job x.region (o / 4096 * 4096) 144 4 true
            (.load f r.seq r.node r.attempt x.id (first + p.1) (o % 4096) p.2)
        else d.sendRead x.dev r.job x.region o (p.2 / 32) 3 false (.load f r.seq r.node r.attempt x.id (first + p.1) 0 p.2))
    w

/-- RLOAD and RLOADT: one load is counted, and issue stalls while 512 are outstanding. -/
def startLoad (tile : Bool) (sector sectors : Nat) (w : Wk) (f : Nat) (r : FacetRun) (word : Nat) : Res :=
  if r.outstanding ≥ 512 then .wait w r
  else
    let g := bits word 31 4
    let x : Incoming :=
      { id := r.nextLoad, group := g, sector := sector, tile := tile, len := 32 * sectors, loads := 1, dev := r.xDev word,
        region := r.xReg word, off := r.xOff word, parts := [] }
    let r := { r.addLoads g 1 with incoming := r.incoming ++ [x], nextLoad := r.nextLoad + 1 }
    .next ((w.fcount f Reg.TGU_FACET_RLOADS_LO 1).sendLoad f r x 0) r

/-- RLOAD. -/
def bodyRload (w : Wk) (f : Nat) (r : FacetRun) (word : Nat) : Res :=
  Res.remote w r word 32 fun _ =>
    let sec := r.xSec word + bits word 0 16
    let n := bits word 16 3 + 1
    if ¬ r.inScratch sec n then .fatal w stFacetOperand 0 else startLoad false sec n w f r word

/-- RLOADT. -/
def bodyRloadt (w : Wk) (f : Nat) (r : FacetRun) (word : Nat) : Res :=
  Res.remote w r word 32 fun _ => startLoad true (r.xSec word) 1 w f r word

/-- The bytes of a load, in order. -/
def Incoming.bytes (x : Incoming) : List Byte := (sortBy (fun a b => decide (a.1 < b.1)) x.parts).flatMap (·.2)

/-- Replaces a load under way. -/
def FacetRun.setIncoming (r : FacetRun) (x : Incoming) : FacetRun :=
  { r with incoming := r.incoming.map fun y => if y.id = x.id then x else y }

/-- Ends a load. -/
def FacetRun.endLoad (r : FacetRun) (x : Incoming) : FacetRun :=
  { r.subLoads x.group x.loads with incoming := r.incoming.filter fun y => y.id ≠ x.id }

/-- What a load that has all its bytes does. The header of an RLOADT is checked first, and a malformed one ends it
(R184). -/
def loadWhole (w : Wk) (f : Nat) (r : FacetRun) (x : Incoming) : Res :=
  let bs := x.bytes
  if ¬ x.tile then Res.ofTile (w.ingress f x.len) (r.writeSec x.sector bs) fun r => .next (w.ingress f x.len) (r.endLoad x)
  else if x.len = 32 then
    match storedSectors bs with
    | none => .fatal w stTileFormat x.dev
    | some n =>
      if ¬ (Hdr.parse bs).formatOk false then .fatal w stTileFormat x.dev
      else
        let more := cdiv (32 + 32 * n) 256 - 1
        let y := { x with len := 32 + 32 * n, loads := x.loads + more }
        let r := (r.addLoads x.group more).setIncoming y
        .next ((w.fcount f Reg.TGU_FACET_RLOADS_LO more).sendLoad f r y 32) r
  else
    let w := w.ingress f x.len
    match openTile false bs with
    | .error st => if st = stTileCrc then .soft w st x.dev else .fatal w st x.dev
    | .ok t => Res.ofTile w (r.putTile x.sector t) fun r => .next w (r.endLoad x)

/-- The run that a reply belongs to. -/
def Dev.loadRun (d : Dev) (f seq i attempt : Nat) : Option FacetRun :=
  match d.run f with
  | none => none
  | some r => if r.seq = seq ∧ r.node = i ∧ r.attempt = attempt then some r else none

/-- Bytes of a remote load arrive. -/
def Wk.loadArrived (w : Wk) (f seq i attempt id at_ : Nat) (bs : List Byte) : Wk :=
  match w.dev.loadRun f seq i attempt with
  | none => w
  | some r =>
    match r.incoming.find? fun x => x.id = id with
    | none => w
    | some x =>
      let x := { x with parts := x.parts ++ [(at_, bs)] }
      if (sumBy x.parts fun p => p.2.length) < x.len then w.upd (·.setRun f (r.setIncoming x))
      else
        match loadWhole w f (r.setIncoming x) x with
        | .next w r => w.upd (·.setRun f r)
        | .fatal w st d0 => w.facetFail r st d0
        | .soft w st d0 => w.contained r.seq r.node st d0 (some f) (facetHalf f) (facetIsland f)
        | _ => w

/-- A remote load is refused, or its device is lost. -/
def Wk.loadFails (w : Wk) (f seq i attempt id status : Nat) : Wk :=
  match w.dev.loadRun f seq i attempt with
  | none => w
  | some r =>
    match r.incoming.find? fun x => x.id = id with
    | none => w
    | some x => w.fail r.seq r.node status x.dev

/-! ### Remote stores and atomics (R185, R188) -/

/-- Commit-log cost of a store of some bytes. -/
def storeCost (n : Nat) : Nat := 16 + (n + 15) / 16 * 16

/-- Stages remote stores: one for each WRITE of up to 256 B. -/
def stageStore (bs : List Byte) (w : Wk) (f : Nat) (r : FacetRun) (word : Nat) : Res :=
  let cs := chunks 256 bs
  Res.log w r (sumBy cs fun c => storeCost c.length) fun r =>
    let w := w.upd fun d => d.probe (facetHalf f) r.seq r.node r.job (r.xDev word) (r.xReg word) (r.xOff word) (probeRights false true false) r.index
    let es := cs.zipIdx.map fun c => LogEntry.write (r.xDev word) (r.xReg word) (r.xOff word + 256 * c.2) c.1
    .next ((w.fcount f Reg.TGU_FACET_EGRESS_BYTES_LO bs.length).log r es) r

/-- RSTORE. -/
def bodyRstore (w : Wk) (f : Nat) (r : FacetRun) (word : Nat) : Res :=
  Res.remote w r word 32 fun _ =>
    Res.ofTile w (r.readSec (r.xSec word + bits word 0 16) (bits word 16 3 + 1)) fun bs => stageStore bs w f r word

/-- RSTORET. -/
def bodyRstoret (w : Wk) (f : Nat) (r : FacetRun) (word : Nat) : Res :=
  Res.remote w r word 32 fun _ =>
    Res.ofTile w (r.tile (r.xSec word)) fun t => stageStore t.facetStored w f r word

/-- RATOMIC. Its operands leave through egress as commit-log traffic (R143; that an atomic counts their bytes, without the log's
own, is DESIGN CHOICE, assumption 57). An atomic that would cross a gateway fails when it is executed (R183, R370). -/
def bodyRatomic (w : Wk) (f : Nat) (r : FacetRun) (word : Nat) : Res :=
  let op := bits word 27 4
  Res.remote w r word (aopWidth op) fun _ =>
    let dev := r.xDev word
    if dev ≠ w.dev.me ∧ w.dev.level dev = 3 then .fatal w stFarAtomic dev
    else
      let v := r.rs (f51 word)
      let bs := if op = 6 then toBytes 8 v ++ toBytes 8 (r.rs (f51 word + 1)) else toBytes 8 (v % 2 ^ (8 * aopWidth op))
      Res.log w r 32 fun r =>
        let w := w.upd fun d => d.probe (facetHalf f) r.seq r.node r.job dev (r.xReg word) (r.xOff word) (probeRights false false true) r.index
        .next ((w.fcount f Reg.TGU_FACET_EGRESS_BYTES_LO bs.length).log r [.atomic dev (r.xReg word) (r.xOff word) op bs]) r

/-! ### STAGE (R129, R167) -/

/-- The 32 bytes of a result notice. -/
def noticeBytes (gen expert first count job rowBase buffer : Nat) : List Byte :=
  toBytes 4 (gen * 2 ^ 16 + expert) ++ toBytes 4 first ++ toBytes 4 count ++ toBytes 4 job ++ toBytes 8 rowBase ++ toBytes 8 buffer

/-- POST_NOTICE: the notice's 32 bytes leave through egress as commit-log traffic (R143, assumption 57). -/
def bodyPostNotice (w : Wk) (f : Nat) (r : FacetRun) (word : Nat) : Res :=
  let a := f46 word
  let x := r.rs a
  Res.log w r 32 fun r =>
    .next ((w.fcount f Reg.TGU_FACET_EGRESS_BYTES_LO 32).log r [.notice (noticeBytes (bits x 48 16) (bits x 32 16) (bits x 0 32) (bits (r.rs (a + 1)) 0 32) r.job
      (r.rs (a + 2)) (r.rs (a + 3)))]) r

/-- STAGE_QUERY. -/
def bodyStageQuery (w : Wk) (_f : Nat) (r : FacetRun) (word : Nat) : Res :=
  .next w (r.ws (f51 word) (logAllowance - r.logUsed))

end Sys2Proof.Machine
end

