-- ==== Sys2Proof/Machine/FacetSync.lean ====
section
/-! DEFINITION. WAIT_PIECE, WAIT_ANY, RELEASE_SLOT and WAIT_GROUP (R179 to R182, R184). -/

namespace Sys2Proof.Machine

open Sys2Proof

/-- Running facet clk of a facet's half, MHz. -/
def Dev.facetMhz (d : Dev) (f : Nat) : Nat := (d.top.sc.get (facetHalf f)).clk

/-- Counts the facet clk that a wait took, once it ends (R191). -/
def Wk.waited (w : Wk) (f : Nat) (r : FacetRun) : Wk :=
  match r.waiting with
  | none => w
  | some t => w.fcount f Reg.TGU_FACET_WAIT_CLK_LO ((w.dev.time - t) * w.dev.facetMhz f / 1000)

/-- Slot of the ring that (S[SA] + IMM) mod SLOT_TILES names. -/
def FacetRun.slotIdx (r : FacetRun) (word : Nat) : Nat :=
  (sext ((r.rs (f46 word) + immOf word) % 2 ^ 64) 64 % (r.slotTiles : Int)).toNat

/-- A live bitmap of a job. -/
def Dev.bitmap (d : Dev) (job handle : Nat) : Option Bitmap := d.ce.bitmaps.find? fun b => b.job = job ∧ b.tag = handle ∧ handle ≠ 0

/-- The bitmap an instance waits on becomes a commit condition of its command until it is verified (R181). -/
def Wk.waitsFor (w : Wk) (r : FacetRun) (b : Bitmap) : Wk :=
  if b.verified then w
  else w.upd fun d => d.onNode r.seq r.node fun n =>
    if n.waitsOn.contains b.id then n else { n with waitsOn := n.waitsOn ++ [b.id] }

/-- Fills free slots of a replaying ring, in order (R148). -/
def FacetRun.refill (r : FacetRun) : FacetRun :=
  if ¬ r.replay then r
  else
    (List.range r.slotTiles).foldl
      (fun (r : FacetRun) _ =>
        match r.caught[r.delivered]? with
        | none => r
        | some t =>
          let s := r.delivered % r.slotTiles
          if (nth r.ring s none).isSome then r else { r with ring := setNth r.ring s (some t), delivered := r.delivered + 1 })
      r

/-- WAIT_PIECE. A wait for a piece number at or past the bitmap's last piece never ends: R180 states no fault for it (DESIGN
CHOICE). -/
def bodyWaitPiece (w : Wk) (f : Nat) (r : FacetRun) (word : Nat) : Res :=
  if bit word 40 then
    match w.dev.bitmap r.job (r.rs (f46 word)) with
    | none => .fatal w stFacetOperand 0
    | some b =>
      let w := w.waitsFor r b
      if b.done.contains ((r.rs (f41 word) + immOf word) % 2 ^ 64) then .next (w.waited f r) r else .wait w r
  else if r.slotTiles = 0 then .fatal w stFacetOperand 0
  else if (nth r.ring (r.slotIdx word) none).isSome then .next (w.waited f r) r
  else .wait w r

/-- WAIT_ANY. -/
def bodyWaitAny (w : Wk) (f : Nat) (r : FacetRun) (word : Nat) : Res :=
  let handle := r.rs (f46 word)
  let base := r.rs (f41 word)
  let count := bits word 0 32
  match w.dev.bitmap r.job handle with
  | none => .fatal w stFacetOperand 0
  | some b =>
    let w := w.waitsFor r b
    let x : AnyWin := match r.window with
      | some x => if x.handle = handle ∧ x.base = base ∧ x.count = count then x else ⟨handle, base, count, []⟩
      | none => ⟨handle, base, count, []⟩
    let r := { r with window := some x }
    let left := ((List.range count).map fun i => (base + i) % 2 ^ 64).filter fun p => ¬ x.returned.contains p
    match left with
    | [] => .next (w.waited f r) (r.ws (f51 word) (2 ^ 64 - 1))
    | low :: _ =>
      let pick := if r.strict then (if b.done.contains low then some low else none) else left.find? b.done.contains
      match pick with
      | none => .wait w r
      | some p =>
        let w := if p = low then w else w.facetTdc f r
        .next (w.waited f r) ({ r with window := some { x with returned := x.returned ++ [p] } }.ws (f51 word) p)

/-- RELEASE_SLOT. -/
def bodyReleaseSlot (w : Wk) (_f : Nat) (r : FacetRun) (word : Nat) : Res :=
  if r.slotTiles = 0 then .fatal w stFacetOperand 0
  else .next w ({ r with ring := setNth r.ring (r.slotIdx word) none }).refill

/-- WAIT_GROUP. -/
def bodyWaitGroup (w : Wk) (f : Nat) (r : FacetRun) (word : Nat) : Res :=
  if nth r.groups (bits word 0 4) 0 = 0 then .next (w.waited f r) r else .wait w r

end Sys2Proof.Machine
end

