-- ==== Sys2Proof/Machine/FacetNode.lean ====
section
/-! DEFINITION. KERNEL and MATMUL: training chains (R223 to R230), placement (R321, R233), operand checks (R149 to R154),
and the life of a command on a facet. -/

namespace Sys2Proof.Machine

open Sys2Proof

/-- Status KERNEL_OPERAND. -/
def stKernel : Nat := 0x37

/-! ### Training chains (R223 to R230) -/

/-- Whether a gradient-kind node names a FROZEN entry, and so holds no chain (R229). -/
def Wk.frozen (w : Wk) (x : Inst) (n : Node) : Bool :=
  n.gradient && (match w.param x (gParam n.affinity) with | .ok q => q.role == 1 | .error _ => false)

/-- Whether a node's chain lets it dispatch (R226, R227). Nodes of other kinds, and of a FROZEN entry, have no chain; every node of a chain
names one parameter. -/
def Wk.chainFree (w : Wk) (seq i : Nat) : Bool :=
  match w.dev.inst seq, w.dev.node seq i with
  | some x, some n => !n.gradient || w.frozen x n || !w.dev.chainHolds seq i x n
  | _, _ => false

/-- What the checks of a gradient-kind node answer. -/
inductive GradRes where
  | frozen
  | fail (status d0 : Nat)
  | ok (acts : List CommitAct)

/-- The checks of R222, R224, R228 to R230. R224 names no fault for a CONSUME_SET of an entry that is no SET: it consumes that entry's
one window (DESIGN CHOICE). `matmul` gives C_TYPE, CIN_BASE, C_BASE, M_TILES and N_TILES. -/
def Wk.gradient (w : Wk) (i : Nat) (x : Inst) (n : Node) (matmul : Option (Nat × Nat × Nat × Nat × Nat)) : GradRes :=
  let a := n.affinity
  let act := gAct a
  let p := gParam a
  let e := gExpert a
  let bad : GradRes := .fail stTrain 0
  if act = 3 ∨ bits a 48 10 ≠ 0 ∨ bits a 32 8 ≠ 0 ∨ (act ≠ 0 ∧ gUse a ≠ 0) then bad
  else
    match w.param x p with
    | .error er => .fail er.1 er.2
    | .ok q =>
      if q.role = 1 then .frozen
      else
        let base : Except (Nat × Nat) Bool := if q.role ≠ 2 then .ok true else (w.param x q.base).map fun b => b.role == 1
        let twins := x.nodes.zipIdx.filter fun m => m.2 ≠ i ∧ m.1.gradient ∧ act = 0 ∧ gAct m.1.affinity = 0 ∧ gParam m.1.affinity = p
          ∧ gExpert m.1.affinity = e
        let mmOk : Bool := match matmul with
          | none => true
          | some (ct, cin, c, m, k) => act != 0 || (ct == tyFp32 && cin == c && (q.role != 2 || m == cdiv q.rank 64 || k == cdiv q.rank 64))
        let ring := aget w.dev.tgu.windows (x.job, p, e)
        let other : Bool := x.strict && act == 0 && (match ring with | some r => r != (x.fn, x.ring) | none => false)
        let tied := (w.dev.job x.job).map (·.trainTied) |>.getD 0
        match base with
        | .error er => .fail er.1 er.2
        | .ok adapterOk =>
          if (if q.isSet ∧ act ≠ 2 then decide (e ≥ q.experts) else e != 0) ∨ ¬ adapterOk
              ∨ (twins.any fun m => gUse m.1.affinity = gUse a) ∨ ¬ mmOk ∨ (act = 0 ∧ q.isSet ∧ n.shapeRef = 0) ∨ other then bad
          else if tied = 1 ∧ (twins.any fun m => gUse m.1.affinity < gUse a) then .fail 0x30 0
          else
            let key := if q.isSet then some e else none
            .ok (match act with
              | 0 => [.count .west Reg.TGU_TRAIN_PRODUCERS_LO 1, .window x.job p (some e) (some (x.fn, x.ring))]
                  ++ (match key with | some e => [.presence q.presence e true] | none => [])
              | 1 => [.window x.job p (some e) none] ++ (match key with | some e => [.presence q.presence e false] | none => [])
              | _ => [.window x.job p none none] ++ (if q.isSet then [.presenceClear q.presence (bitmapBytes q.experts)] else []))

/-- Notes whether a parameter's entry is FROZEN, as read. -/
def Dev.noteRole (d : Dev) (k : Nat × Nat) (on : Bool) : Dev :=
  if d.tgu.frozen.contains k = on then d
  else d.onTgu fun t => { t with frozen := if on then t.frozen ++ [k] else t.frozen.filter (· ≠ k) }

/-- Runs the checks of a gradient-kind node before the rest of its dispatch; other nodes go straight on. A node passes over a lower
key when its chain is free and it is dispatched for the first time; a re-run keeps its place in the chain (R226), and the pass
with it. TGU_TRAIN_OUT_OF_ORDER counts it when the node completes (R235). -/
def Wk.withGradient (w : Wk) (seq i : Nat) (x : Inst) (n : Node) (matmul : Option (Nat × Nat × Nat × Nat × Nat)) (k : Wk → Wk) : Wk :=
  if ¬ n.gradient then k w
  else
    match w.gradient i x n matmul with
    | .frozen => (w.upd fun d => (d.noteRole (x.job, gParam n.affinity) true).count .west Reg.TGU_TRAIN_FROZEN_SKIP_LO 1).complete seq i stNull
    | .fail st d0 => w.raiseStatus seq i st d0 w.dev.leadHalf
    | .ok acts =>
      let passes := !x.strict && !n.passed && n.attempt ≤ 1
        && (w.dev.chainOthers seq i x n).any fun m => gBefore m.1 m.2.affinity seq n.affinity && m.2.st == .waiting
      let w := if passes then w.upd fun d =>
          (d.count .west Reg.TOP_TDC_COUNT_LO 1).onNode seq i fun n => { n with tdc := n.tdc + 1, passed := true }
        else w
      k (w.upd fun d => (d.noteRole (x.job, gParam n.affinity) false).addActs seq i acts)

/-! ### Facets and lanes (R233, R321) -/

/-- Whether a lane has a READY node for facets. -/
def Dev.laneReady (d : Dev) (lane : Nat) : Bool :=
  d.tgu.insts.any fun p => p.2.lane = lane ∧ p.2.nodes.any fun n => n.st = .ready ∧ n.opcode / 256 = 1

/-- Whether a facet stands idle. -/
def Dev.facetIdle (d : Dev) (f : Nat) : Bool :=
  d.facetOn f && !(d.picOf f).quar && (d.picOf f).slice.isNone && (d.run f).isNone
    && (match d.leadOf with | some h => !d.top.degraded || facetHalf f == h | none => false)

/-- Whether an idle facet is lent to a lane. -/
def Dev.facetLent (d : Dev) (lane f : Nat) : Bool := match d.laneOf f with | some l => l != lane | none => false

/-- Whether an idle facet may run a node of a lane. -/
def Dev.facetFor (d : Dev) (lane f : Nat) : Bool :=
  d.facetIdle f && (!d.facetLent lane f || (bit (d.rn (facetHalf f) Reg.TGU_LANE_SPLIT) 16 && !d.laneReady (1 - lane)))

/-- Facets that retain an expert. -/
def Dev.retains (d : Dev) (f job base e crc : Nat) : Option Retained :=
  (d.fac.retained.find? fun r => r.1 = f ∧ r.2.job = job ∧ r.2.table = base ∧ r.2.expert = e ∧ r.2.crc = crc).map (·.2)

/-- Notes the use of a retained expert. -/
def Dev.useRetained (d : Dev) (f job base e : Nat) : Dev :=
  let touch (y : Nat × Retained) : Nat × Retained :=
    if y.1 = f ∧ y.2.job = job ∧ y.2.table = base ∧ y.2.expert = e then (y.1, { y.2 with used := d.time }) else y
  { d with fac := { d.fac with retained := d.fac.retained.map touch } }

/-- Eligible facets of a node in the order of R321; `key` gives TABLE_BASE and entry CRC of its expert when known. -/
def Dev.placement (d : Dev) (x : Inst) (n : Node) (key : Option (Nat × Nat)) : List Nat :=
  let lost : Bool := d.top.degraded
  let all := (List.range 320).filter fun f =>
    d.facetFor x.lane f
      && (bits n.affinity 60 4 != 3 || !bit n.affinity 1 || lost || facetHalf f == Half.ofCode (n.affinity % 2))
  let west := (all.filter (· < 160)).length
  let east := all.length - west
  let e := bits n.affinity 0 16
  let more : Half := if west > east then .west else if east > west then .east else Half.ofCode e
  let res : Option Half := match key with
    | some (base, crc) => (d.residentOf .west x.job base e crc).map (·.1)
    | none => none
  let rank (f : Nat) : Nat :=
    let late := if n.avoid.contains f then 8 else 0
    if bits n.affinity 60 4 = 3 then late + b2n (facetHalf f != Half.ofCode (n.affinity % 2))
    else
      match n.expertOf with
      | none => late
      | some _ =>
        late + (if (match key with | some (b, c) => (d.retains f x.job b e c).isSome | none => false) then 0
                else if res = some (facetHalf f) then 1 else if facetHalf f = more then 2 else 3)
  sortBy (fun (a b : Nat) => decide (rank a < rank b) || (rank a == rank b && decide (a < b))) all

/-- Commit-log bytes that stand in a facet's name (R188): the allowance of the instance that runs on it, and the logs of the
instances of uncommitted commands that have ended there. -/
def Dev.logOf (d : Dev) (f : Nat) : Nat :=
  (match d.run f with | some r => if r.drain then 0 else logAllowance | none => 0)
    + sumBy d.tgu.insts fun p => sumBy p.2.nodes fun n => sumBy (n.logBy.filter fun l => l.1 = f) (·.2.1)

/-- What logs hold of the 1 GiB reserve: what does not fit their facets' areas of 256 KiB. -/
def Dev.logReserve (d : Dev) : Nat :=
  sumBy (((d.fac.runs.map (·.1)) ++ d.tgu.insts.flatMap fun p => p.2.nodes.flatMap fun n => n.logBy.map (·.1)).eraseDups) fun f =>
    d.logOf f - 262144

/-- Whether the allowance of one more instance can be reserved on a facet, with `used` bytes of the reserve taken. -/
def Dev.logRoom (d : Dev) (used f : Nat) : Bool :=
  let n := d.logOf f
  decide (used + ((n + logAllowance - 262144) - (n - 262144)) ≤ 2 ^ 30)

/-- The facets among some on which one more instance can start (R188). -/
def Dev.withRoom (d : Dev) (fs : List Nat) : List Nat := let used := d.logReserve; fs.filter fun f => d.logRoom used f

/-- Whether facets can take a KERNEL or MATMUL now; a node of a FROZEN entry needs none (R229). -/
def Wk.facetsFree (w : Wk) (d : Dev) (seq i : Nat) : Bool :=
  match d.inst seq with
  | none => false
  | some x =>
    match x.nodes[i]? with
    | none => false
    | some n =>
      let w := { w with dev := d }
      w.frozen x n || (w.chainFree seq i && !(d.withRoom (d.placement x n none)).isEmpty)

/-! ### KERNEL (R149 to R152) -/

/-- RETAIN of a half. -/
def Dev.retainOf (d : Dev) (h : Half) : Nat := bits (d.rn h Reg.TGU_FACET_RETAIN) 0 15

/-- SLOT_SECTORS of a SLOT_TYPE. -/
def slotSectors (ty : Nat) : Nat := 1 + plainSectors ty 0

/-- The flags word of a KERNEL. -/
def kFlags (nb : List Byte) : Nat := fld nb 0x2C 4

/-- The fetch that feeds a stream consumer: a predecessor with its TABLE_SLOT. -/
def Dev.feeder (d : Dev) (seq i : Nat) (n : Node) : Option Fetch :=
  match n.expertOf with
  | none => none
  | some (slot, _) => d.efu.fetches.find? fun f =>
      f.seq == seq && f.slot == slot && f.st != .prefetch && (match d.node seq f.node with | some m => m.succ.contains i | none => false)

/-- The operand check of R150. -/
def Dev.kernelOk (d : Dev) (seq i : Nat) (n : Node) (nb : List Byte) : Bool :=
  let c := kFlags nb
  let stream := bit c 1
  let ty := bits c 8 8
  let retain := max (d.retainOf .west) (d.retainOf .east)
  let slots := match d.feeder seq i n with | some f => if stream then f.tiles * slotSectors ty else 0 | none => 0
  let scratch := bits c 16 16
  bits (fld nb 0x28 4) 13 19 == 0 && bits c 4 4 == 0 && !bit c 0 && bits (fld nb 0x30 4) 24 8 == 0 && fld nb 0x34 4 == 0
    && fld nb 0x20 8 % 8 == 0
    && (if stream then
          decide (retain + slots ≤ 49152) && fld nb 0x30 4 == 0 && bits n.affinity 60 4 == 1 && (d.feeder seq i n).isSome && tyOk ty
        else ty == 0 && !bit c 2)
    && decide ((scratch : Int) ≤ 49152 - (retain : Int) - (slots : Int))

/-- The run of a command on a facet, its code not loaded yet. -/
def Dev.newRun (d : Dev) (f seq i : Nat) (x : Inst) (n : Node) (nb : List Byte) (index slotTiles : Nat) : FacetRun :=
  let c := kFlags nb
  let ss := slotSectors (bits c 8 8)
  let r : FacetRun :=
    { seq := seq, node := i, attempt := n.attempt, index := index, count := bits (fld nb 0x30 4) 0 24 + 1, job := x.job, strict := x.strict,
      nb := nb, loaded := false, code := [], pc := 0, s := [], tp := [], v := [], acc := [], scratch := [], calls := [], logUsed := 0,
      logAll := 0, groups := [], incoming := [], nextLoad := 0, window := none, waiting := none, steps := 0,
      scratchSec := bits c 16 16, slotBase := 49152 - d.retainOf (facetHalf f) - slotTiles * ss, slotSec := ss, slotTiles := slotTiles,
      ring := List.replicate slotTiles none, delivered := 0, drain := false, expert := none, capture := false, caught := [], replay := false,
      fod := bit c 3, sfod := n.sfod.getD false, started := d.time, takenAt := d.time, lent := d.facetLent x.lane f,
      lane := d.laneOf f }
  r.reset index d.time

/-- A node takes a facet. -/
def Dev.takeFacet (d : Dev) (f : Nat) (r : FacetRun) : Dev :=
  (d.setRun f r).onNode r.seq r.node fun n => { n with facets := n.facets ++ [f], nextIndex := n.nextIndex + 1 }

/-- A facet leaves its command. -/
def Dev.leaveFacet (d : Dev) (f : Nat) : Dev :=
  match d.run f with
  | none => d
  | some r =>
    let ns := d.time - r.takenAt
    let d := if r.lent then d.count (facetHalf f) Reg.TGU_LANE_LENT_LO (ns * d.facetMhz f / 1000) else d
    (d.dropRun f).onNode r.seq r.node fun n => { n with heldNs := n.heldNs + ns, facets := n.facets.filter (· ≠ f) }

/-- FAULT_ON_DROP of TGU_SPARSE_CFG, taken at a node's first dispatch (R209). -/
def Dev.latchSparse (d : Dev) (seq i : Nat) : Dev :=
  d.onNode seq i fun n => { n with sfod := some (n.sfod.getD (bit (d.rn d.leadHalf Reg.TGU_SPARSE_CFG) 0)) }

/-- Whether a READY node of higher priority could use a facet (step 3 of R321). -/
def Wk.higherWants (w : Wk) (f : Nat) (x : Inst) : Bool :=
  let d' := w.dev.dropRun f
  w.dev.tgu.insts.any fun p => p.2.prio > x.prio ∧ (List.range p.2.nodes.length).any fun j =>
    match p.2.nodes[j]? with
    | some m => m.st = .ready && m.opcode / 256 == 1 && !m.remoteOff && w.facetsFree d' p.1 j && (d'.placement p.2 m none).contains f
    | none => false

/-- A stream consumer whose tiles have all come and whose instance has ended leaves its facet. -/
def Wk.consumerDone (w : Wk) (f : Nat) : Wk :=
  match w.dev.run f with
  | none => w
  | some r =>
    let due : Bool := match w.dev.node r.seq r.node with | some n => n.tiles | none => false
    if ¬ r.drain ∨ due then w
    else
      let acts : List CommitAct := match r.expert with
        | some (base, e, crc) =>
          if r.capture then
            [.retain f { job := r.job, table := base, expert := e, crc := crc, sectors := sumBy r.caught (·.length) / 32, tiles := r.caught,
                         used := w.dev.time }]
          else []
        | none => []
      w.upd fun d => ((d.addActs r.seq r.node acts).leaveFacet f).engineDone r.seq r.node

/-- END: the instance ends, and the facet takes the next one or leaves the command (R152, R321). -/
def Wk.facetEnd (w : Wk) (f : Nat) (r : FacetRun) : Wk :=
  match w.dev.inst r.seq, w.dev.node r.seq r.node with
  | some x, some n =>
    let w := w.fcount f Reg.TGU_FACET_INSTANCES_LO 1
    let w := w.upd fun d =>
      (d.addActs r.seq r.node [.count (facetHalf f) Reg.TGU_FACET_LOG_BYTES_LO r.logUsed]).onNode r.seq r.node fun n =>
        { n with ended := n.ended + 1, logBy := if r.logUsed = 0 then n.logBy else n.logBy ++ [(f, r.logUsed, r.index)] }
    if r.slotTiles ≠ 0 then
      (w.upd (·.setRun f { r with drain := true, ring := List.replicate r.slotTiles none })).consumerDone f
    else if n.nextIndex < r.count ∧ ¬ (w.dev.picOf f).quar ∧ ¬ w.higherWants f x ∧ ¬ ((w.dev.dropRun f).withRoom [f]).isEmpty then
      w.upd fun d =>
        (d.setRun f { r.reset n.nextIndex d.time with logAll := r.logAll, nextLoad := r.nextLoad }).onNode r.seq r.node fun n =>
          { n with nextIndex := n.nextIndex + 1 }
    else
      let w := w.upd (·.leaveFacet f)
      if n.ended + 1 = r.count then w.upd (·.engineDone r.seq r.node) else w
  | _, _ => w

/-- TABLE_BASE and entry CRC of the expert that an expert-kind node is placed for, once its fetch has read the entry (R321). -/
def Dev.expertKey (d : Dev) (seq i : Nat) (n : Node) : Option (Nat × Nat) :=
  match n.expertOf, d.feeder seq i n with
  | some (_, e), some f => (aget f.entries e).map fun en => (f.base, en.crc)
  | _, _ => none

/-- Hands instances of a command to free facets, lowest index first, while allowances can be reserved. -/
def Wk.spread (w : Wk) (seq i : Nat) (x : Inst) (nb : List Byte) : Wk :=
  match w.dev.node seq i with
  | none => w
  | some n =>
    let count := bits (fld nb 0x30 4) 0 24 + 1
    (w.dev.placement x n (w.dev.expertKey seq i n)).foldl
      (fun w f =>
        match w.dev.node seq i with
        | none => w
        | some n =>
          if n.nextIndex ≥ count ∨ (w.dev.withRoom [f]).isEmpty then w
          else w.upd fun d => d.takeFacet f (d.newRun f seq i x n nb n.nextIndex 0))
      w

/-- What a stream consumer lacks a feed for: its expert was never to be started, or its fetch completed NULL_COMPLETED. -/
def Fetch.unfed (f : Fetch) (e : Nat) : Bool := f.isNull || !(f.demand.contains e)

/-- Places a stream consumer on a facet: retained, it replays; otherwise it waits for tiles (R107, R148). Answers whether
tiles must be delivered. -/
def Wk.seat (w : Wk) (seq i : Nat) (x : Inst) (n : Node) (nb : List Byte) (ft : Fetch) (e : Nat) (en : Entry) (f : Nat) : Wk × Bool :=
  let r := w.dev.newRun f seq i x n nb 0 ft.tiles
  let hit := w.dev.retains f x.job ft.base e en.crc
  let fits : Bool := decide (en.dense ≤ w.dev.retainOf (facetHalf f))
  let r := { r with expert := some (ft.base, e, en.crc), capture := bit (kFlags nb) 2 && hit.isNone && fits,
                    replay := hit.isSome, caught := match hit with | some h => h.tiles | none => [] }
  let w := w.upd fun d =>
    (d.takeFacet f r.refill).onNode seq i fun n => { n with tiles := hit.isNone, count := 1 }
  match hit with
  | none => (w, true)
  | some _ =>
    (w.upd fun d =>
      (d.useRetained f x.job ft.base e).count (facetHalf f) Reg.TGU_FACET_RETAIN_HIT_LO 1, false)

/-- Dispatch of a stream consumer by itself: its expert is read again for it alone (R109, R115), or it waits for the fetch's
re-run to start the expert. An entry that fails ends the fetch's attempt while it runs, and the consumer's once the fetch
has committed (R142). -/
def Wk.seatAlone (w : Wk) (seq i : Nat) (x : Inst) (n : Node) (nb : List Byte) (ft : Fetch) (e : Nat) : Wk :=
  if ft.unfed e ∨ e < ft.first ∨ e > ft.last then w.fail seq i stFetch 0
  else
    match w.entryOnce seq ft.node x.job ft.base e with
    | .error er => w.raiseStatus seq (if ft.st = .running then ft.node else i) er.1 er.2 w.dev.leadHalf
    | .ok (w, en) =>
      if en.ty ≠ bits (kFlags nb) 8 8 then w.fail seq i stFacetOperand 0
      else
        match (w.dev.placement x n (some (ft.base, en.crc))).head? with
        | none => w
        | some f =>
          let p := w.seat seq i x n nb ft e en f
          if ¬ p.2 ∨ ft.st = .waiting ∨ (ft.st = .running ∧ ¬ ft.begun.contains e) then p.1
          else
            match p.1.dev.streamOf ft e en [(i, f)] [f] true with
            | none => p.1.fail seq i stFetch 0
            | some s => p.1.beginStream ft s i

/-- The KERNEL command: a stream consumer gets its facet by `feed`, every other command spreads over free facets. -/
def Wk.runKernelBy (w : Wk) (seq i : Nat) (x : Inst) (nb : List Byte) (feed : Wk → Node → Fetch → Nat → Wk) : Wk :=
  match w.dev.node seq i with
  | none => w
  | some n =>
    w.withGradient seq i x n none fun w =>
      if ¬ w.dev.kernelOk seq i n nb then w.fail seq i stKernel 0
      else
        let w := w.upd (·.latchSparse seq i)
        if bit (kFlags nb) 1 then
          match w.dev.feeder seq i n, w.dev.node seq i with
          | some ft, some n => feed w n ft (bits n.affinity 0 16)
          | _, _ => w
        else
          let w := w.upd fun d => d.onNode seq i fun n => { n with count := bits (fld nb 0x30 4) 0 24 + 1 }
          w.spread seq i x nb

/-- A KERNEL dispatched by itself. -/
def Wk.runKernel (w : Wk) (seq i : Nat) (x : Inst) (nb : List Byte) : Wk :=
  w.runKernelBy seq i x nb fun w n ft e => w.seatAlone seq i x n nb ft e

/-- KERNEL. A KERNEL that is RUNNING with instances left takes the facets that have become free. -/
def execKernel (inst node now : Nat) (s : State) : Host.Outcome State Fault Refusal :=
  finish s <|
    let w := s.start.at_ now
    match w.dev.inst inst, w.dev.node inst node with
    | some x, some n =>
      if n.st = .running ∧ n.opcode = 0x100 ∧ n.nextIndex < n.count ∧ w.dev.dispatching
          ∧ ¬ w.outranked inst node x 0x100 (w.facetsFree w.dev) then
        match w.rdForm x.job x.fn (x.base + 128 * node) 128 with
        | .error _ => w
        | .ok nb => w.spread inst node x nb
      else (w.dispatch inst node 0x100 w.facetsFree false noNull fun w x _ nb => w.runKernel inst node x nb).upd (·.fetchScan)
    | _, _ => w

/-- CODE_LOAD: the code is read into instruction memory and the instance starts (R147). -/
def Wk.codeLoad (w : Wk) (f : Nat) : Wk :=
  match w.dev.run f with
  | none => w
  | some r =>
    match w.dev.inst r.seq with
    | none => w
    | some _ =>
      if r.loaded then w
      else
        let n := bits (fld r.nb 0x28 4) 0 13 + 1
        match w.rdLocal r.job (fld r.nb 0x20 8) (8 * n) with
        | .error e => w.facetFail r e.1 e.2
        | .ok bs =>
          (w.ingress f (8 * n)).upd (·.setRun f { r with loaded := true, code := (chunks 8 bs).map fun c => w64 (ofBytes c), started := w.dev.time })

/-- CODE_LOAD. -/
def execCodeLoad (facet now : Nat) (s : State) : Host.Outcome State Fault Refusal := finish s ((s.start.at_ now).codeLoad facet)

/-- The body of an instruction that can wait. -/
def waitBody (op : Nat) : Option (Wk → Nat → FacetRun → Nat → Res) :=
  match op with
  | 0x60 => some bodyWaitPiece
  | 0x61 => some bodyWaitAny
  | 0x63 => some bodyWaitGroup
  | 0x70 => some bodyRload
  | 0x71 => some bodyRloadt
  | _ => none

/-- WAIT_COMPLETE: a waiting instruction is taken up again. -/
def Wk.waitComplete (w : Wk) (f : Nat) : Wk :=
  match w.dev.run f with
  | none => w
  | some r =>
    if r.waiting.isNone then w
    else
      match r.word with
      | none => w
      | some word =>
        match waitBody (word / 2 ^ 56) with
        | none => w
        | some b => w.facetStep Wk.facetEnd f (word / 2 ^ 56) b

/-- WAIT_COMPLETE. -/
def execWaitComplete (facet now : Nat) (s : State) : Host.Outcome State Fault Refusal := finish s ((s.start.at_ now).waitComplete facet)

/-- FACET_WATCHDOG (R191). -/
def execFacetWatchdog (facet now : Nat) (s : State) : Host.Outcome State Fault Refusal :=
  finish s <|
    let w := s.start.at_ now
    match w.dev.run facet with
    | none => w
    | some r =>
      let us := w.dev.rn (facetHalf facet) Reg.TGU_FACET_WATCHDOG
      if r.loaded ∧ ¬ r.drain ∧ us ≠ 0 ∧ r.started + 1000 * us < w.dev.time then w.facetFail r stWatchdog 0 else w

/-! ### MATMUL (R153, R154) -/

/-- M_TILES. -/
def mmM (nb : List Byte) : Nat := fld nb 0x40 2
/-- N_TILES. -/
def mmN (nb : List Byte) : Nat := fld nb 0x42 2
/-- K_TILES. -/
def mmK (nb : List Byte) : Nat := fld nb 0x44 2
/-- The word at 0x48. -/
def mmC (nb : List Byte) : Nat := fld nb 0x48 4

/-- The operand check of R153. -/
def matmulOk (nb : List Byte) : Bool :=
  let c := mmC nb
  fld nb 0x46 2 == 0 && bits c 7 9 == 0 && bits c 0 2 == 0 && zeroFrom nb 0x4C && mmM nb != 0 && mmN nb != 0 && mmK nb != 0
    && tyOk (bits c 16 8) && bits c 5 2 != 3

/-- A tile read for an instance: its header tells how much follows; then CRC and format (R57). -/
def Wk.facetTile (w : Wk) (r : FacetRun) (a : Nat) : Except (Nat × Nat) Tile :=
  match w.fread r a 32 32 with
  | .error e => .error e
  | .ok hb =>
    match storedSectors hb with
    | none => .error (stTileFormat, a)
    | some n =>
      match w.fread r a (32 + 32 * n) 32 with
      | .error e => .error e
      | .ok bs => match openTile false bs with | .error st => .error (st, a) | .ok t => .ok t

/-- A tile of a grid whose first tile gives its stored length: R72, with the format faults of R57. -/
def Wk.gridTile (w : Wk) (r : FacetRun) (base cols i j : Nat) (dense : Bool) : Except (Nat × Nat) Tile :=
  match w.facetTile r base with
  | .error e => .error e
  | .ok t0 =>
    let s := 32 * (1 + plainSectors t0.hdr.ty t0.hdr.sparsity)
    let a := base + (i * cols + j) * s
    match if a = base then .ok t0 else w.facetTile r a with
    | .error e => .error e
    | .ok t =>
      if t.hdr.ty ≠ t0.hdr.ty ∨ t.hdr.sparsity ≠ t0.hdr.sparsity ∨ t.hdr.trow ≠ i ∨ t.hdr.tcol ≠ j ∨ (dense ∧ t.hdr.sparsity ≠ 0) then
        .error (stTileFormat, a)
      else .ok t

/-- A failed tile read of a MATMUL. -/
def gridFails (w : Wk) (e : Nat × Nat) : Res := if e.1 = stTileCrc then .soft w e.1 e.2 else .fatal w e.1 e.2

/-- `n` tiles of a grid row or column, with their bytes counted through ingress. -/
def Wk.gridTiles (w : Wk) (f : Nat) (r : FacetRun) (base cols : Nat) (at_ : List (Nat × Nat)) (dense : Bool) : Except (Nat × Nat) (Wk × List Tile) :=
  at_.foldl
    (fun (a : Except (Nat × Nat) (Wk × List Tile)) p =>
      match a with
      | .error e => .error e
      | .ok (w, l) =>
        match w.gridTile r base cols p.1 p.2 dense with
        | .error e => .error e
        | .ok t => .ok (w.ingress f (32 * (1 + t.hdr.sectors)), l ++ [t]))
    (.ok (w, []))

/-- The MMAs of one C tile: F tiles in k at a time, the rest one at a time in F64. The first argument bounds their
number. -/
def matmulSteps (f : Nat) (r : FacetRun) (nb : List Byte) (i j fold : Nat) : Nat → Nat → Wk → List Nat → (Wk → List Nat → Res) → Res
  | 0, _, w, acc, fin => fin w acc
  | fuel + 1, k, w, acc, fin =>
    if k ≥ mmK nb then fin w acc
    else
      let F := 2 ^ fold
      let here := if mmK nb - k ≥ F then F else 1
      let form := bit (mmC nb) 4
      let ks := (List.range here).map (k + ·)
      match w.gridTiles f r (fld nb 0x20 8) (mmK nb) (ks.map fun k => (i, k)) true with
      | .error e => gridFails w e
      | .ok (w, as) =>
        match w.gridTiles f r (fld nb 0x28 8) (if form then mmN nb else mmK nb) (ks.map fun k => if form then (k, j) else (j, k)) false with
        | .error e => gridFails w e
        | .ok (w, bs) =>
          Res.mma w f r (if here = F then fold else 0) 0 form false acc as bs fun w acc => matmulSteps f r nb i j fold fuel (k + here) w acc fin

/-- One instance of a MATMUL: C tile (i, j). -/
def matmulOne (w : Wk) (f : Nat) (r : FacetRun) (nb : List Byte) (i j : Nat) : Res :=
  let cin := fld nb 0x38 8
  match w.gridTile r (fld nb 0x20 8) (mmK nb) i 0 true with
  | .error e => gridFails w e
  | .ok a0 =>
    let start : Except (Nat × Nat) (Wk × List Nat) :=
      if cin = 0 then .ok (w, List.replicate 4096 0)
      else
        match w.gridTiles f r cin (mmN nb) [(i, j)] true with
        | .error e => .error e
        | .ok (w, ts) => .ok (w, match ts with | t :: _ => loadAcc (List.replicate 4096 0) t.view 0 64 false | [] => [])
    match start with
    | .error e => gridFails w e
    | .ok (w, acc) =>
      let c := mmC nb
      let auto := if a0.hdr.rows ≤ 16 then 2 else if a0.hdr.rows ≤ 32 then 1 else 0
      let fold := if bits c 2 2 = 3 then auto else bits c 2 2
      matmulSteps f r nb i j fold (mmK nb) 0 w acc fun w acc =>
        let h := Hdr.fresh (bits c 16 8) a0.hdr.rows 64 i j scaleOne false
        let t := (storeAcc h (w.conv r (bits c 5 2) (bits c 24 8)) acc 0 64).stored
        let a := fld nb 0x30 8 + (i * mmN nb + j) * t.length
        match fwriteOk a 32 with
        | .error e => .fatal w e.1 e.2
        | .ok _ => .done (w.fstage f r [⟨a, t⟩]) r

/-- The node's bytes with the row count that its shape gives (R318). -/
def matmulBytes (n : Node) (nb : List Byte) : List Byte :=
  match n.shape with
  | some v => nb.take 0x40 ++ toBytes 2 (min (mmM nb) (cdiv v 64)) ++ nb.drop 0x42
  | none => nb

/-- The facets that a MATMUL of `total` instances takes: as many of those eligible as it has instances for. -/
def Dev.matmulFacets (d : Dev) (seq i : Nat) (x : Inst) (n : Node) (total : Nat) : List Nat :=
  (d.withRoom (d.placement x n (d.expertKey seq i n))).take total

/-- A MATMUL takes its facets. They run its built-in code, which no command steps, and stand taken until its commit or kill
(R342; how long its instances run is out of scope, assumption 11). -/
def Dev.takeMatmul (d : Dev) (seq i : Nat) (x : Inst) (n : Node) (nb : List Byte) (fs : List Nat) : Dev :=
  fs.foldl (fun d f => d.takeFacet f { d.newRun f seq i x n nb 0 0 with loaded := true, drain := true, scratchSec := 0 }) d

/-- The instances of a MATMUL, in ascending index: each facet that ends one takes the next; whether one ended the attempt. -/
def Wk.matmulAll (w : Wk) (seq i : Nat) (x : Inst) (n : Node) (nb : List Byte) : Wk × Bool :=
  let total := mmM nb * mmN nb
  let fs := w.dev.matmulFacets seq i x n total
  let sfod := match w.dev.node seq i with | some n => n.sfod.getD false | none => false
  (List.range total).foldl
    (fun (a : Wk × Bool) k =>
      if a.2 then a
      else
        let f := nth fs (k % fs.length) 0
        let r := { w.dev.newRun f seq i x n nb k 0 with count := total, sfod := sfod, scratchSec := 0 }
        match matmulOne a.1 f r nb (k / mmN nb) (k % mmN nb) with
        | .fatal w st d0 => (w.facetFail r st d0, true)
        | .soft w st d0 => (w.contained seq i st d0 (some f) (facetHalf f) (facetIsland f), true)
        | .done w _ => (w.fcount f Reg.TGU_FACET_INSTANCES_LO 1, !(match w.dev.node seq i with | some n => n.st == .running | none => false))
        | _ => (a.1, true))
    (w.upd fun d => d.takeMatmul seq i x n nb fs, false)

/-- MATMUL: its instances' work is done in its dispatch, over the facets that it takes. -/
def Wk.runMatmul (w : Wk) (seq i : Nat) (x : Inst) (nb0 : List Byte) : Wk :=
  match w.dev.node seq i with
  | none => w
  | some n =>
    let nb := matmulBytes n nb0
    w.withGradient seq i x n (some (bits (mmC nb) 16 8, fld nb 0x38 8, fld nb 0x30 8, mmM nb, mmN nb)) fun w =>
      if ¬ matmulOk nb then w.fail seq i stKernel 0
      else
        let total := mmM nb * mmN nb
        let a := (w.upd (·.latchSparse seq i)).matmulAll seq i x n nb
        if a.2 then a.1 else a.1.upd fun d => (d.onNode seq i fun n => { n with count := total, nextIndex := total, ended := total }).engineDone seq i

/-- MATMUL. -/
def execMatmul (inst node now : Nat) (s : State) : Host.Outcome State Fault Refusal :=
  finish s <|
    let w := s.start.at_ now
    (w.dispatch inst node 0x101 w.facetsFree false noNull fun w x _ nb => w.runMatmul inst node x nb).upd (·.fetchScan)

/-- The facets that a MATMUL holds leave it at its commit. -/
def Wk.releaseMatmul (w : Wk) (n : Node) : Wk :=
  if n.opcode ≠ 0x101 then w else n.facets.foldl (fun w f => w.upd (·.leaveFacet f)) w

end Sys2Proof.Machine
end

