-- ==== Sys2Proof/Machine/Efu.lean ====
section
/-! DEFINITION. FETCH_EXPERTS: dispatch, experts started and passed, tiles multicast, prefetch, residency and exchange
(R101 to R126). -/

namespace Sys2Proof.Machine

open Sys2Proof

/-! ### Residency (R116) -/

/-- EFU_RESIDENT_LIMIT of a half in bytes. -/
def Dev.residentLimit (d : Dev) (h : Half) : Nat := bits (d.rn h Reg.EFU_RESIDENT_LIMIT) 0 9 * 2 ^ 20

/-- Evicts what a lowered EFU_RESIDENT_LIMIT leaves no room for (R116). -/
def Dev.residentTrim (d : Dev) (h : Half) : Dev := d.evictUntil h fun d => decide (d.residentLimit h < d.residentBytes h)

/-- A change of an entry's CRC evicts the copies made under the old one (R116). -/
def Dev.residentStale (d : Dev) (job base e crc : Nat) : Dev :=
  let keep (r : Resident) : Bool := !(r.job == job && r.base == base && r.expert == e && r.crc != crc)
  d.onEfu fun u => { u with residents := ⟨u.residents.w.filter keep, u.residents.e.filter keep⟩ }

/-- Whether an expert's LOCATION lies in a COLD page of this device, which no resident copy is made of (R248). -/
def Dev.coldAt (d : Dev) (en : Entry) : Bool :=
  en.dev == d.me && (match d.bufAt en.loc with | some b => b.flags % 4 == 2 | none => false)

/-- Keeps the copy a stream has made, when KEEP_RESIDENT, the limits and the quota let it (R116). An expert served from
prefetch staging was read from T2 to T4 by its node and is kept too (DESIGN CHOICE). -/
def Dev.keepResident (d : Dev) (f : Fetch) (s : Stream) (tiles : List (List Byte)) : Dev :=
  let n := sumBy tiles (·.length)
  let limit := d.residentLimit s.half
  let mine := sumBy d.efu.fetches fun f => sumBy (f.made.filter fun m => m.1 = s.half) fun m => m.2.bytes
  if ¬ f.keep ∨ s.source = 2 ∨ d.coldAt s.entry ∨ limit < mine + n then d
  else
    let d := d.evictUntil s.half fun d => decide (limit < d.residentBytes s.half + n ∨ d.uncarvedFree s.half < n)
    if d.uncarvedFree s.half < n ∨ ¬ d.quotaAllows f.client true n then d
    else
      let r : Resident := { job := f.job, base := f.base, expert := s.expert, crc := s.entry.crc, tiles := tiles, bytes := n, client := f.client,
                            used := d.time }
      d.onFetch f.seq f.node fun f => { f with made := f.made ++ [(s.half, r)] }

/-- What the commit of a FETCH_EXPERTS does in the EFUs: its copies become usable, and its demand goes into its predictor
slot of both halves (R114, R116, R117). -/
def Dev.fetchCommit (d : Dev) (seq i : Nat) : Dev :=
  match d.fetch seq i with
  | none => d
  | some f =>
    let into (l : List Resident) (h : Half) : List Resident :=
      let new := (f.made.filter fun m => m.1 = h).map (·.2)
      (l.filter fun r => ¬ new.any fun n => n.job = r.job ∧ n.base = r.base ∧ n.expert = r.expert) ++ new
    let learn (l : List (Nat × Pred)) : List (Nat × Pred) :=
      let old := match aget l f.slot with | some p => if p.job = f.job ∧ p.base = f.base then p.bits else [] | none => []
      aput l f.slot ⟨f.job, f.base, sortBy (fun (a b : Nat) => decide (a < b)) ((old.filter fun e => e < f.first ∨ f.last < e) ++ f.demand)⟩
    let d := d.onEfu fun u =>
      { u with residents := ⟨into u.residents.w .west, into u.residents.e .east⟩, preds := ⟨learn u.preds.w, learn u.preds.e⟩ }
    let d := d.onFetch seq i fun f => { f with made := [] }
    [Half.west, Half.east].foldl (fun d h => (d.evictUntil h fun d => decide (8192 < (d.efu.residents.get h).length)).residentTrim h) d

/-- EFU_PRED_CLEAR: one slot, or all of a half. -/
def Dev.predClear (d : Dev) (h : Half) (v : Nat) : Dev :=
  d.onEfu fun u => { u with preds := u.preds.set h (if bit v 8 then [] else adel (u.preds.get h) (v % 256)) }

/-! ### Operands and demand (R101 to R104) -/

/-- The word at 0x48. -/
def fWord (nb : List Byte) : Nat := fld nb 0x48 4

/-- EXPERT_COUNT. -/
def fCount (nb : List Byte) : Nat := bits (fWord nb) 16 16 + 1

/-- The named areas. -/
def fAreas (nb : List Byte) : List Nat := ([0x28, 0x30, 0x38, 0x40].map fun o => fld nb o 8).filter (· ≠ 0)

/-- The record that a node's operands give. -/
def fetchOf (seq i : Nat) (x : Inst) (nb : List Byte) : Fetch :=
  let c := fWord nb
  { seq := seq, node := i, st := .running, isNull := false, job := x.job, fn := x.fn, client := x.client, base := fld nb 0x20 8,
    areas := fAreas nb, e := fCount nb, slot := bits c 8 8, prefetch := bit c 7, keep := bit c 6, mode := bits c 4 2,
    first := fld nb 0x4C 2, last := fld nb 0x4E 2, tiles := bits (fld nb 0x50 4) 0 7, group := bits (fld nb 0x54 4) 0 6, entries := [], predicted := [],
    staged := [], demand := [], passed := 0, freed := [], begun := [], streams := [], made := [], op := none, demands := [], served := false,
    exch := [] }

/-- The checks of R102 that need only the operands. -/
def fetchOk (nb : List Byte) : Bool :=
  let c := fWord nb
  let mode := bits c 4 2
  mode != 3 && bits c 0 4 == 0 && bits (fld nb 0x50 4) 7 25 == 0 && bits (fld nb 0x54 4) 6 26 == 0 && zeroFrom nb 0x58
    && fld nb 0x20 8 % 4096 == 0 && fld nb 0x28 8 != 0 && decide (fld nb 0x4C 2 ≤ fld nb 0x4E 2) && decide (fld nb 0x4E 2 < fCount nb)
    && decide (2 ≤ bits (fld nb 0x50 4) 0 7 ∧ bits (fld nb 0x50 4) 0 7 ≤ 64) && (mode == 2 || fld nb 0x54 4 == 0)

/-- Offset of the demand bitmap in a route area of `e` experts (R80). -/
def offDemand (e : Nat) : Nat := 0x40 + (8 * e + 63) / 64 * 64

/-- The demand bitmap of one area: none when its header is not this job's or its experts differ. -/
def Wk.areaDemand (w : Wk) (job e a : Nat) : Except (Nat × Nat) (List Byte) :=
  match w.rdLocal job a 64 with
  | .error er => .error er
  | .ok hb =>
    if fld hb 2 2 ≠ 1 ∨ bits (fld hb 0x20 4) 0 20 ≠ job ∨ bits (fld hb 4 4) 0 17 ≠ e then .error (stFetch, 0)
    else w.rdLocal job (a + offDemand e) (bitmapBytes e)

/-- The demand of a node: the union over its areas, in range. -/
def Wk.demandOf (w : Wk) (f : Fetch) : Except (Nat × Nat) (List Nat) :=
  let u := f.areas.foldl
    (fun (acc : Except (Nat × Nat) (List Byte)) a =>
      match acc with
      | .error er => .error er
      | .ok m =>
        match w.areaDemand f.job f.e a with
        | .error er => .error er
        | .ok b => .ok (mapOr m b))
    (.ok (List.replicate (bitmapBytes f.e) 0))
  match u with
  | .error er => .error er
  | .ok m => .ok ((List.range f.e).filter fun e => f.first ≤ e && e ≤ f.last && mapBit m e)

/-! ### Consumers released (R110) -/

/-- Releases, once each, the stream consumers of a fetch whose expert satisfies a test. -/
def Wk.freeConsumers (w : Wk) (f : Fetch) (p : Nat → Bool) : Wk :=
  (w.dev.consumers f.seq f.node f.slot).foldl
    (fun w c =>
      match w.dev.node f.seq f.node with
      | none => w
      | some n =>
        if n.given.contains c.1 ∨ ¬ p c.2.2 then w
        else (w.upd fun d => d.onNode f.seq f.node fun n => { n with given := n.given ++ [c.1] }).releaseOne f.seq c.2.1)
    w

/-- Passes experts that are not demanded, from one expert up to another. -/
def Wk.passExperts (w : Wk) (f : Fetch) (lo hi : Nat) : Wk :=
  w.freeConsumers f fun e => decide (lo ≤ e ∧ e < hi) && !f.demand.contains e

/-- Passes what stands after the last demanded expert. -/
def Wk.passRest (w : Wk) (seq i : Nat) : Wk :=
  match w.dev.fetch seq i with
  | none => w
  | some f => if (w.dev.fetchNext f).isSome then w else w.passExperts f f.passed (f.last + 1)

/-! ### Exchange (R122 to R124) -/

/-- Body of a DEMAND or REPAIR (R123). -/
def exchBody (f : Fetch) (seq epoch kind expert : Nat) (map : List Byte) : List Byte :=
  toBytes 4 seq ++ toBytes 4 epoch ++ toBytes 2 f.first ++ toBytes 2 f.last
    ++ toBytes 4 (kind * 2 ^ 24 + f.slot * 2 ^ 16 + expert % 2 ^ 16) ++ map

/-- The checks of R57 on a tile of an expert at an offset: against its entry and, at the last tile, the stored length and the
matrices begun. -/
def Entry.fits (en : Entry) (h : Hdr) (fin mats : Nat) (last : Bool) : Bool :=
  h.ty == en.ty && h.sparsity == en.sparsity && (!last || (fin == 32 * en.secs && mats == en.mats))

/-- The stored tiles of an expert of this device, in order, each with its bytes and whether it is RAW, checked as R56 and R57
say. The first argument counts those left; then the offset and the matrices begun. -/
def Wk.storedTiles (w : Wk) (job : Nat) (en : Entry) : Nat → Nat → Nat → Except (Nat × Nat) (List (List Byte × Bool))
  | 0, _, _ => .ok []
  | k + 1, off, mats =>
    let a := en.loc + off
    match w.rdLocal job a 32 with
    | .error e => .error e
    | .ok hb =>
      match storedSectors hb with
      | none => .error (stTileFormat, a)
      | some n =>
        match w.rdLocal job a (32 + 32 * n) with
        | .error e => .error e
        | .ok bs =>
          match openTile true bs with
          | .error st => .error (st, a)
          | .ok t =>
            let mats := mats + b2n (t.hdr.trow == 0 && t.hdr.tcol == 0)
            if ¬ en.fits t.hdr (off + 32 + 32 * n) mats (k == 0) then .error (stTileFormat, a)
            else
              match w.storedTiles job en k (off + 32 + 32 * n) mats with
              | .error e => .error e
              | .ok l => .ok ((bs, (Hdr.parse bs).raw) :: l)

/-- Sends an expert of this device to members. -/
def Wk.exchSend (w : Wk) (o : CeOp) (g : Group64) (e : Nat) (ms : List Nat) (ts : List (List Byte)) : Wk :=
  ts.zipIdx.foldl
    (fun w t =>
      let word := toBytes 4 (e % 2 ^ 16)
      let f := g.frame o.seq 3 t.2
      ms.foldl
        (fun w m =>
          if t.1.length ≤ 16252 then (w.ceSend o g m (f (word ++ t.1))).1
          else
            let a := w.ceSend o g m { f (word ++ t.1.take 16252) with parts := 2 }
            (a.1.ceSend o g m { f (word ++ t.1.drop 16252) with parts := 2, part := 1 }).1)
        w)
    w

/-- The counts of an owner's read for its peers, when it shares no stream of its own with them: one with its own demand is
counted as that stream, unless a resident copy feeds it (R51, R122, R140). -/
def Dev.serveCounts (d : Dev) (f : Fetch) (e : Nat) (en : Entry) (ts : List (List Byte × Bool)) : Dev :=
  let h := stageHalf e
  let c (off n : Nat) (d : Dev) : Dev := d.fetchCount f.seq f.node h off n
  let d := c Reg.EFU_EXCHANGE_SENT_LO 1 d
  if f.demand.contains e ∧ (d.residentOf h f.job f.base e en.crc).isNone then d
  else
    c Reg.EFU_RAW_TILES_LO (ts.countP (·.2)) (c Reg.EFU_STORED_BYTES_LO (32 * en.secs) (c Reg.EFU_EXPERTS_FETCHED_LO (b2n (!f.demand.contains e)) d))

/-- An owner serves one of its experts. A tile whose CRC fails is read again twice and fails again, since nothing stands
between the reads (R112). -/
def Wk.exchServeOne (w : Wk) (o : CeOp) (g : Group64) (f : Fetch) (e : Nat) (ms : List Nat) : Wk :=
  match w.entryOnce f.seq f.node f.job f.base e with
  | .error er => w.raiseStatus f.seq f.node er.1 er.2 o.half
  | .ok (w, en) =>
    if en.dev ≠ w.dev.me then w
    else
      match w.storedTiles f.job en en.tiles 0 0 with
      | .error er =>
        let w := if er.1 = stTileCrc then w.upd (·.count (stageHalf e) Reg.EFU_TILE_REREAD_LO 2) else w
        w.raiseStatus f.seq f.node er.1 er.2 (stageHalf e)
      | .ok ts => (w.exchSend o g e ms (ts.map (·.1))).upd (·.serveCounts f e en ts)

/-- An owner that holds every DEMAND serves its experts in ascending ID. -/
def Wk.exchServe (w : Wk) (seq i : Nat) : Wk :=
  match w.dev.fetch seq i with
  | none => w
  | some f =>
    match f.op.bind w.dev.op with
    | none => w
    | some o =>
      match w.dev.group o.group with
      | none => w
      | some g =>
        if f.served ∨ f.st ≠ .running ∨ f.demands.length + 1 < g.count then w
        else
          let w := w.upd (·.onFetch seq i fun f => { f with served := true })
          (List.range (f.last + 1 - f.first)).foldl
            (fun w k =>
              let ms := (f.demands.filter fun p => mapBit p.2 k).map (·.1)
              if ms.isEmpty then w else w.exchServeOne o g f (f.first + k) ms)
            w

/-- Asks an owner for an expert again. -/
def Wk.exchRepair (w : Wk) (o : CeOp) (g : Group64) (f : Fetch) (x : ExchIn) : Wk :=
  w.ceTell o g x.owner 2 (exchBody f o.seq g.epoch 2 x.expert [])

/-- A tile of an exchanged expert that has come whole: checked, it goes to staging; otherwise the expert is asked for again,
at most twice. -/
def Wk.exchTile (w : Wk) (o : CeOp) (g : Group64) (f : Fetch) (x : ExchIn) (k : Nat) (bs : List Byte) : Wk :=
  let put (w : Wk) (y : ExchIn) : Wk :=
    w.upd (·.onFetch f.seq f.node fun f => { f with exch := f.exch.map fun z => if z.expert = y.expert then y else z })
  if k ≥ x.want ∨ (x.tiles ++ x.parked).any (fun t => t.1 = k) then w
  else
    match openTile true bs with
    | .error st =>
      if st ≠ stTileCrc then w.fail f.seq f.node st 0
      else if x.repairs ≥ 2 then w.contained f.seq f.node stTileCrc 0 none (stageHalf x.expert) (if stageHalf x.expert = .west then 6 else 25)
      else put (w.exchRepair o g f x) { x with repairs := x.repairs + 1, parts := [] }
    | .ok _ => (put w { x with parts := x.parts.filter fun p => p.1.1 ≠ k }).upd fun d => (d.exchPut f x.expert k bs).fetchScan

/-- An exchange frame that reaches its operation (R122 to R124). A REPAIR of another slot or range fails the node as such a
DEMAND does (DESIGN CHOICE: R124 names the DEMAND alone); one that follows the owner's commit is still answered. -/
def Wk.exchFrame (w : Wk) (o : CeOp) (fr : CeFrame) : Wk :=
  match w.dev.group o.group, w.dev.fetch o.inst o.node with
  | some g, some f =>
    let b := fr.body
    if fr.kind = 3 then
      match f.exch.find? fun x => x.expert = fld b 0 2 with
      | none => w
      | some x =>
        if fr.parts = 1 then w.exchTile o g f x fr.index (b.drop 4)
        else
          match (x.parts.find? fun p => p.1 = (fr.index, 1 - fr.part)) with
          | none =>
            w.upd (·.onFetch f.seq f.node fun f => { f with exch := f.exch.map fun z =>
              if z.expert = x.expert then { z with parts := (z.parts.filter fun p => p.1 ≠ (fr.index, fr.part)) ++ [((fr.index, fr.part), b.drop 4)] } else z })
          | some p => w.exchTile o g f x fr.index (if fr.part = 1 then p.2 ++ b.drop 4 else b.drop 4 ++ p.2)
    else if fld b 0 4 ≠ o.seq ∨ fld b 4 4 ≠ g.epoch then w
    else if fld b 8 2 ≠ f.first ∨ fld b 0xA 2 ≠ f.last ∨ fld b 0xE 1 ≠ f.slot then w.fail o.inst o.node stFetch 0
    else if fr.kind = 1 then
      if f.demands.any (fun p => p.1 = fr.src) then w
      else
        let w := w.upd (·.onFetch f.seq f.node fun f => { f with demands := f.demands ++ [(fr.src, b.drop 0x10)] })
        (w.exchServe f.seq f.node).upd (·.fetchScan)
    else w.exchServeOne o g f (fld b 0xC 2) [fr.src]
  | _, _ => w

/-- The entries of the demanded experts, with their numbers. -/
def Wk.demandEntries (w : Wk) (f : Fetch) (l : List Nat) : Except (Nat × Nat) (Wk × List (Nat × Entry)) :=
  l.foldl
    (fun (a : Except (Nat × Nat) (Wk × List (Nat × Entry))) e =>
      match a with
      | .error er => .error er
      | .ok (w, m) =>
        match w.entryOnce f.seq f.node f.job f.base e with | .error er => .error er | .ok (w, en) => .ok (w, m ++ [(e, en)]))
    (.ok (w, []))

/-- The operation of an exchange that begins. -/
def exchOp (id half seq now : Nat) (f : Fetch) (nb : List Byte) : CeOp :=
  { id := id, group := f.group, inst := f.seq, node := f.node, exch := true, seq := seq, half := Half.ofCode half, nb := nb, strict := false,
    size := 0, list := none, experts := 0, absent := 0, presence := [], raised := false, union := [], touched := 0, ready := [], done := [], bad := [],
    first := [], inbox := [], early := [], sent := [], asked := [], round := 1, votes := [], voted := false, heard := now, orders := [],
    told := [], tapped := 0, tapFull := false, faults := [], left := false, verified := false }

/-- A fetch enters its exchange: it takes the group's next sequence number and sends a DEMAND to every other member. A
re-run keeps its number and what has arrived, and asks again for what is missing. -/
def Wk.exchBegin (w : Wk) (f : Fetch) (nb : List Byte) : Wk :=
  match w.dev.group f.group with
  | none => w
  | some g =>
    match f.op.bind w.dev.op with
    | some o =>
      let w := w.upd (·.onFetch f.seq f.node fun f => { f with exch := f.exch.map fun x => { x with repairs := 0 } })
      (f.exch.filter fun x => x.tiles.length + x.parked.length < x.want).foldl (fun w x => w.exchRepair o g f x) (w.exchServe f.seq f.node)
    | none =>
      match w.demandEntries f f.demand with
      | .error er => w.raiseStatus f.seq f.node er.1 er.2 w.dev.leadHalf
      | .ok (w, es) =>
        let far := es.filter fun p => p.2.dev ≠ w.dev.me
        if far.any fun p => ¬ g.members.contains p.2.dev then w.fail f.seq f.node stFetch 0
        else
          let o := exchOp w.dev.ce.nextOp w.dev.leadHalf.code g.nextSeq w.dev.time f nb
          let w := w.upd fun d =>
            (d.onCe fun c =>
              { c with ops := c.ops ++ [o], nextOp := o.id + 1, groups := aput c.groups f.group { g with nextSeq := (g.nextSeq + 1) % 2 ^ 32 } }).onFetch
              f.seq f.node fun f =>
                { f with op := some o.id, exch := far.map fun p => ⟨p.1, g.members.idxOf p.2.dev, p.2.tiles, [], [], [], 0⟩ }
          let w := ((List.range g.count).filter (· ≠ g.me)).foldl
            (fun w m =>
              let map := (List.range (cdiv (f.last + 1 - f.first) 8)).map fun b =>
                BitVec.ofNat 8 (sumBy (List.range 8) fun j =>
                  if far.any fun p => p.1 = f.first + 8 * b + j ∧ p.2.dev = nth g.members m 0 then 2 ^ j else 0)
              w.ceTell o g m 1 (exchBody f o.seq g.epoch 1 0 map))
            w
          let w := w.exchServe f.seq f.node
          let mine := w.dev.ce.held.filter fun h => h.1 = f.group ∧ h.2.seq = o.seq
          let w := w.upd fun d => d.onCe fun c => { c with held := c.held.filter fun h => ¬ (h.1 = f.group ∧ h.2.seq = o.seq) }
          mine.foldl (fun w h => w.exchFrame o h.2) w

/-! ### FETCH_EXPERTS at dispatch -/

/-- FETCH_EXPERTS nodes that the EFUs hold (R126). -/
def Dev.fetchesHeld (d : Dev) (seq i : Nat) : Nat :=
  (d.efu.fetches.filter fun f => (f.st = .running ∨ f.st = .prefetch) ∧ ¬ (f.seq = seq ∧ f.node = i)).length

/-- Whether a FETCH_EXPERTS may dispatch: the EFUs hold fewer than 8 others, under EXCHANGE its group carries no other
operation, and under DIRECT its job's remote access is enabled (R387). -/
def Wk.fetchFree (w : Wk) (d : Dev) (seq i : Nat) : Bool :=
  match d.inst seq with
  | none => false
  | some x =>
    let busy : Bool :=
      match w.rdForm x.job x.fn (x.base + 128 * i) 128 with
      | .error _ => false
      | .ok nb =>
        bits (fWord nb) 4 2 == 2
          && (match d.opOf (bits (fld nb 0x54 4) 0 6) with | some o => !(o.inst == seq && o.node == i) | none => false)
          || (bits (fWord nb) 4 2 == 1 && !d.remoteOf x.job)
    decide (d.fetchesHeld seq i < 8) && !busy

/-- Replaces or adds a fetch's record. -/
def Dev.putFetch (d : Dev) (f : Fetch) : Dev :=
  d.onEfu fun u => { u with fetches := (u.fetches.filter fun g => ¬ (g.seq = f.seq ∧ g.node = f.node)) ++ [f] }

/-- The bits of a predictor slot under a matching key, in a node's range (R117, R118). -/
def Dev.predictedOf (d : Dev) (f : Fetch) (h : Half) : List Nat :=
  match aget (d.efu.preds.get h) f.slot with
  | none => []
  | some p => if p.job = f.job ∧ p.base = f.base then p.bits.filter fun e => f.first ≤ e && e ≤ f.last else []

/-- RAW tiles among stored tiles that stand one after another. The first argument counts the tiles. -/
def rawTiles : Nat → List Byte → Nat
  | 0, _ => 0
  | k + 1, bs =>
    match storedSectors bs with
    | none => 0
    | some n => b2n (Hdr.parse bs).raw + rawTiles k (bs.drop (32 + 32 * n))

/-- Gives up outstanding reads that satisfy a test. -/
def Dev.dropReads (d : Dev) (p : ReadFor → Bool) : Dev :=
  d.onFab fun f => { f with dests := f.dests.map fun e => (e.1, { e.2 with reads := e.2.reads.filterMap (OutRead.giveUp d.leadHalf p) }) }

/-- A FETCH_EXPERTS whose checks passed begins, with its demand: the counts of R119, and what it passes at once. An expert of
which not every byte has come is not staged, and its reads are given up (DESIGN CHOICE). A node with PREFETCH 0 counts
PREDICT_MISS against its slot's bits all the same (DESIGN CHOICE: R119 defines the count by what was predicted). -/
def Wk.fetchBegin (w : Wk) (seq i : Nat) (nb : List Byte) (f0 : Fetch) (dm : List Nat) : Wk :=
  let old := w.dev.fetch seq i
  let staged := match old with | some f => f.staged | none => []
  let predicted (e : Nat) : Bool := (w.dev.predictedOf f0 (Half.ofCode e)).contains e
  let came (s : Staged) : Nat := sumBy s.data fun p => p.2.length
  let whole := staged.filter fun s => came s = 32 * s.entry.secs
  let f := { f0 with demand := dm, staged := staged, op := old.bind (·.op), demands := match old with | some f => f.demands | none => [],
                     served := match old with | some f => f.served | none => false,
                     entries := match old with | some f => f.entries | none => [], exch := match old with | some f => f.exch | none => [] }
  let w : Wk := w.upd (·.putFetch f)
  let count (h : Half) (off n : Nat) (w : Wk) : Wk := w.upd (·.fetchCount seq i h off n)
  let w : Wk := staged.foldl (fun w s => count s.half Reg.EFU_STORED_BYTES_LO (came s) w) w
  let w : Wk := whole.foldl
    (fun w s => count s.half (if dm.contains s.expert then Reg.EFU_PREFETCH_HIT_LO else Reg.EFU_PREFETCH_WASTE_LO) 1
      (count s.half Reg.EFU_RAW_TILES_LO (rawTiles s.entry.tiles (s.data.flatMap (·.2))) w))
    w
  let w : Wk := w.upd fun d => (d.onFetch seq i fun f => { f with staged := whole.filter fun s => dm.contains s.expert }).dropReads fun r =>
    match r with | .expert s n e _ _ _ _ => s == seq && n == i && !(whole.any fun x => x.expert == e) | _ => false
  let w : Wk := (dm.filter fun e => ¬ predicted e).foldl (fun w e => w.upd (·.fetchCount seq i (Half.ofCode e) Reg.EFU_PREDICT_MISS_LO 1)) w
  let w : Wk := w.freeConsumers f fun e => decide (e < f.first ∨ f.last < e)
  let w : Wk := if f.mode = 2 then w.exchBegin f nb else w
  let live : Bool := match w.dev.node seq i with | some n => decide (n.st = .running) | none => false
  if live then (w.passRest seq i).upd (·.fetchScan) else w

/-- FETCH_EXPERTS: its checks and its demand. -/
def Wk.runFetch (w : Wk) (seq i : Nat) (x : Inst) (nb : List Byte) : Wk :=
  let f0 := fetchOf seq i x nb
  let badGroup : Bool := f0.mode == 2 && (match w.dev.group f0.group with | some g => g.job != x.job | none => true)
  if ¬ fetchOk nb ∨ badGroup then w.fail seq i stFetch 0
  else
    match w.demandOf f0 with
    | .error er => w.raiseStatus seq i er.1 er.2 w.dev.leadHalf
    | .ok dm => w.fetchBegin seq i nb f0 dm

/-- A FETCH_EXPERTS that is NULL_COMPLETED reads its TABLE_SLOT and no other operand (R103). -/
def Wk.nullFetch (w : Wk) (seq i : Nat) (x : Inst) : Wk :=
  match w.rdForm x.job x.fn (x.base + 128 * i + 0x48) 4 with
  | .error _ => w
  | .ok b => w.upd (·.putFetch { fetchOf seq i x (List.replicate 0x48 0 ++ toBytes 4 (bits (ofBytes b) 8 8 * 256)) with
      st := .ended, isNull := true, demand := [] })

/-- FETCH_EXPERTS. -/
def execFetchExperts (inst node now : Nat) (s : State) : Host.Outcome State Fault Refusal :=
  finish s <|
    let w := s.start.at_ now
    w.dispatch inst node 0x202 (fun d a b => { w with dev := d }.fetchFree d a b) false (fun w x => w.nullFetch inst node x)
      fun w x _ nb => w.runFetch inst node x nb

/-! ### An expert starts (R106, R107, R109) -/

/-- Seats a consumer in the plan of its expert; one past 64 facets fails (R109). -/
def Wk.seatPlanned (w : Wk) (seq s : Nat) (x : Inst) (n : Node) (nb : List Byte) (f : Fetch) (e : Nat) (en : Entry) (planned : Nat) : Wk :=
  if en.ty ≠ bits (kFlags nb) 8 8 then w.fail seq s stFacetOperand 0
  else if planned ≥ 64 then w.fail seq s stFetch 0
  else
    match (w.dev.placement x n (some (f.base, en.crc))).head? with
    | none => w
    | some fc => (w.seat seq s x n nb f e en fc).1

/-- Consumers of an expert on facets that wait for its tiles, as (node, facet). -/
def Dev.planOf (d : Dev) (f : Fetch) (e : Nat) : List (Nat × Nat) :=
  let fed (s : Nat) : Bool := match d.fetch f.seq f.node with | some f => f.streams.any fun t => !t.ended && t.users.any fun u => u.1 == s | none => false
  (((d.consumers f.seq f.node f.slot).filter fun c => c.2.2 = e).map (·.2.1)).eraseDups.filterMap fun s =>
    match d.node f.seq s with
    | none => none
    | some m => if m.st = .running ∧ m.tiles ∧ ¬ fed s then m.facets.head?.map fun fc => (s, fc) else none

/-- The facets of every consumer of an expert that is placed, whether it waits for tiles or holds the expert itself: the plan
of R109 and the consumer facets of R106. -/
def Dev.placedOf (d : Dev) (f : Fetch) (e : Nat) : List Nat :=
  (((d.consumers f.seq f.node f.slot).filter fun c => c.2.2 = e).map (·.2.1)).eraseDups.filterMap fun s =>
    match d.node f.seq s with
    | none => none
    | some m => if m.st = .running then m.facets.head? else none

/-- Dispatches the READY consumers of an announced expert. -/
def Wk.announce (w : Wk) (f : Fetch) (e : Nat) (en : Entry) : Wk :=
  let ss := (((w.dev.consumers f.seq f.node f.slot).filter fun c => c.2.2 = e).map (·.2.1)).eraseDups
  ss.foldl
    (fun w s =>
      let planned := (w.dev.placedOf f e).length
      w.dispatchNode f.seq s 0x100 w.facetsFree false noNull fun w x _ nb =>
        w.runKernelBy f.seq s x nb fun w n ft e' => w.seatPlanned f.seq s x n nb ft e' en planned)
    w

/-- Whether a READY consumer of an expert waits behind another READY node for its facets (R322). -/
def Wk.announceWaits (w : Wk) (f : Fetch) (e : Nat) : Bool :=
  let d := w.dev
  let ss := (((d.consumers f.seq f.node f.slot).filter fun c => c.2.2 = e).map (·.2.1)).eraseDups
  match d.inst f.seq with
  | none => false
  | some x => ss.any fun s =>
      (match d.node f.seq s with | some m => m.st == .ready && !m.remoteOff && m.opcode == 0x100 | none => false)
        && w.facetsFree d f.seq s && !d.ringFull x
        && w.outranked f.seq s x 0x100 fun a b => w.facetsFree d a b && !(a == f.seq && ss.contains b)

/-- An announced expert: its entry is read, its READY consumers are placed, and its stream begins unless every consumer
holds it already (R107, R109). -/
def Wk.expertAnnounced (w : Wk) (seq i : Nat) (f : Fetch) (e : Nat) : Wk :=
  let w : Wk :=
    match w.entryOnce seq i f.job f.base e with
    | .error er => w.raiseStatus seq i er.1 er.2 w.dev.leadHalf
    | .ok (w, en) =>
      if en.dev ≠ w.dev.me ∧ f.mode = 0 then w.fail seq i stFetch 0
      else
        let w := w.upd (·.residentStale f.job f.base e en.crc)
        let w := w.announce f e en
        match w.dev.fetch seq i with
        | none => w
        | some f =>
          let users := w.dev.planOf f e
          let held : Bool := (w.dev.consumers seq i f.slot).any fun c => c.2.2 == e &&
            (match w.dev.node seq c.2.1 with | some m => m.st == .running && !m.tiles | none => false)
          if f.st ≠ .running ∨ (users.isEmpty ∧ held) then w
          else
            match w.dev.streamOf f e en users (w.dev.placedOf f e) false with
            | none => w.fail seq i stFetch 0
            | some s => w.beginStream f s i
  (w.passRest seq i).upd (·.fetchScan)

/-- An expert starts: the experts before it are passed, its consumers that need no feed are freed, and it is announced. While
a consumer waits behind another READY node, the TGU dispatches that node first, and the expert has not started (R106, R109,
R322). -/
def Wk.expertBegin (w : Wk) (seq i : Nat) (f : Fetch) (e : Nat) : Wk :=
  let w := w.passExperts f f.passed e
  let v := (w.upd (·.onFetch seq i fun f => { f with passed := e + 1, begun := f.begun ++ [e] })).freeConsumers f fun k => k == e
  if v.announceWaits f e then w else v.expertAnnounced seq i f e

/-- EXPERT_START: the EFU starts the next demanded expert. -/
def Wk.expertStart (w : Wk) (seq i e : Nat) : Wk :=
  match w.dev.fetch seq i, w.dev.node seq i with
  | some f, some n =>
    if n.st ≠ .running ∨ f.st ≠ .running ∨ w.dev.fetchNext f ≠ some e then w else w.expertBegin seq i f e
  | _, _ => w

/-- EXPERT_START. -/
def execExpertStart (inst node expert now : Nat) (s : State) : Host.Outcome State Fault Refusal :=
  finish s (((s.start.at_ now).expertStart inst node expert).graceScan)

/-! ### Tiles (R111 to R113) -/

/-- What the next tile of a stream is. -/
inductive NextTile where
  | wait                                                  -- its bytes have not come
  | bad (status d0 : Nat)
  | crc (stored : Nat)                                    -- its CRC fails
  | tile (bytes : List Byte) (stored : Nat) (raw : Bool) (first : Bool)    -- uncompressed bytes and stored length

/-- Bytes that have come from elsewhere, when they stand in one run. -/
def dataAt (l : List (Nat × List Byte)) (off n : Nat) : Option (List Byte) :=
  let bs := (List.range n).filterMap fun k => l.findSome? fun p => if p.1 ≤ off + k then p.2[off + k - p.1]? else none
  if bs.length = n then some bs else none

/-- Stored bytes of a stream at an offset: read from this device's memory, or from what has come. -/
def Wk.streamBytes (w : Wk) (f : Fetch) (s : Stream) (off n : Nat) : Except (Nat × Nat) (Option (List Byte)) :=
  if s.source = 4 then (w.rdLocal f.job (s.entry.loc + off) n).map some
  else if s.source = 6 then
    match f.exch.find? fun x => x.expert = s.expert with
    | none => .ok none
    | some x => .ok ((aget x.tiles s.tile).map fun b => (b ++ List.replicate (n - b.length) 0).take n)
  else .ok (dataAt s.data off n)

/-- The checks of R57 and R112 on the next tile. -/
def Wk.nextTile (w : Wk) (f : Fetch) (s : Stream) : NextTile :=
  let last := s.tile + 1 == s.entry.tiles
  if s.source = 2 then (match s.dense[s.tile]? with | some b => .tile b 0 false false | none => .bad stTileFormat 0)
  else
    match w.streamBytes f s s.off 32 with
    | .error e => .bad e.1 e.2
    | .ok none => .wait
    | .ok (some hb) =>
      match storedSectors hb with
      | none => .bad stTileFormat 0
      | some k =>
        let n := 32 + 32 * k
        if s.source ≠ 4 ∧ s.off + n > 32 * s.entry.secs then .bad stTileFormat 0
        else
          match w.streamBytes f s s.off n with
          | .error e => .bad e.1 e.2
          | .ok none => .wait
          | .ok (some bs) =>
            match openTile true bs with
            | .error st => if st = stTileCrc then .crc n else .bad st 0
            | .ok t =>
              let first := t.hdr.trow == 0 && t.hdr.tcol == 0
              if ¬ s.entry.fits t.hdr (s.off + n) (s.mats + b2n first) last then .bad stTileFormat 0
              else .tile t.stored n (Hdr.parse bs).raw first

/-- Whether the ring of a facet takes another tile. A consumer that has ended takes and drops it. -/
def FacetRun.hasRoom (r : FacetRun) : Bool := r.drain || (nth r.ring (r.delivered % r.slotTiles) none).isNone

/-- Writes a tile into a facet's ring. -/
def Wk.deliver (w : Wk) (fc : Nat) (bs : List Byte) : Wk :=
  match w.dev.run fc with
  | none => w
  | some r =>
    let r := { r with ring := if r.drain then r.ring else setNth r.ring (r.delivered % r.slotTiles) (some bs), delivered := r.delivered + 1,
                      caught := if r.capture then r.caught ++ [bs] else r.caught }
    (w.ingress fc bs.length).upd (·.setRun fc r)

/-- The end of a stream: its copy is kept, and its consumers have every tile (R113). -/
def Wk.streamEnds (w : Wk) (f : Fetch) (k : Nat) (s : Stream) (tiles : List (List Byte)) : Wk :=
  let w := w.upd fun d => ((d.onStream f.seq f.node k fun s => { s with ended := true, data := [], dense := [] }).keepResident f s tiles)
  let w := s.users.foldl
    (fun w u => ((w.upd fun d => d.onNode f.seq u.1 fun n => { n with tiles := false }).consumerDone u.2).upd (·.readyToCommit f.seq u.1)) w
  w.upd (·.fetchScan)

/-- What a failed tile of a stream does: the fault is the fetch's, with its uncommitted consumers (R142). A redelivery that
follows the fetch's commit faults its consumer alone (DESIGN CHOICE: the fetch has its record). -/
def Wk.streamFails (w : Wk) (f : Fetch) (s : Stream) (status d0 : Nat) : Wk :=
  let i := if s.again ∧ f.st ≠ .running then (match s.users with | u :: _ => u.1 | [] => f.node) else f.node
  if status = stTileCrc then w.contained f.seq i status d0 none s.half (if s.half = .west then 6 else 25) else w.raiseStatus f.seq i status d0 s.half

/-- A checked tile goes to every facet of the plan, and the stream moves on; after its last tile it ends (R111 to R113). -/
def Wk.sendTile (w : Wk) (f : Fetch) (k : Nat) (s : Stream) (bs : List Byte) (n : Nat) (raw first : Bool) : Wk :=
  let stored := s.source ≠ 2 ∧ s.source ≠ 3
  let w := s.users.foldl (fun w u => w.deliver u.2 bs) w
  let w := w.upd fun d =>
    let d := (d.fetchCount f.seq f.node s.half Reg.EFU_TILES_DELIVERED_LO 1).fetchCount f.seq f.node s.half Reg.EFU_STORED_BYTES_LO
      (if stored then n else 0)
    d.fetchCount f.seq f.node s.half Reg.EFU_RAW_TILES_LO (b2n (raw && s.source != 3))
  let tiles := if s.source = 2 then s.dense else s.dense ++ [bs]
  let w := w.upd (·.onStream f.seq f.node k fun s =>
    { s with tile := s.tile + 1, off := s.off + n, mats := s.mats + b2n first, dense := tiles, rereads := 0 })
  if s.tile + 1 = s.entry.tiles then w.streamEnds f k s tiles else w

/-- TILE_MULTICAST: the next tile of a stream goes to every facet of its plan. -/
def Wk.multicast (w : Wk) (f : Fetch) (k : Nat) (s : Stream) : Wk :=
  if ¬ s.users.all fun u => (match w.dev.run u.2 with | some r => r.hasRoom | none => true) then w
  else
    match w.nextTile f s with
    | .wait => w
    | .bad st d0 => w.streamFails f s st d0
    | .crc n =>
      let w := if s.source = 4 ∨ s.source = 5 then w.upd (·.fetchCount f.seq f.node s.half Reg.EFU_STORED_BYTES_LO n) else w
      if s.rereads ≥ 2 then w.streamFails f s stTileCrc 0
      else w.upd fun d =>
        let again (s : Stream) : Stream :=
          { s with rereads := s.rereads + 1, data := if s.source = 5 then cutData s.data s.off n else s.data,
                   todo := if s.source = 5 then d.piecesOf s.entry s.off n ++ s.todo else s.todo }
        ((d.onStream f.seq f.node k again).count s.half Reg.EFU_TILE_REREAD_LO 1).efuPump
    | .tile bs n raw first => w.sendTile f k s bs n raw first

/-- TILE_MULTICAST. -/
def execTileMulticast (inst node expert now : Nat) (s : State) : Host.Outcome State Fault Refusal :=
  finish s <|
    let w := s.start.at_ now
    match w.dev.fetch inst node with
    | none => w
    | some f =>
      match f.streams.zipIdx.find? fun p => p.1.expert = expert ∧ ¬ p.1.ended with
      | none => w
      | some p => w.multicast f p.2 p.1

/-- Stored bytes of an expert arrive from its owner, for a stream or for staging (R118, R121). -/
def Wk.expertArrived (w : Wk) (seq i e at_ : Nat) (bs : List Byte) : Wk :=
  match w.dev.fetch seq i with
  | none => w
  | some f =>
    match f.streams.zipIdx.find? fun p => p.1.expert = e ∧ p.1.source = 5 ∧ ¬ p.1.ended ∧ (dataAt p.1.data at_ 1).isNone with
    | some p => w.upd (·.onStream seq i p.2 fun s => { s with data := s.data ++ [(at_, bs)] })
    | none => w.upd (·.onFetch seq i fun f => { f with staged := f.staged.map fun s =>
        if s.expert = e ∧ (dataAt s.data at_ 1).isNone then { s with data := s.data ++ [(at_, bs)] } else s })

/-- A read of an expert is refused, or its owner is lost. A prefetch read leaves its expert unstaged, to be fetched on
demand. -/
def Wk.expertFails (w : Wk) (seq i e status : Nat) : Wk :=
  match w.dev.fetch seq i with
  | none => w
  | some f =>
    match f.streams.find? fun s => s.expert = e ∧ s.source = 5 ∧ ¬ s.ended with
    | some s => w.streamFails f s status s.entry.loc
    | none => w.upd fun d =>
        (d.onFetch seq i fun f => { f with staged := f.staged.filter (·.expert ≠ e), predicted := f.predicted.filter (· ≠ e) }).dropReads fun r =>
          match r with | .expert s n x _ _ _ _ => s == seq && n == i && x == e | _ => false

/-! ### Prefetch (R118) -/

/-- Whether a node's only unsatisfied predecessor is a route node that has started and writes AREA0. -/
def Wk.mayPrefetch (w : Wk) (i : Nat) (x : Inst) (n : Node) (area : Nat) : Bool :=
  n.st == .waiting && n.released + 1 == n.pred && x.nodes.zipIdx.any fun r =>
    (r.1.opcode == 0x200 || r.1.opcode == 0x201) && (r.1.st == .running || r.1.st == .committing)
      && (r.1.succ.zipIdx.any fun p => p.1 == i && !r.1.given.contains p.2)
      && (match w.rdForm x.job x.fn (x.base + 128 * r.2) 128 with | .ok rb => fld rb 0x38 8 == area | .error _ => false)

/-- Whether an EFU can stage an expert: one of this device, or, under DIRECT, one of a peer that can be reached. -/
def Dev.canStage (d : Dev) (f : Fetch) (en : Entry) : Bool :=
  en.dev == d.me || (f.mode == 1 && isRegion en.loc && d.reachable en.dev)

/-- The next predicted expert that an EFU stages: of its parity, not staged, with a sound entry, and within reach. An entry that
fails here leaves its expert unstaged, to be fetched on demand. -/
def Wk.nextStage (w : Wk) (f : Fetch) (h : Half) : Option (Wk × Nat × Entry) :=
  (f.predicted.filter fun e => stageHalf e = h ∧ ¬ f.staged.any fun s => s.expert = e).findSome? fun e =>
    match w.entryOnce f.seq f.node f.job f.base e with
    | .ok (w, en) => if w.dev.canStage f en then some (w, e, en) else none
    | .error _ => none

/-- Stages one expert in its stored form, within EFU_PREFETCH_LIMIT, the client's quota and the uncarved space. The read is made for
the fetch, so a poisoned block fails it (R244, R274); an expert that the fetch may not read is not staged, and a demand for it fails
as R142 says (DESIGN CHOICE). -/
def Wk.stageNext (w : Wk) (f : Fetch) (h : Half) : Wk :=
  match w.nextStage f h with
  | none => w
  | some (w, e, en) =>
    let n := 32 * en.secs
    let limit := bits (w.dev.rn h Reg.EFU_PREFETCH_LIMIT) 0 9 * 2 ^ 20
    let used := sumBy w.dev.efu.fetches fun f => f.stagedIn h
    let put (w : Wk) (s : Staged) : Wk := w.upd fun d => (d.onFetch f.seq f.node fun f => { f with staged := f.staged ++ [s] }).efuPump
    if limit < used + n ∨ ¬ w.dev.quotaAllows f.client true n ∨ w.dev.uncarvedFree h < n then w
    else if en.dev ≠ w.dev.me then put w ⟨e, h, en, [], w.dev.piecesOf en 0 n⟩
    else
      match w.rdLocal f.job en.loc n with
      | .error (st, a) => if st = stUncorrectable then w.raiseStatus f.seq f.node st a h else w
      | .ok bs => put w ⟨e, h, en, [(0, bs)], []⟩

/-- PREFETCH_STAGING. -/
def Wk.prefetchStaging (w : Wk) (seq i : Nat) (h : Half) : Wk :=
  match w.dev.fetch seq i with
  | some f => if f.st = .prefetch then w.stageNext f h else w
  | none =>
    match w.dev.inst seq, w.dev.node seq i with
    | some x, some n =>
      match w.rdForm x.job x.fn (x.base + 128 * i) 128 with
      | .error _ => w
      | .ok nb =>
        let f0 := fetchOf seq i x nb
        let pre := (w.dev.efu.fetches.filter fun f => f.st = .prefetch).length
        if n.opcode ≠ 0x202 ∨ ¬ fetchOk nb ∨ ¬ f0.prefetch ∨ pre ≥ 4 ∨ w.dev.fetchesHeld seq i ≥ 8
            ∨ ¬ w.mayPrefetch i x n (f0.areas.headD 0) then w
        else
          let west := (w.dev.predictedOf f0 .west).filter fun e => stageHalf e = .west
          let east := (w.dev.predictedOf f0 .east).filter fun e => stageHalf e = .east
          let g : Fetch := { f0 with st := .prefetch, predicted := sortBy (fun (a b : Nat) => decide (a < b)) (west ++ east) }
          (w.upd (·.putFetch g)).stageNext g h
    | _, _ => w

/-- PREFETCH_STAGING. -/
def execPrefetchStaging (inst node : Nat) (half : Half) (now : Nat) (s : State) : Host.Outcome State Fault Refusal :=
  finish s ((s.start.at_ now).prefetchStaging inst node half)

end Sys2Proof.Machine
end

