-- ==== Sys2Proof/Machine/Prism.lean ====
section
/-! DEFINITION. ROUTE and ROUTE_SCORED on the Prisms: operands, admission, scoring, selection, the output area and sends
(R68 to R100). -/

namespace Sys2Proof.Machine

open Sys2Proof

/-- Status ROUTE_OPERAND. -/
def stRoute : Nat := 0x33
/-- Status ROUTE_NONFINITE. -/
def stNonfinite : Nat := 0x32
/-- Status SPARSE_FAULT. -/
def stSparse : Nat := 0x31
/-- Status CONTEXT_LIMIT. -/
def stContext : Nat := 0x1F

/-! ### Operands (R68 to R70) -/

/-- The word at 0x54. -/
def rtWord (nb : List Byte) : Nat := fld nb 0x54 4
/-- NORM: 0 SOFTMAX_ALL, 1 SIGMOID, 2 SOFTMAX_SELECTED, 3 NONE. -/
def rtNorm (nb : List Byte) : Nat := bits (rtWord nb) 0 2
/-- TOKENS_TO_EXPERTS. -/
def rtT2e (nb : List Byte) : Bool := bits (rtWord nb) 2 2 == 1
/-- HALVES: 0 BOTH, 1 WEST, 2 EAST. -/
def rtHalves (nb : List Byte) : Nat := bits (rtWord nb) 4 2
/-- FAULT_ON_DROP. -/
def rtFaultDrop (nb : List Byte) : Bool := bit (rtWord nb) 6
/-- FAULT_ON_NONFINITE. -/
def rtFaultNf (nb : List Byte) : Bool := bit (rtWord nb) 7
/-- RELEASE_AT_COMMIT. -/
def rtRelease (nb : List Byte) : Bool := bit (rtWord nb) 8
/-- k_min. -/
def rtKmin (nb : List Byte) : Nat := bits (rtWord nb) 12 4
/-- k_max. -/
def rtKmax (nb : List Byte) : Nat := bits (rtWord nb) 16 6 + 1
/-- E. -/
def rtE (nb : List Byte) : Nat := fld nb 0x50 2 + 1
/-- Tile columns of X: d / 64. -/
def rtBlocks (nb : List Byte) : Nat := bits (fld nb 0x50 4) 16 8 + 1
/-- TOKEN_COUNT as written. -/
def rtTokens (nb : List Byte) : Nat := bits (fld nb 0x4C 4) 0 22
/-- X_BASE. -/
def rtX (nb : List Byte) : Nat := fld nb 0x20 8
/-- W_BASE. -/
def rtW (nb : List Byte) : Nat := fld nb 0x28 8
/-- OUT_BASE. -/
def rtOut (nb : List Byte) : Nat := fld nb 0x38 8
/-- TOKEN_LIST. -/
def rtList (nb : List Byte) : Nat := fld nb 0x58 8
/-- X_ROWS. -/
def rtRows (nb : List Byte) : Nat := fld nb 0x60 4
/-- CAPACITY. -/
def rtCap (nb : List Byte) : Nat := bits (fld nb 0x78 4) 0 24
/-- Destinations. -/
def rtDests (nb : List Byte) : Nat := bits (fld nb 0x7C 4) 0 13 + 1

/-- Rounds up to a multiple of 64. -/
def align64 (n : Nat) : Nat := (n + 63) / 64 * 64

/-- Offsets of the demand bitmap, expert list, token table and token pairs, and the area size (R80). -/
structure AreaLay where
  demand : Nat
  elist : Nat
  ttab : Nat
  tpairs : Nat
  bytes : Nat

/-- The layout of an area. -/
def areaLay (e t kmax : Nat) : AreaLay :=
  let od := 0x40 + align64 (8 * e)
  let oe := od + align64 (cdiv e 8)
  let ot := oe + align64 (8 * (t * kmax))
  let op := ot + align64 (8 * t)
  ⟨od, oe, ot, op, op + 16 * (t * kmax)⟩

/-- Whether an FP32 code is finite. -/
def finite32 (c : Nat) : Bool := (f32 c).isFin

/-- The operand check of R70 for `t` tokens. R68's ranges that R70 does not list are checked with it (DEDUCED). -/
def routeOk (scored : Bool) (nb : List Byte) (t : Nat) : Bool :=
  let t2e := rtT2e nb
  let noT2e := fld nb 0x64 4 == 0 && fld nb 0x68 8 == 0 && fld nb 0x70 8 == 0 && rtCap nb == 0 && bits (fld nb 0x7C 4) 0 13 == 0
  bits (fld nb 0x4C 4) 22 10 == 0 && bits (fld nb 0x50 4) 24 8 == 0 && bits (rtWord nb) 22 10 == 0 && bits (rtWord nb) 9 3 == 0
    && bits (fld nb 0x78 4) 24 8 == 0 && bits (fld nb 0x7C 4) 13 19 == 0 && decide (bits (rtWord nb) 2 2 < 2) && rtHalves nb != 3
    && decide (t ≤ 2097152) && (scored || rtNorm nb != 3) && (!scored || rtBlocks nb == 1) && decide (rtKmin nb ≤ 8 ∧ rtKmin nb ≤ rtKmax nb ∧ rtKmin nb ≤ rtE nb)
    && finite32 (fld nb 0x44 4) && finite32 (fld nb 0x48 4) && rtOut nb % 4096 == 0
    && decide ((areaLay (rtE nb) t (rtKmax nb)).bytes ≤ fld nb 0x40 4 * 4096) && (rtList nb != 0 || decide (t ≤ rtRows nb))
    && (if t2e then rtX nb != 0 && fld nb 0x68 8 != 0 && fld nb 0x70 8 != 0 && rtCap nb != 0 else noT2e && (!scored || rtX nb == 0))
    && (scored || rtX nb != 0) && fld nb 0x30 8 % 4 == 0 && rtRows nb != 0

/-! ### Contexts and generations (R87 to R92) -/

/-- Replaces the state of the Prisms. -/
def Dev.onPrism (d : Dev) (f : Prism → Prism) : Dev := { d with prism := f d.prism }

/-- Contexts held in a half. -/
def Dev.ctxUsed (d : Dev) (h : Half) : Nat := sumBy d.prism.batches fun b => (b.ctxs.filter fun c => c.half = h).length

/-- Contexts a client holds in a half. -/
def Dev.ctxClient (d : Dev) (h : Half) (c : Nat) : Nat :=
  sumBy (d.prism.batches.filter fun b => b.client = c) fun b => (b.ctxs.filter fun c => c.half = h).length

/-- PRISM_CTX_CLIENT_LIMIT. -/
def Dev.ctxLimit (d : Dev) (h : Half) (c : Nat) : Nat := d.rn h (Reg.PRISM_CTX_CLIENT_LIMIT + 4 * c)

/-- The batch of a route node's attempt. -/
def Dev.batchOf (d : Dev) (seq i : Nat) : Option Batch := d.prism.batches.find? fun b => b.seq = seq ∧ b.node = i ∧ ¬ b.live

/-- A route node that a Prism holds. -/
def Dev.route_ (d : Dev) (seq i : Nat) : Option Route := d.prism.routes.find? fun r => r.seq = seq ∧ r.node = i

/-- Changes a held route node. -/
def Dev.onRoute (d : Dev) (seq i : Nat) (f : Route → Route) : Dev :=
  d.onPrism fun p => { p with routes := p.routes.map fun r => if r.seq = seq ∧ r.node = i then f r else r }

/-- Tokens of a route node that a half routes (R73). -/
def Route.tokensIn (r : Route) (h : Half) : Nat := if h = .west then r.cut else r.t - r.cut

/-- Whether a half still has tokens of a route node to admit. -/
def Route.open_ (r : Route) (h : Half) : Bool := decide (r.admitted.get h < r.tokensIn h)

/-- Tokens in the next group of a half (R75). -/
def Route.group (r : Route) (h : Half) : Nat := min 256 (r.tokensIn h - r.admitted.get h)

/-- The next value of a job's generation counter, when it is neither live nor held back (R92). -/
def Dev.nextGen (d : Dev) (job : Nat) : Option Nat :=
  match d.job job with
  | none => none
  | some j =>
    let g := j.genNext
    let done (p : Nat × Nat) : Bool := match d.node p.1 p.2 with | some n => n.st == .done | none => true
    if d.prism.batches.any (fun b => b.job = job ∧ b.gen = g) ∨ d.prism.back.any fun b => b.job = job ∧ b.gen = g ∧ ¬ b.waits.all done then none
    else some g

/-- A route node draws its generation when it can. -/
def Dev.drawGen (d : Dev) (seq i : Nat) : Dev :=
  match d.route_ seq i with
  | none => d
  | some r =>
    if r.gen.isSome then d
    else
      match d.nextGen r.job, d.job r.job with
      | some g, some j =>
        let d := (d.setJob r.job { j with genNext := g % 65535 + 1 }).onRoute seq i fun r => { r with gen := some g }
        d.onPrism fun p => { p with back := p.back.filter fun b => ¬ (b.job = r.job ∧ b.gen = g) }
      | _, _ => d

/-- Whether the next group of a route node can be admitted in a half (R90). -/
def Dev.canAdmit (d : Dev) (h : Half) (r : Route) : Bool :=
  r.open_ h && (r.gen.isSome || (d.nextGen r.job).isSome) && decide (d.ctxUsed h + r.group h ≤ 1048576)
    && decide (d.ctxClient h r.client + r.group h ≤ d.ctxLimit h r.client)

/-- Whether it is a route node's turn in a half: set-aside nodes resume in dispatch order as soon as they can, otherwise the
earliest node that is not set aside runs (R90). -/
def Dev.prismTurn (d : Dev) (h : Half) (r : Route) : Bool :=
  let l := d.prism.routes.filter (·.open_ h)
  let asides := l.filter fun x => x.aside.get h && d.canAdmit h x
  if r.aside.get h then d.canAdmit h r && asides.all fun x => decide (r.ord ≤ x.ord)
  else asides.isEmpty && (l.filter fun x => ¬ x.aside.get h).all fun x => decide (r.ord ≤ x.ord)

/-- Notes the largest number of contexts held. -/
def Dev.ctxHigh (d : Dev) (h : Half) : Dev :=
  if d.rn h Reg.PRISM_CTX_HIGH < d.ctxUsed h then d.setReg h Reg.PRISM_CTX_HIGH (w32 (d.ctxUsed h)) else d

/-! ### Scoring (R72, R74) -/

/-- A tile read for a job: its header tells how much follows; then CRC and format (R57). -/
def Wk.localTile (w : Wk) (job a : Nat) : Except (Nat × Nat) Tile :=
  match w.rdLocal job a 32 with
  | .error e => .error e
  | .ok hb =>
    match storedSectors hb with
    | none => .error (stTileFormat, a)
    | some n =>
      match w.rdLocal job a (32 + 32 * n) with
      | .error e => .error e
      | .ok bs => match openTile false bs with | .error st => .error (st, a) | .ok t => .ok t

/-- A tile of a grid of one element type, uncompressed and dense (R72). -/
def Wk.denseTile (w : Wk) (job base cols i j ty : Nat) : Except (Nat × Nat) Tile :=
  let a := base + (i * cols + j) * (32 * (1 + plainSectors ty 0))
  match w.localTile job a with
  | .error e => .error e
  | .ok t => if t.hdr.ty ≠ ty ∨ t.hdr.sparsity ≠ 0 ∨ t.hdr.trow ≠ i ∨ t.hdr.tcol ≠ j then .error (stTileFormat, a) else .ok t

/-- A row of tiles of a grid. -/
def Wk.tileRow (w : Wk) (job base cols i ty : Nat) : Except (Nat × Nat) (List Tile) :=
  (List.range cols).foldl
    (fun (a : Except (Nat × Nat) (List Tile)) j =>
      match a with
      | .error e => .error e
      | .ok l => match w.denseTile job base cols i j ty with | .error e => .error e | .ok t => .ok (l ++ [t]))
    (.ok [])

/-- Every tile row of a grid. -/
def Wk.tileGrid (w : Wk) (job base rows cols ty : Nat) : Except (Nat × Nat) (List (List Tile)) :=
  (List.range rows).foldl
    (fun (a : Except (Nat × Nat) (List (List Tile))) i =>
      match a with
      | .error e => .error e
      | .ok l => match w.tileRow job base cols i ty with | .error e => .error e | .ok t => .ok (l ++ [t]))
    (.ok [])

/-- The logits of one token of ROUTE: each hidden block summed exactly and rounded once, then the blocks in order (R74). -/
def scoreRow (xs : List View) (ws : List (List View)) (row e : Nat) : List Nat :=
  (List.range e).map fun c =>
    let sums := (xs.zip ws).map fun p =>
      match p.2[c / 64]? with
      | none => 0
      | some wv => flc (exactSum ((List.range 64).map fun k => (p.1.val row k).mul (wv.val k (c % 64))))
    match sums with
    | [] => 0
    | s :: l => l.foldl fadd s

/-! ### Normalisation and selection (R76 to R79) -/

/-- exp of z minus the largest, and the ascending sum. -/
def softParts (z : List Nat) : List Nat × Nat :=
  let m := match z with | [] => 0 | x :: l => l.foldl fmax x
  let a := z.map fun x => spExp (f32 (fsub x m))
  (a, match a with | [] => 0 | x :: l => l.foldl fadd x)

/-- Probabilities of a token. -/
def probs (norm : Nat) (z : List Nat) : List Nat :=
  match norm with
  | 1 => z.map fun x => fdiv (fl .one) (fadd (fl .one) (spExp (f32 x).neg))
  | 3 => z
  | _ => let s := softParts z; s.1.map fun a => fdiv a s.2

/-- How a token's selection ended. -/
inductive SelEnd where
  | ok | nonfinite | clipped | forced
  deriving DecidableEq, Repr

/-- The selected experts of a token, ascending, and how the selection ended (R77, R78). -/
def selectExperts (z v : List Nat) (tau kmin kmax : Nat) : List Nat × SelEnd :=
  let n := v.length
  let va := v.toArray
  let at_ (e : Nat) : Nat := va.getD e 0
  if ¬ (z ++ v).all finite32 then ([], .nonfinite)
  else
    let order := sortBy (fun a b => flt (at_ b) (at_ a) || (!flt (at_ a) (at_ b) && decide (a < b))) (List.range n)
    let reach (e : Nat) : Bool := !flt (at_ e) tau
    let s := order.foldl
      (fun (s : List Nat × Bool) e =>
        if s.2 ∨ s.1.length = kmax then s
        else if s.1.length < kmin ∨ reach e then (s.1 ++ [e], false)
        else (s.1, true))
      ([], false)
    let sel := s.1
    let clipped : Bool := sel.length == kmax && decide (sel.length < n) && (match order[sel.length]? with | some e => reach e | none => false)
    let forced := sel.any fun e => !reach e
    (sortBy (fun a b => decide (a < b)) sel, if clipped then .clipped else if forced then .forced else .ok)

/-- A pair of a token: expert, gate, probability and destination. -/
structure RPair where
  expert : Nat
  gate : Nat
  prob : Nat
  dest : Nat
  deriving DecidableEq, Repr

/-- What a token's routing gives. -/
structure TokRec where
  row : Nat
  indexDropped : Bool
  fin : SelEnd
  pairs : List RPair
  dropped : Nat
  mapDrops : Nat

/-- The gates of selected experts (R76). -/
def gatesOf (norm gs : Nat) (z p : List Nat) (sel : List Nat) : List Nat :=
  if norm = 2 then
    let s := softParts (sel.map fun e => z.getD e 0)
    s.1.map fun a => fmul (fdiv a s.2) gs
  else sel.map fun e => fmul (p.getD e 0) gs

/-- Routes one token, whose logits are given. -/
def routeToken (nb : List Byte) (row : Nat) (z bias map : List Nat) : TokRec :=
  let norm := rtNorm nb
  let p := probs norm z
  let v := (p.zip bias).map fun x => fadd x.1 x.2
  let s := selectExperts z v (fld nb 0x44 4) (rtKmin nb) (rtKmax nb)
  let gs := gatesOf norm (fld nb 0x48 4) z p s.1
  let all := (s.1.zip gs).map fun x => RPair.mk x.1 x.2 (p.getD x.1 0) (map.getD x.1 0)
  let kept := if rtT2e nb then all.filter fun x => x.dest < rtDests nb else all
  { row := row, indexDropped := false, fin := s.2, pairs := kept, dropped := all.length - kept.length, mapDrops := all.length - kept.length }

/-- Little-endian words read from a job's memory. -/
def Wk.words (w : Wk) (job a width n : Nat) : Except (Nat × Nat) (List Nat) :=
  if n = 0 then .ok []
  else match w.rdLocal job a (width * n) with | .error e => .error e | .ok bs => .ok ((chunks width bs).map ofBytes)

/-- Everything a route node reads but the tiles of its tokens: rows, bias, expert map and router weights. -/
structure RouteIn where
  rows : List Nat
  bias : List Nat
  map : List Nat
  ws : List (List View)

/-- Reads them. -/
def Wk.routeIn (w : Wk) (r : Route) : Except (Nat × Nat) RouteIn :=
  let nb := r.nb
  let e := rtE nb
  let rows := if rtList nb = 0 then .ok (List.range r.t) else w.words r.job (rtList nb) 4 r.t
  let bias := if fld nb 0x30 8 = 0 then .ok (List.replicate e 0) else w.words r.job (fld nb 0x30 8) 4 e
  let map := if rtT2e nb then w.words r.job (fld nb 0x68 8) 2 e else .ok []
  let ws := if r.scored then .ok [] else w.tileGrid r.job (rtW nb) (rtBlocks nb) (cdiv e 64) tyBf16
  match rows, bias, map, ws with
  | .ok rows, .ok bias, .ok map, .ok ws => .ok ⟨rows, bias, map, ws.map fun l => l.map (·.view)⟩
  | .error er, _, _, _ => .error er
  | _, .error er, _, _ => .error er
  | _, _, .error er, _ => .error er
  | _, _, _, .error er => .error er

/-- Routes one row: an index out of range leaves its token unscored (R99). -/
def Wk.routeRow (w : Wk) (r : Route) (x : RouteIn) (row : Nat) : Except (Nat × Nat) TokRec :=
  let nb := r.nb
  let e := rtE nb
  if row ≥ rtRows nb then
    if rtFaultDrop nb then .error (stSparse, 0)
    else .ok { row := row, indexDropped := true, fin := .ok, pairs := [], dropped := 0, mapDrops := 0 }
  else
    let cols := if r.scored then cdiv e 64 else rtBlocks nb
    match w.tileRow r.job (if r.scored then rtW nb else rtX nb) cols (row / 64) (if r.scored then tyFp32 else tyBf16) with
    | .error er => .error er
    | .ok ts =>
      let vs := ts.map (·.view)
      let z :=
        if r.scored then (List.range e).map fun c => match vs[c / 64]? with | some v => flc (v.val (row % 64) (c % 64)) | none => 0
        else scoreRow vs x.ws (row % 64) e
      let t := routeToken nb row z x.bias x.map
      if t.fin = .nonfinite ∧ rtFaultNf nb then .error (stNonfinite, 0)
      else if t.mapDrops ≠ 0 ∧ rtFaultDrop nb then .error (stSparse, 0)
      else .ok t

/-- Routes every token of a batch, in batch order. -/
def Wk.routeAll (w : Wk) (r : Route) (x : RouteIn) : Except (Nat × Nat) (List TokRec) :=
  x.rows.foldl
    (fun (a : Except (Nat × Nat) (List TokRec)) row =>
      match a with
      | .error e => .error e
      | .ok l => match w.routeRow r x row with | .error e => .error e | .ok t => .ok (l ++ [t]))
    (.ok [])

/-! ### Capacity (R95) -/

/-- Pairs of some tokens for a destination, as (token, expert) in grant order; the first token's index is given. -/
def claims (l : List TokRec) (first k : Nat) : List (Nat × Nat) :=
  l.zipIdx.flatMap fun t => (t.1.pairs.filter fun p => p.dest = k).map fun p => (first + t.2, p.expert)

/-- Grants under CAPACITY: what each destination keeps. In Default mode with both halves, how many of a contended
destination's grants the west half wins is a free value (assumption 4). -/
def Wk.grants (w : Wk) (r : Route) (strict : Bool) (l : List TokRec) : Wk × List (List (Nat × Nat)) :=
  let cap := rtCap r.nb
  let both : Bool := decide (0 < r.cut) && decide (r.cut < r.t)
  (List.range (rtDests r.nb)).foldl
    (fun (a : Wk × List (List (Nat × Nat))) k =>
      let cw := claims (l.take r.cut) 0 k
      let ce := claims (l.drop r.cut) r.cut k
      if cw.length + ce.length ≤ cap then (a.1, a.2 ++ [cw ++ ce])
      else if strict ∨ ¬ both then (a.1, a.2 ++ [(cw ++ ce).take cap])
      else
        let f := a.1.dev.drawFree
        let lo := cap - ce.length
        let hi := min cap cw.length
        let n := lo + f.2.toNat % (hi - lo + 1)
        let w := a.1.upd fun _ =>
          (f.1.count .west Reg.TOP_TDC_COUNT_LO 1).onNode r.seq r.node fun n => { n with tdc := n.tdc + 1 }
        (w, a.2 ++ [cw.take n ++ ce.take (cap - n)]))
    (w, [])

/-- Keeps the granted pairs of each token. -/
def keepGranted (l : List TokRec) (g : List (List (Nat × Nat))) : List TokRec :=
  l.zipIdx.map fun t =>
    let kept := t.1.pairs.filter fun p => (g.getD p.dest []).contains (t.2, p.expert)
    { t.1 with pairs := kept, dropped := t.1.dropped + (t.1.pairs.length - kept.length) }

/-! ### The output area (R80 to R86) -/

/-- The kept pairs of a batch in the order of R83, as (destination, expert, token, row). -/
def pairList (t2e : Bool) (l : List TokRec) : List (Nat × Nat × Nat × Nat) :=
  let all : List (Nat × Nat × Nat × Nat) := l.zipIdx.flatMap fun t => t.1.pairs.map fun p => (if t2e then p.dest else 0, p.expert, t.2, t.1.row)
  sortBy (fun (a b : Nat × Nat × Nat × Nat) =>
    decide (a.1 < b.1) || (a.1 == b.1 && (decide (a.2.1 < b.2.1) || (a.2.1 == b.2.1 && decide (a.2.2.1 < b.2.2.1))))) all

/-- The runs that a route node writes. `map` gives each expert's destination in T2E mode. The gap between the last shape word and the
demand bitmap is written with zeros; R86 does not say that it is written (DESIGN CHOICE). -/
def areaRuns (nb : List Byte) (job gen t : Nat) (map : List Nat) (l : List TokRec) : List Run :=
  let e := rtE nb
  let lay := areaLay e t (rtKmax nb)
  let t2e := rtT2e nb
  let ps := pairList t2e l
  let count (x : Nat) : Nat := (ps.filter fun p => p.2.1 = x).length
  let counts := (List.range e).map count
  let before (x : Nat) : Nat :=
    let k := if t2e then map.getD x 0 else 0
    (ps.filter fun p => decide (p.1 < k ∨ (p.1 = k ∧ p.2.1 < x))).length
  let shape := (List.range e).flatMap fun x => toBytes 4 (counts.getD x 0) ++ toBytes 4 (before x)
  let demand := (List.range (align64 (cdiv e 8))).map fun b =>
    BitVec.ofNat 8 (sumBy (List.range 8) fun j => if counts.getD (8 * b + j) 0 = 0 then 0 else 2 ^ j)
  let demanded := (counts.filter (· ≠ 0)).length
  let hdr :=
    toBytes 4 (0x10000 + gen) ++ toBytes 4 e ++ toBytes 4 t ++ toBytes 4 ps.length
      ++ toBytes 4 ((l.filter fun x => x.pairs.isEmpty).length) ++ toBytes 4 (l.foldl (fun m x => max m x.pairs.length) 0)
      ++ toBytes 4 demanded ++ toBytes 4 (sumBy l (·.dropped)) ++ toBytes 4 job ++ toBytes 4 lay.demand ++ toBytes 4 lay.elist
      ++ toBytes 4 lay.ttab ++ toBytes 4 lay.tpairs ++ toBytes 4 0 ++ toBytes 4 lay.bytes ++ toBytes 4 0
  let head := hdr ++ shape ++ List.replicate (align64 (8 * e) - 8 * e) 0 ++ demand
  let elist := ps.flatMap fun p => toBytes 4 p.2.2.1 ++ toBytes 4 p.2.2.2
  let offs := l.foldl (fun (a : List Nat × Nat) x => (a.1 ++ [a.2], a.2 + x.pairs.length)) ([], 0)
  let ttab := (l.zip offs.1).flatMap fun x =>
    toBytes 4 (x.1.dropped * 2 ^ 16 + b2n x.1.indexDropped * 2 ^ 8 + b2n (x.1.fin == .nonfinite) * 2 ^ 7 + x.1.pairs.length) ++ toBytes 4 x.2
  let place (tok x : Nat) : Nat := ps.findIdx fun p => p.2.1 == x && p.2.2.1 == tok
  let tpairs := l.zipIdx.flatMap fun x => x.1.pairs.flatMap fun p =>
    toBytes 4 p.expert ++ toBytes 4 (place x.2 p.expert) ++ toBytes 4 p.gate ++ toBytes 4 p.prob
  ([⟨rtOut nb, head⟩, ⟨rtOut nb + lay.elist, elist⟩, ⟨rtOut nb + lay.ttab, ttab⟩, ⟨rtOut nb + lay.tpairs, tpairs⟩] : List Run).filter
    fun x => ¬ x.bytes.isEmpty

/-- The first run outside the LOCAL form, which is refused when it is made (R237). Rights wait for the commit (R242). -/
def runsMisplaced (rs : List Run) : Option Nat := (rs.find? fun x => !isLocal x.addr).map (·.addr)

/-! ### Sends (R96, R97) -/

/-- Pads bytes to whole sectors. -/
def padded32 (bs : List Byte) : List Byte := bs ++ List.replicate ((32 - bs.length % 32) % 32) 0

/-- The X row of a pair as BF16 bytes. -/
def Wk.xRow (w : Wk) (r : Route) (row : Nat) : Except (Nat × Nat) (List Byte) :=
  match w.tileRow r.job (rtX r.nb) (rtBlocks r.nb) (row / 64) tyBf16 with
  | .error e => .error e
  | .ok ts => .ok (ts.flatMap fun t => let v := t.view; (List.range 64).flatMap fun c => toBytes 2 (v.sound (row % 64) c))

/-- The stores of one destination block, in order: entries, rows, and the header with SEND_TAG in one store of 64 bytes,
the least that keeps SEND_TAG last (R360 writes whole sectors). A BLOCK_OFFSET that is not a multiple of 64 is used as it stands, and
the reserved bits of the entry are not looked at: R94 gives no check (DESIGN CHOICE). -/
def Wk.sendBlock (w : Wk) (r : Route) (gen : Nat) (ps : List (Nat × Nat × Nat × Nat)) (dt : List Byte) : Except (Nat × Nat) (List LogEntry) :=
  let dev := bits (fld dt 0 4) 0 18
  let region := bits (fld dt 4 4) 0 18
  let off := fld dt 8 8
  let rows := ps.foldl
    (fun (a : Except (Nat × Nat) (List Byte)) p =>
      match a with
      | .error e => .error e
      | .ok l => match w.xRow r p.2.2.2 with | .error e => .error e | .ok b => .ok (l ++ b))
    (.ok [])
  match rows with
  | .error e => .error e
  | .ok rows =>
    let stores (at_ : Nat) (bs : List Byte) : List LogEntry := (chunks 256 bs).zipIdx.map fun c => .write dev region (at_ + 256 * c.2) c.1
    let ents := padded32 (ps.flatMap fun p => toBytes 4 p.2.1 ++ toBytes 4 p.2.2.1)
    let hdr := toBytes 4 (fld r.nb 0x64 4) ++ toBytes 4 ps.length ++ toBytes 4 w.dev.me ++ toBytes 4 gen ++ toBytes 4 (64 * rtBlocks r.nb)
      ++ List.replicate 44 0
    .ok (stores (off + 0x40) ents ++ stores (off + 0x40 + align64 (8 * rtCap r.nb)) rows ++ stores off hdr)

/-- Logs every send of a T2E node, and probes its destinations. -/
def Wk.routeSends (w : Wk) (r : Route) (gen : Nat) (l : List TokRec) : Wk :=
  match w.rdLocal r.job (fld r.nb 0x70 8) (16 * rtDests r.nb) with
  | .error e => w.raiseStatus r.seq r.node e.1 e.2 w.dev.leadHalf
  | .ok tb =>
    let ps := pairList true l
    let dts := chunks 16 tb
    let logs := dts.zipIdx.foldl
      (fun (a : Except (Nat × Nat) (List LogEntry)) d =>
        match a with
        | .error e => .error e
        | .ok l => match w.sendBlock r gen (ps.filter fun p => p.1 = d.2) d.1 with | .error e => .error e | .ok m => .ok (l ++ m))
      (.ok [])
    match logs with
    | .error e => w.raiseStatus r.seq r.node e.1 e.2 w.dev.leadHalf
    | .ok es =>
      match dts.find? fun dt => ¬ w.dev.reachable (bits (fld dt 0 4) 0 18) with
      | some dt => w.fail r.seq r.node stMemberLost (bits (fld dt 0 4) 0 18)
      | none =>
      let w := dts.foldl
        (fun w dt => w.upd fun d =>
          d.probe d.leadHalf r.seq r.node r.job (bits (fld dt 0 4) 0 18) (bits (fld dt 4 4) 0 18) (fld dt 8 8) (probeRights false true false) 0)
        w
      w.upd fun d => d.onNode r.seq r.node fun n => { n with log := n.log ++ es.map fun x => (0, x) }

/-! ### Finish and commit -/

/-- The counts of R98 for the tokens of one half. -/
def routeCounts (h : Half) (groups : Nat) (l : List TokRec) : List CommitAct :=
  let n (p : TokRec → Bool) : Nat := (l.filter p).length
  [.count h Reg.PRISM_TOKENS_LO l.length, .count h Reg.PRISM_PAIRS_LO (sumBy l fun t => t.pairs.length),
   .count h Reg.PRISM_ZERO_EXPERT_TOKENS_LO (n fun t => t.pairs.isEmpty), .count h Reg.PRISM_KMIN_FORCED_LO (n fun t => t.fin == .forced),
   .count h Reg.PRISM_KMAX_CLIPPED_LO (n fun t => t.fin == .clipped),
   .count h Reg.PRISM_DROP_INDEX_LO (n (·.indexDropped) + sumBy l (·.mapDrops)), .count h Reg.PRISM_NONFINITE_LO (n fun t => t.fin == .nonfinite),
   .count h Reg.PRISM_CAP_DROP_LO (sumBy l fun t => t.dropped - t.mapDrops), .count h Reg.PRISM_GROUPS_LO groups]

/-- Writes the area of a route node and reports its work complete. -/
def Wk.routeWrite (w : Wk) (r : Route) (gen : Nat) (map : List Nat) (l : List TokRec) : Wk :=
  let rs := areaRuns r.nb r.job gen r.t map l
  match runsMisplaced rs with
  | some a => w.raiseStatus r.seq r.node stDenied a w.dev.leadHalf
  | none =>
    let acts := routeCounts .west (cdiv r.cut 256) (l.take r.cut) ++ routeCounts .east (cdiv (r.t - r.cut) 256) (l.drop r.cut)
    let w := (w.upd fun d => d.onNode r.seq r.node fun n => { n with acts := n.acts ++ acts }).stage r.seq r.node rs
    w.upd (·.engineDone r.seq r.node)

/-- Once every token is admitted: scoring, selection, grants, contexts, sends and the area. -/
def Wk.routeFinish (w : Wk) (seq i : Nat) : Wk :=
  match w.dev.route_ seq i with
  | none => w
  | some r =>
    let gen := r.gen.getD 0
    match w.routeIn r with
    | .error e => w.raiseStatus seq i e.1 e.2 w.dev.leadHalf
    | .ok x =>
      match w.routeAll r x with
      | .error e => w.raiseStatus seq i e.1 e.2 w.dev.leadHalf
      | .ok l0 =>
        let strict := match w.dev.inst seq with | some x => x.strict | none => false
        let gl := if rtT2e r.nb then let g := w.grants r strict l0; (g.1, keepGranted l0 g.2) else (w, l0)
        let w := gl.1
        let l := gl.2
        let offs := l.foldl (fun (a : List Nat × Nat) x => (a.1 ++ [a.2], a.2 + x.pairs.length)) ([], 0)
        let ks := l.map fun t => t.pairs.length
        let w := w.upd (·.onPrism fun p => { p with batches := p.batches.map fun b =>
          if b.seq = seq ∧ b.node = i ∧ ¬ b.live then
            { b with rows := x.rows, ctxs := b.ctxs.map fun c => { c with k := ks.getD c.token 0, off := offs.1.getD c.token 0 } }
          else b })
        let w := if rtT2e r.nb then w.routeSends r gen l else w
        match w.dev.node seq i with
        | some n => if n.st = .running then w.routeWrite r gen x.map l else w
        | none => w

/-- What the commit of a route node does in the Prism: the generation becomes live, or its contexts are freed (R88, R92). -/
def Dev.routeCommit (d : Dev) (seq i : Nat) : Dev :=
  match d.route_ seq i with
  | none => d
  | some r =>
    let area := fld r.nb 0x38 8
    let rows := match d.prism.batches.find? fun b => b.seq = seq ∧ b.node = i ∧ ¬ b.live with | some b => b.rows | none => []
    let d := d.onPrism fun p => { p with routes := p.routes.filter (fun x => ¬ (x.seq = seq ∧ x.node = i)),
                                         areas := p.areas.filter (fun a => ¬ (a.job = r.job ∧ a.area = area)) ++ [⟨r.job, area, rows⟩] }
    d.onPrism fun p =>
      if rtRelease r.nb then { p with batches := p.batches.filter fun b => ¬ (b.seq = seq ∧ b.node = i ∧ ¬ b.live) }
      else { p with batches := p.batches.map fun b => if b.seq = seq ∧ b.node = i ∧ ¬ b.live then { b with live := true } else b }

/-! ### Dispatch -/

/-- Halves that run a route node of some tokens: those it names, or the survivor (R73). -/
def Dev.routeCut (d : Dev) (nb : List Byte) (t : Nat) : Nat :=
  if d.top.degraded then (if d.leadHalf = .west then t else 0)
  else match rtHalves nb with | 1 => t | 2 => 0 | _ => cdiv t 2

/-- Whether the Prisms can hold a route node: fewer than 8 in each half it names, and, in T2E mode, remote access is enabled
(R90, R387). -/
def Wk.routeFree (w : Wk) (d : Dev) (seq i : Nat) : Bool :=
  match d.inst seq with
  | none => false
  | some x =>
    match w.rdForm x.job x.fn (x.base + 128 * i) 128 with
    | .error _ => true
    | .ok nb =>
      let hs : List Half := if d.top.degraded then [d.leadHalf] else match rtHalves nb with | 1 => [.west] | 2 => [.east] | _ => [.west, .east]
      (hs.all fun h => decide ((d.prism.routes.filter (·.open_ h)).length < 8)) && (!rtT2e nb || d.remoteOf x.job)

/-- A route node at dispatch: its checks, its generation, and its place in the Prisms. A node with T = 0 writes what R71 lists and, in
TOKENS_TO_EXPERTS mode, sends no block: R71 does not list one and R96 wants one for every destination (DESIGN CHOICE). -/
def Wk.runRoute (w : Wk) (scored : Bool) (seq i : Nat) (x : Inst) (n : Node) (nb : List Byte) : Wk :=
  let t := n.shape.getD (rtTokens nb)
  if ¬ routeOk scored nb t then w.fail seq i stRoute 0
  else
    let cut := w.dev.routeCut nb t
    if w.dev.ctxLimit .west x.client < cut ∨ w.dev.ctxLimit .east x.client < t - cut then w.fail seq i stContext 0
    else
      let r : Route :=
        { seq := seq, node := i, job := x.job, client := x.client, scored := scored, nb := nb, t := t, cut := cut, gen := none,
          admitted := ⟨0, 0⟩, aside := ⟨false, false⟩, stallAt := ⟨none, none⟩, stall := ⟨0, 0⟩, ord := n.dispOrd }
      let w := w.upd (·.onPrism fun p => { p with routes := p.routes ++ [r] })
      if t = 0 then w.routeWrite r 0 [] [] else w.upd (·.drawGen seq i)

/-- ROUTE. -/
def execRoute (inst node now : Nat) (s : State) : Host.Outcome State Fault Refusal :=
  finish s <|
    let w := s.start.at_ now
    w.dispatch inst node 0x200 (fun d a b => { w with dev := d }.routeFree d a b) true noNull fun w x n nb => w.runRoute false inst node x n nb

/-- ROUTE_SCORED. -/
def execRouteScored (inst node now : Nat) (s : State) : Host.Outcome State Fault Refusal :=
  finish s <|
    let w := s.start.at_ now
    w.dispatch inst node 0x201 (fun d a b => { w with dev := d }.routeFree d a b) true noNull fun w x n nb => w.runRoute true inst node x n nb

/-! ### Admission -/

/-- Running facet clk of a half, MHz. -/
def Dev.halfMhz (d : Dev) (h : Half) : Nat := (d.top.sc.get h).clk

/-- Ns that a route node has been stalled in a half. -/
def Route.stalled (r : Route) (h : Half) (now : Nat) : Nat :=
  r.stall.get h + match r.stallAt.get h with | some t => now - t | none => 0

/-- A group is admitted: it takes its contexts, the stall before it is counted, and with the last group the node is
scored and finished. -/
def Wk.groupTake (w : Wk) (seq i : Nat) (h : Half) (r : Route) : Wk :=
  let n := r.group h
  let first := (if h = .west then 0 else r.cut) + r.admitted.get h
  let new : List Ctx := (List.range n).map fun k => ⟨h, first + k, 0, 0, 0⟩
  let w := w.upd (·.drawGen seq i)
  let w := w.upd fun d =>
    match d.route_ seq i with
    | none => d
    | some r =>
      let waited := match r.stallAt.get h with | some t => d.time - t | none => 0
      let d := d.count h Reg.PRISM_ADMIT_STALL_LO (waited * d.halfMhz h / 1000)
      let d := d.onRoute seq i fun r =>
        { r with admitted := r.admitted.set h (r.admitted.get h + n), aside := r.aside.set h false, stallAt := r.stallAt.set h none,
                 stall := r.stall.set h (r.stall.get h + waited) }
      let d := d.onPrism fun p =>
        if p.batches.any fun b => b.seq = seq ∧ b.node = i ∧ ¬ b.live then
          { p with batches := p.batches.map fun b => if b.seq = seq ∧ b.node = i ∧ ¬ b.live then { b with ctxs := b.ctxs ++ new } else b }
        else { p with batches := p.batches ++ [⟨seq, i, r.job, r.client, r.gen.getD 0, rtOut r.nb, false, [], new⟩] }
      d.ctxHigh h
  match w.dev.route_ seq i with
  | none => w
  | some r => if r.open_ .west ∨ r.open_ .east then w else w.routeFinish seq i

/-- PRISM_GROUP_ADMIT: a group takes its contexts, or the node stalls. -/
def Wk.groupAdmit (w : Wk) (seq i : Nat) (h : Half) : Wk :=
  match w.dev.route_ seq i with
  | none => w
  | some r =>
    if ¬ r.open_ h ∨ ¬ w.dev.prismTurn h r then w
    else if ¬ w.dev.canAdmit h r then
      if (r.stallAt.get h).isSome then w else w.upd (·.onRoute seq i fun r => { r with stallAt := r.stallAt.set h (some w.dev.time) })
    else w.groupTake seq i h r

/-- PRISM_GROUP_ADMIT. -/
def execPrismGroupAdmit (inst node : Nat) (half : Half) (now : Nat) (s : State) : Host.Outcome State Fault Refusal :=
  finish s ((s.start.at_ now).groupAdmit inst node half)

/-- PRISM_SET_ASIDE: a stall of 4,096 facet clk sets the node aside. -/
def Dev.setAside (d : Dev) (seq i : Nat) (h : Half) : Dev :=
  match d.route_ seq i with
  | none => d
  | some r =>
    match r.stallAt.get h with
    | none => d
    | some t => if 4096 ≤ (d.time - t) * d.halfMhz h / 1000 then d.onRoute seq i fun r => { r with aside := r.aside.set h true } else d

/-- PRISM_SET_ASIDE. -/
def execPrismSetAside (inst node : Nat) (half : Half) (now : Nat) (s : State) : Host.Outcome State Fault Refusal :=
  onDev s fun d => (d.at_ now).setAside inst node half

/-- PRISM_ADMIT_TIMEOUT (R91). -/
def Wk.admitTimeout (w : Wk) (seq i : Nat) : Wk :=
  match w.dev.route_ seq i with
  | none => w
  | some r =>
    let late (h : Half) : Bool :=
      let us := w.dev.rn h Reg.PRISM_ADMIT_TIMEOUT
      us != 0 && decide (1000 * us < r.stalled h w.dev.time)
    if late .west ∨ late .east then w.fail seq i stContext 0 else w

/-- PRISM_ADMIT_TIMEOUT. -/
def execPrismAdmitTimeout (inst node now : Nat) (s : State) : Host.Outcome State Fault Refusal :=
  finish s ((s.start.at_ now).admitTimeout inst node)

/-- A write of PRISM_CTX_HIGH sets it to the contexts now held (R98). -/
def Dev.ctxHighWrite (d : Dev) (h : Half) : Dev := d.setReg h Reg.PRISM_CTX_HIGH (w32 (d.ctxUsed h))

/-- PRISM_QUEUE_STATUS. -/
def Dev.prismStatus (d : Dev) (h : Half) : Nat :=
  let l := d.prism.routes.filter (·.open_ h)
  (l.filter fun r => r.aside.get h).length * 16 + l.length

end Sys2Proof.Machine
end

