-- ==== Sys2Proof/Machine/Lens.lean ====
section
/-! DEFINITION. COMBINE and result notices on the Lenses (R127 to R139). -/

namespace Sys2Proof.Machine

open Sys2Proof

/-- Status COMBINE_OPERAND. -/
def stCombine : Nat := 0x35
/-- Status LENS_NOTICE. -/
def stNotice : Nat := 0x36

/-! ### Operands (R127, R128) -/

/-- TYPE of a 2-bit type code, none for the reserved one. -/
def cbType (k : Nat) : Option Nat := if k = 0 then some tyFp32 else if k = 1 then some tyBf16 else if k = 2 then some 0x01 else none
/-- The word at 0x44. -/
def cbWord (nb : List Byte) : Nat := fld nb 0x44 4
/-- GRID mode. -/
def cbGrid (nb : List Byte) : Bool := bit (cbWord nb) 0
/-- d. -/
def cbD (nb : List Byte) : Nat := 64 * (bits (cbWord nb) 16 8 + 1)
/-- AREA. -/
def cbArea (nb : List Byte) : Nat := fld nb 0x20 8
/-- Y_BASE. -/
def cbY (nb : List Byte) : Nat := fld nb 0x28 8
/-- RESID_BASE. -/
def cbResid (nb : List Byte) : Nat := fld nb 0x30 8
/-- OUT_BASE. -/
def cbOut (nb : List Byte) : Nat := fld nb 0x38 8
/-- RESID_ROWS. -/
def cbRows (nb : List Byte) : Nat := fld nb 0x40 4
/-- NOTICE_BUDGET. -/
def cbBudget (nb : List Byte) : Nat := bits (fld nb 0x48 4) 0 17
/-- Y_TYPE. -/
def cbYType (nb : List Byte) : Nat := (cbType (bits (cbWord nb) 6 2)).getD 0
/-- RESID_TYPE. -/
def cbRType (nb : List Byte) : Nat := (cbType (bits (cbWord nb) 4 2)).getD 0
/-- OUT_TYPE. -/
def cbOType (nb : List Byte) : Nat := (cbType (bits (cbWord nb) 8 2)).getD 0
/-- Bytes of a result row. -/
def cbRowBytes (nb : List Byte) : Nat := cbD nb * elemBits (cbYType nb) / 8

/-- The check of R128 but for liveness, given the area's 64-byte header; the ranges of R127 are checked with it (DEDUCED). -/
def combineOk (nb hdr : List Byte) (job : Nat) : Bool :=
  let w := cbWord nb
  (cbType (bits w 4 2)).isSome && (cbType (bits w 6 2)).isSome && (cbType (bits w 8 2)).isSome && (Rnd.ofCode (bits w 10 2)).isSome
    && bits w 12 4 == 0 && bits w 1 3 == 0 && bits (fld nb 0x48 4) 17 15 == 0 && zeroFrom (nb.take 0x80) 0x4C
    && fld hdr 2 2 == 1 && bits (fld hdr 0x20 4) 0 20 == job
    && (if cbGrid nb then cbBudget nb == 0 && cbY nb != 0 else decide (1 ≤ cbBudget nb ∧ cbBudget nb ≤ 65536))
    && cbOut nb != 0 && cbOut nb % 32 == 0 && cbY nb % 64 == 0 && ((cbResid nb == 0) == (cbRows nb == 0))

/-! ### Areas and batches -/

/-- The bytes of a notice (R129). -/
def Notice.parse (b : List Byte) : Notice :=
  { job := bits (fld b 12 4) 0 20, gen := fld b 2 2, expert := fld b 0 2, first := fld b 4 4, count := fld b 8 4, rowBase := fld b 16 8, buffer := fld b 24 8 }

/-- The live batch of a generation. -/
def Dev.liveBatch (d : Dev) (job gen : Nat) : Option Batch := d.prism.batches.find? fun b => b.live ∧ b.job = job ∧ b.gen = gen

/-- Halves that routed tokens of a batch; the lead half for one without a live batch (DESIGN CHOICE). -/
def Dev.batchHalves (d : Dev) (b : Option Batch) : List Half :=
  let hs : List Half := match b with | none => [] | some b => ([.west, .east] : List Half).filter fun h => b.ctxs.any fun c => c.half = h
  if hs.isEmpty then [d.leadHalf] else hs

/-- The shape word of an expert in the area at an address: TOKEN_COUNT and LIST_START (R82). -/
def Wk.areaShape (w : Wk) (area e : Nat) : Nat × Nat :=
  (ofBytes (w.rdN (area + 0x40 + 8 * e) 4), ofBytes (w.rdN (area + 0x44 + 8 * e) 4))

/-- Batch indices of the expert-list entries a notice covers (R83). -/
def Wk.covered (w : Wk) (area : Nat) (n : Notice) : List Nat :=
  let base := area + ofBytes (w.rdN (area + 0x28) 4)
  let total := ofBytes (w.rdN (area + 0x0C) 4)
  (List.range (min n.count (total - n.first))).map fun i => ofBytes (w.rdN (base + 8 * (n.first + i)) 4)

/-- Halves whose Lens a notice reaches. -/
def Wk.noticeHalves (w : Wk) (b : Batch) (toks : List Nat) : List Half :=
  let hs := ([.west, .east] : List Half).filter fun h => b.ctxs.any fun c => c.half = h ∧ toks.contains c.token
  if hs.isEmpty then w.dev.batchHalves (some b) else hs

/-- Changes the Lens's record of a COMBINE. -/
def Dev.onComb (d : Dev) (seq i : Nat) (f : Comb → Comb) : Dev :=
  { d with lens := { d.lens with combs := d.lens.combs.map fun c => if c.seq = seq ∧ c.node = i then f c else c } }

/-- The Lens's record of a COMBINE. -/
def Dev.comb (d : Dev) (seq i : Nat) : Option Comb := d.lens.combs.find? fun c => c.seq = seq ∧ c.node = i

/-- The COMBINE that has been dispatched for a generation in NOTICE mode. -/
def Dev.combOf (d : Dev) (job gen : Nat) : Option Comb := d.lens.combs.find? fun c => c.job = job ∧ c.gen = gen ∧ ¬ cbGrid c.nb

/-- Slots not reserved in a half. -/
def Dev.slotsFree (d : Dev) (h : Half) : Nat := 65536 - sumBy (d.lens.combs.filter fun c => c.halves.contains h) (·.budget)

/-- Notices pending in a half. -/
def Dev.noticesPending (d : Dev) (h : Half) : Nat := (d.lens.pending.filter fun p => p.1.contains h).length

/-- COMBINE nodes held in a half. -/
def Dev.combsHeld (d : Dev) (h : Half) : Nat := (d.lens.combs.filter fun c => c.running ∧ c.halves.contains h).length

/-! ### The combine (R135, R136) -/

/-- What combining a batch reads: its record, operands, area, tokens and live batch. -/
structure CombIn where
  c : Comb
  nb : List Byte
  area : Nat
  t : Nat
  batch : Option Batch

/-- FP32 codes of a result row. -/
def Wk.resultRow (w : Wk) (x : CombIn) (expert idx : Nat) : Except (Nat × Nat) (Array Nat) :=
  let nb := x.nb
  let rb := cbRowBytes nb
  let n := x.c.got.find? fun n => n.expert = expert ∧ n.first ≤ idx ∧ idx < n.first + n.count
  let a := match n with
    | some n => if cbGrid nb ∨ n.rowBase = 0 then cbY nb + idx * rb else n.rowBase + (idx - n.first) * rb
    | none => cbY nb + idx * rb
  match w.rdLocal x.c.job a rb with
  | .error e => .error e
  | .ok bs => .ok ((unpackElems (elemBits (cbYType nb)) bs).map fun k => fl (decodeElem (cbYType nb) k)).toArray

/-- The residual row of an X row as FP32 codes. -/
def Wk.residRow (w : Wk) (x : CombIn) (row : Nat) : Except (Nat × Nat) (Array Nat) :=
  match w.tileRow x.c.job (cbResid x.nb) (cbD x.nb / 64) (row / 64) (cbRType x.nb) with
  | .error e => .error e
  | .ok ts => .ok (ts.flatMap fun t => let v := t.view; (List.range 64).map fun c => fl (v.val (row % 64) c)).toArray

/-- The X rows that the route node which wrote an area read for its tokens (R83). -/
def Dev.areaRows (d : Dev) (job area : Nat) : Option (List Nat) :=
  (d.prism.areas.find? fun a => a.job = job ∧ a.area = area).map (·.rows)

/-- Residual elements of a token for which the grid has no row: free values, drawn from a counter position (R135 states none). -/
def freeRow (d from_ : Nat) : Array Nat := ((List.range d).map fun c => (Config.freeWord (from_ + c)).toNat % 2 ^ 32).toArray

/-- Combines one token of its token-table record; `k` and pairs as kept. Answers the row, FP32 codes. -/
def Wk.combineToken (w : Wk) (x : CombIn) (tok k off : Nat) (dropped : Bool) : Except (Nat × Nat) (Array Nat) :=
  let d := cbD x.nb
  let zero : Array Nat := Array.replicate d 0
  if dropped then .ok zero
  else
    let ep := x.area + ofBytes (w.rdN (x.area + 0x30) 4)
    let pairs := (List.range k).map fun j => let a := ep + 16 * (off + j); (ofBytes (w.rdN a 2), ofBytes (w.rdN (a + 4) 4), ofBytes (w.rdN (a + 8) 4))
    let acc := pairs.foldl
      (fun (a : Except (Nat × Nat) (Array Nat)) p =>
        match a with
        | .error e => .error e
        | .ok acc =>
          match w.resultRow x p.1 p.2.1 with
          | .error e => .error e
          | .ok y => .ok (acc.mapIdx fun c v => ffma p.2.2 (y.getD c 0) v))
      (.ok zero)
    match acc with
    | .error e => .error e
    | .ok acc =>
      if cbResid x.nb = 0 then .ok acc
      else
        let el := x.area + ofBytes (w.rdN (x.area + 0x28) 4)
        let row : Option Nat := match pairs with
          | p :: _ => some (ofBytes (w.rdN (el + 8 * p.2.1 + 4) 4))
          | [] => (x.batch.map (·.rows) <|> w.dev.areaRows x.c.job x.area).bind (·[tok]?)
        let r : Except (Nat × Nat) (Array Nat) := match row with
          | none => .ok (freeRow d (w.dev.free + tok * d))
          | some r => if r < cbRows x.nb then w.residRow x r else .ok (freeRow d (w.dev.free + tok * d))
        match r with
        | .error e => .error e
        | .ok r => .ok (acc.mapIdx fun c v => fadd v (r.getD c 0))

/-- A token-table record: K, PAIR_OFFSET and INDEX_DROPPED (R84). -/
def Wk.tokRec (w : Wk) (area tok : Nat) : Nat × Nat × Bool :=
  let a := area + ofBytes (w.rdN (area + 0x2C) 4) + 8 * tok
  let r := ofBytes (w.rdN a 4)
  (bits r 0 7, ofBytes (w.rdN (a + 4) 4), bit r 8)

/-- The output tiles of a batch's rows, as runs (R72, R136). -/
def combRuns (nb : List Byte) (seed : Nat) (rows : Array (Array Nat)) : List Run :=
  let ty := cbOType nb
  let j := cbD nb / 64
  let s := 32 * (1 + plainSectors ty 0)
  let k : Conv := ⟨(Rnd.ofCode (bits (cbWord nb) 10 2)).getD .rne, seed, bits (cbWord nb) 24 8⟩
  (List.range (cdiv rows.size 64)).flatMap fun tr =>
    (List.range j).map fun tc =>
      let h := Hdr.fresh ty (min 64 (rows.size - 64 * tr)) 64 tr tc scaleOne false
      let body := packVals h k fun r c => f32 ((rows.getD (64 * tr + r) #[]).getD (64 * tc + c) 0)
      ⟨cbOut nb + (tr * j + tc) * s, ({ hdr := h, body := body } : Tile).mapped.stored⟩

/-- The counts that advance at the commit of a COMBINE. -/
def combCounts (d : Dev) (x : CombIn) (recs : List (Nat × Nat × Bool)) : List CommitAct :=
  let half (tok : Nat) : Half := match x.batch with
    | some b => (match b.ctxs.find? fun c => c.token = tok with | some c => c.half | none => d.leadHalf)
    | none => d.leadHalf
  ([.west, .east] : List Half).flatMap fun h =>
    let l := (recs.zipIdx.filter fun p => half p.2 = h).map (·.1)
    [.count h Reg.LENS_TOKENS_LO l.length, .count h Reg.LENS_PAIRS_LO (sumBy l (·.1)),
     .count h Reg.LENS_RESIDUAL_ONLY_LO ((l.filter fun r => r.1 = 0).length), .count h Reg.LENS_NOTICES_LO (x.c.used.get h)]

/-- Combines the whole batch of a COMBINE once every pair has arrived, writes its tiles and reports it complete. -/
def Wk.combine (w : Wk) (seq i : Nat) : Wk :=
  match w.dev.comb seq i with
  | none => w
  | some c =>
    let batch := w.dev.liveBatch c.job c.gen
    let ready : Bool := cbGrid c.nb || (match batch with | some b => b.ctxs.all fun x => decide (x.k ≤ x.arrived) | none => false)
    let running : Bool := match w.dev.node seq i with | some n => n.st == .running && n.eng == .working | none => false
    if ¬ c.running ∨ ¬ running ∨ ¬ ready then w
    else
      let area := cbArea c.nb
      let t := ofBytes (w.rdN (area + 8) 4)
      let bytes := ofBytes (w.rdN (area + 0x38) 4)
      let st := w.dev.checkRange c.job area bytes false
      if st ≠ 0 then w.raiseStatus seq i st area w.dev.leadHalf
      else if w.dev.poisoned area bytes then
        w.raiseStatus seq i stUncorrectable ((w.dev.poisonIn area bytes).getD area) w.dev.leadHalf
      else
        let x : CombIn := ⟨c, c.nb, area, t, batch⟩
        let recs := (List.range t).map fun k => w.tokRec area k
        let rows := recs.zipIdx.foldl
          (fun (a : Except (Nat × Nat) (List (Array Nat))) r =>
            match a with
            | .error e => .error e
            | .ok l => match w.combineToken x r.2 r.1.1 r.1.2.1 r.1.2.2 with | .error e => .error e | .ok y => .ok (l ++ [y]))
          (.ok [])
        match rows with
        | .error e => w.raiseStatus seq i e.1 e.2 w.dev.leadHalf
        | .ok rows =>
          let seed := match w.dev.job c.job with | some j => j.seed | none => 0
          let rs := combRuns c.nb seed rows.toArray
          match runsMisplaced rs with
          | some a => w.raiseStatus seq i stDenied a w.dev.leadHalf
          | none =>
            let w := w.upd fun d =>
              { d.onNode seq i fun n => { n with acts := n.acts ++ combCounts d x recs } with free := d.free + t * cbD c.nb }
            (w.stage seq i rs).upd (·.engineDone seq i)

/-! ### Notices (R129 to R132) -/

/-- Whether a notice passes the check of R130 and fits the budget. -/
def Wk.noticeOk (w : Wk) (c : Comb) (b : Batch) (hs : List Half) (n : Notice) : Bool :=
  let e := ofBytes (w.rdN (b.area + 4) 4)
  let s := w.areaShape b.area n.expert
  decide (n.expert < e) && decide (1 ≤ n.count) && decide (s.2 ≤ n.first ∧ n.first + n.count ≤ s.2 + s.1)
    && !(c.got.any fun g => g.expert = n.expert ∧ g.first < n.first + n.count ∧ n.first < g.first + g.count)
    && !(n.rowBase == 0 && cbY c.nb == 0) && hs.all fun h => decide (c.used.get h < c.budget)

/-- A notice that a dispatched COMBINE takes, or that fails its job. -/
def Wk.takeNotice (w : Wk) (c : Comb) (b : Batch) (n : Notice) : Wk :=
  let toks := w.covered b.area n
  let hs := w.noticeHalves b toks
  if ¬ w.noticeOk c b hs n then
    (w.upd (·.countIn hs Reg.LENS_BAD_NOTICE_LO)).fail c.seq c.node stNotice 0
  else
    let w := w.upd fun d => (d.onComb c.seq c.node fun c =>
      { c with got := c.got ++ [n],
               used := ⟨c.used.w + b2n (hs.contains .west), c.used.e + b2n (hs.contains .east)⟩ }).onPrism fun p =>
        { p with batches := p.batches.map fun y =>
            if y.live ∧ y.job = n.job ∧ y.gen = n.gen then
              { y with ctxs := y.ctxs.map fun x => { x with arrived := x.arrived + (toks.filter (· = x.token)).length } }
            else y }
    w.combine c.seq c.node

/-- The halves in whose pending queue a notice would be held: none once its COMBINE has dispatched or its generation has ended. -/
def Wk.noticeQueues (w : Wk) (n : Notice) : List Half :=
  match w.dev.liveBatch n.job n.gen with
  | none => []
  | some b => if (w.dev.combOf n.job n.gen).isSome then [] else w.noticeHalves b (w.covered b.area n)

/-- Whether the pending queue of every half that a notice reaches has room for it, or it needs none. -/
def Wk.noticeRoom (w : Wk) (n : Notice) : Bool := (w.noticeQueues n).all fun h => decide (w.dev.noticesPending h < 1024)

/-- Whether the notices that a commit would post, behind those on their way, find room (R130). -/
def Wk.noticesFit (w : Wk) (n : Node) : Bool :=
  let own := n.log.filterMap fun e => match e.2 with | .notice bs => some (w.noticeQueues (Notice.parse bs)) | _ => none
  let all := w.dev.lens.transit.map w.noticeQueues ++ own
  [Half.west, Half.east].all fun h =>
    !(own.any (·.contains h)) || decide (w.dev.noticesPending h + all.countP (·.contains h) ≤ 1024)

/-- Handles one notice (R130). -/
def Wk.handleNotice (w : Wk) (n : Notice) : Wk :=
  match w.dev.liveBatch n.job n.gen with
  | none => w.upd fun d => (d.freeNotices [n]).count d.leadHalf Reg.LENS_LATE_DROP_LO 1
  | some b =>
    match w.dev.combOf n.job n.gen with
    | some c => w.takeNotice c b n
    | none =>
      let hs := w.noticeHalves b (w.covered b.area n)
      w.upd fun d => { d with lens := { d.lens with pending := d.lens.pending ++ [(hs, n)] } }

/-- RESULT_NOTICE: the oldest released notice reaches the Lens, once there is room for it. -/
def Wk.resultNotice (w : Wk) : Wk :=
  match w.dev.lens.transit with
  | [] => w
  | n :: l =>
    if ¬ w.noticeRoom n then w
    else (w.upd fun d => { d with lens := { d.lens with transit := l } }).handleNotice n

/-- RESULT_NOTICE. -/
def execResultNotice (now : Nat) (s : State) : Host.Outcome State Fault Refusal := finish s ((s.start.at_ now).resultNotice)

/-! ### Dispatch and commit -/

/-- Whether the Lenses can hold a COMBINE: fewer than 16 in each half it needs, and in NOTICE mode its budget free there
(R137, R141). -/
def Wk.lensFree (w : Wk) (d : Dev) (seq i : Nat) : Bool :=
  match d.inst seq with
  | none => false
  | some x =>
    match w.rdForm x.job x.fn (x.base + 128 * i) 128 with
    | .error _ => true
    | .ok nb =>
      match w.rdLocal x.job (cbArea nb) 4 with
      | .error _ => true
      | .ok h =>
        let hs := d.batchHalves (d.liveBatch x.job (fld h 0 2))
        hs.all fun h =>
          decide (d.combsHeld h < 16) && (cbGrid nb || (d.comb seq i).isSome || decide (65536 < cbBudget nb) || decide (cbBudget nb ≤ d.slotsFree h))

/-- A COMBINE whose checks passed takes its place in the Lenses and the notices held for it. -/
def Wk.combBegin (w : Wk) (seq i : Nat) (x : Inst) (nb : List Byte) (gen : Nat) : Wk :=
  let live := w.dev.liveBatch x.job gen
  let w := w.upd fun d =>
    if (d.comb seq i).isSome then d.onComb seq i fun c => { c with running := true }
    else { d with lens := { d.lens with combs := d.lens.combs ++
      [⟨seq, i, x.job, gen, nb, d.batchHalves live, cbBudget nb, ⟨0, 0⟩, [], true⟩] } }
  let mine (p : List Half × Notice) : Bool := !cbGrid nb && p.2.job == x.job && p.2.gen == gen
  let held := w.dev.lens.pending.filter mine
  let w := w.upd fun d => { d with lens := { d.lens with pending := d.lens.pending.filter fun p => ¬ mine p } }
  (held.foldl (fun w p => w.handleNotice p.2) w).combine seq i

/-- A COMBINE at dispatch. -/
def Wk.runCombine (w : Wk) (seq i : Nat) (x : Inst) (nb : List Byte) : Wk :=
  match w.rdLocal x.job (cbArea nb) 64 with
  | .error e => w.raiseStatus seq i e.1 e.2 w.dev.leadHalf
  | .ok hdr =>
    let gen := fld hdr 0 2
    if ¬ combineOk nb hdr x.job ∨ (¬ cbGrid nb ∧ (gen = 0 ∨ (w.dev.liveBatch x.job gen).isNone)) then w.fail seq i stCombine 0
    else w.combBegin seq i x nb gen

/-- COMBINE. -/
def execCombine (inst node now : Nat) (s : State) : Host.Outcome State Fault Refusal :=
  finish s <|
    let w := s.start.at_ now
    w.dispatch inst node 0x203 (fun d a b => w.lensFree d a b) false noNull fun w x _ nb => w.runCombine inst node x nb

/-- Halves whose Lens holds a notice of a COMBINE (R129). -/
def Wk.holdsNotice (w : Wk) (c : Comb) (n : Notice) : List Half :=
  match w.dev.liveBatch c.job c.gen with
  | some b => w.noticeHalves b (w.covered b.area n)
  | none => c.halves

/-- What the commit of a COMBINE does in the Lens and the Prism: it frees the BUFFERs of its notices and the contexts of its
batch (R88, R133, R134). A notice that both Lenses hold has its BUFFER freed once, by the first of them, which counts and
reports a refusal (DESIGN CHOICE, assumption 44). -/
def Wk.combCommit (w : Wk) (seq i : Nat) : Wk :=
  match w.dev.comb seq i with
  | none => w
  | some c =>
    let w := c.got.foldl
      (fun w n =>
        if n.buffer = 0 then w
        else
          let f := w.dev.freeFor c.job n.buffer
          let w := w.upd fun _ => f.1
          if f.2 = 0 then w
          else
            let h := (w.holdsNotice c n).headD w.dev.leadHalf
            (w.upd (·.count h Reg.LENS_FREE_FAIL_LO 1)).postJob h { kind := 8, status := f.2, job := c.job, d0 := n.buffer })
      w
    w.upd fun d => { d with lens := { d.lens with combs := d.lens.combs.filter fun x => ¬ (x.seq = seq ∧ x.node = i) } }.retireGen c.job c.gen

end Sys2Proof.Machine
end

