-- ==== Sys2Proof/Machine/Mirror.lean ====
section
/-! DEFINITION. The Health Monitor, epoch cuts, the Mirror's partner and restore (R465 to R488). -/

namespace Sys2Proof.Machine

open Sys2Proof

/-! ### Risk (R465 to R468) -/

/-- A rate after one ms with `c` counts. -/
def ewma (e c : Nat) : Nat := min (e - e / 16 + c) (2 ^ 24 - 1)

/-- The five counts of a half since its last sample, and the counter values to compare the next sample with. -/
def Dev.hmCounts (d : Dev) (h : Half) : List Nat × List Nat :=
  let x := d.hm.get h
  let now0 := d.reg64 h Reg.MEM_ECC_CE_LO + d.reg64 h Reg.MEM_STACK_CE_LO
  let now1 := d.reg64 h Reg.FAB_REPLAYS_LO + d.reg64 h Reg.FAB_TAG_FAIL_LO
  let since (now seen : Nat) : Nat := if seen ≤ now then now - seen else now
  ([since now0 (nth x.seen 0 0), since now1 (nth x.seen 1 0), x.parity, (d.top.sc.get h).droops, x.sram], [now0, now1, 0, 0, 0])

/-- Highest junction temperature of a half in whole °C. -/
def Dev.tMax (d : Dev) (h : Half) : Int := ((d.top.sc.get h).temps.foldl max (-65536)) / 256

/-- The risk level of a half (R466). -/
def Dev.halfRisk (d : Dev) (h : Half) : Nat :=
  let x := d.hm.get h
  let pts := sumBy (List.range 5) fun i => min 15 (nth x.e i 0 * d.rn h (Reg.HM_WEIGHT_0 + 4 * i) / 4096)
  let cfg := d.rn h Reg.HM_TEMP_CFG
  let knee : Int := bits cfg 8 8
  let t := d.tMax h
  let pts := if t > knee then pts + ((t - knee) / (bits cfg 0 8 : Nat)).toNat else pts
  min 15 (max x.floor pts)

/-- HM_RISK.DEVICE. -/
def Dev.deviceRisk (d : Dev) : Nat :=
  if d.top.degraded then (d.hm.get d.leadHalf).level else max d.hm.w.level d.hm.e.level

/-- HM_RISK. -/
def Dev.hmRisk (d : Dev) : Nat := d.hmBase * 2 ^ 24 + d.hm.e.level * 2 ^ 16 + d.hm.w.level * 2 ^ 8 + d.deviceRisk

/-- One half's ms. -/
def Dev.hmHalf (d : Dev) (h : Half) : Dev :=
  let c := d.hmCounts h
  let x := d.hm.get h
  let e := (List.range 5).map fun i => ewma (nth x.e i 0) (nth c.1 i 0)
  let d := { d with hm := d.hm.set h { x with e := e, seen := c.2, parity := 0, sram := 0 } }
  let d := d.onTop fun t => { t with sc := t.sc.set h { t.sc.get h with droops := 0 } }
  { d with hm := d.hm.set h { d.hm.get h with level := d.halfRisk h } }

/-- HM_SAMPLE: rates, levels, and a RISK cut (R468). -/
def Wk.hmSample (w : Wk) : Wk :=
  let w := w.upd fun d =>
    if d.top.degraded then d.hmHalf d.leadHalf else (d.hmHalf .west).hmHalf .east
  let r := w.dev.deviceRisk
  let step := w.dev.rn w.dev.leadHalf Reg.HM_RISK_STEP
  if step ≠ 0 ∧ w.dev.hmBase + step ≤ r then (w.upd fun d => { d with hmBase := r }).cutRequest 1
  else if r < w.dev.hmBase then w.upd fun d => { d with hmBase := r }
  else w

/-- HM_SAMPLE. -/
def execHmSample (now : Nat) (s : State) : Host.Outcome State Fault Refusal := finish s ((s.start.at_ now).hmSample)

/-- HM_FLOOR_DECAY (R467). -/
def Dev.floorDecay (d : Dev) (h : Half) : Dev :=
  let x := d.hm.get h
  let ns := 1000000 * bits (d.rn h Reg.HM_CFG) 16 16
  if x.floor = 0 ∨ d.time < x.floorAt + ns then d
  else { d with hm := d.hm.set h { x with floor := x.floor - 1, floorAt := x.floorAt + ns } }

/-- HM_FLOOR_DECAY. -/
def execHmFloorDecay (half : Half) (now : Nat) (s : State) : Host.Outcome State Fault Refusal := onDev s fun d => (d.at_ now).floorDecay half

/-- A facet retirement raises its half's floor (R467). -/
def Dev.floorBump (d : Dev) (h : Half) : Dev :=
  let x := d.hm.get h
  { d with hm := d.hm.set h { x with floor := min 15 (x.floor + bits (d.rn h Reg.HM_CFG) 4 4), floorAt := d.time } }

/-! ### The cut record (R471). Offsets inside a section are DESIGN CHOICE: the spec gives its order and sizes. -/

/-- Jobs that a cut records. -/
def Dev.guardedJobs (d : Dev) : List (Nat × Job) := d.host.jobs.filter (·.2.guarded)

/-- The 64 bytes of a job. -/
def jobRecord (id : Nat) (j : Job) : List Byte :=
  toBytes 4 id ++ toBytes 4 j.client ++ toBytes 8 j.seed ++ toBytes 4 j.genNext ++ toBytes 4 (b2n j.trainOn * 4 + j.trainTied)
    ++ toBytes 8 j.trainBase ++ toBytes 4 j.trainCount ++ toBytes 4 j.fn ++ List.replicate 24 0

/-- The rings bound to a protected job, as (function, ring). -/
def Dev.guardedRings (d : Dev) : List (Nat × Nat) := d.guardedJobs.flatMap fun j => d.jobRings j.1

/-- The 64 bytes of a ring: its registers 0x00 to 0x20, SQ_HEAD and CQ_TAIL. -/
def Dev.ringRecord (d : Dev) (fn r : Nat) : List Byte :=
  let x := d.ring fn r
  toBytes 4 (fn * 16 + r) ++ ((List.range 9).flatMap fun k => toBytes 4 (d.ringReg fn r (4 * k))) ++ toBytes 4 x.sqHead
    ++ toBytes 4 x.cqTail ++ List.replicate 16 0

/-- Buffers that a cut records. -/
def Dev.guardedBufs (d : Dev) : List Buf := sortBy (fun (a b : Buf) => decide (a.base < b.base)) (d.host.bufs.filter d.guards)

/-- The 32 bytes of a buffer. -/
def bufRecord (b : Buf) : List Byte :=
  toBytes 8 b.base ++ toBytes 4 b.pool ++ toBytes 4 (b.size / 4096) ++ toBytes 4 b.flags ++ toBytes 4 b.owner ++ toBytes 4 b.client
    ++ toBytes 4 0

/-- The word of a node: its state code, its status, and whether it is a route node with a live generation. -/
def Dev.nodeWord (d : Dev) (seq i : Nat) (n : Node) : Nat :=
  let st := match n.st with | .waiting => 0 | .ready => 1 | .running => 2 | .committing => 3 | .done => 4
  st + n.status % 256 * 2 ^ 8 + b2n (d.prism.batches.any fun b => b.live ∧ b.seq = seq ∧ b.node = i) * 2 ^ 16

/-- The bytes of an instance. -/
def Dev.instRecord (d : Dev) (seq : Nat) (x : Inst) : List Byte :=
  (x.gsd ++ List.replicate 64 0).take 64 ++ toBytes 4 x.number ++ toBytes 4 seq ++ toBytes 4 (x.fn * 2 ^ 8 + x.ring * 2 + x.lane)
    ++ toBytes 4 x.nodes.length ++ (x.nodes.zipIdx.flatMap fun n => toBytes 4 (d.nodeWord seq n.2 n.1))

/-- The record of cut `n`. -/
def Dev.cutRecord (d : Dev) (n cause : Nat) : List Byte :=
  let jobs := d.guardedJobs
  let rings := d.guardedRings
  let bufs := d.guardedBufs
  let insts := d.tgu.insts.filter fun p => jobs.any fun j => j.1 = p.2.job
  let body := (jobs.flatMap fun j => jobRecord j.1 j.2) ++ (rings.flatMap fun r => d.ringRecord r.1 r.2) ++ bufs.flatMap bufRecord
    ++ insts.flatMap fun p => d.instRecord p.1 p.2
  let head := toBytes 4 0x4D495243 ++ toBytes 4 n ++ toBytes 8 d.time ++ toBytes 4 cause ++ toBytes 4 d.hmRisk
    ++ toBytes 4 (b2n d.top.strict) ++ toBytes 4 0 ++ toBytes 8 (d.reg64 .west Reg.TOP_TDC_COUNT_LO) ++ toBytes 4 jobs.length
    ++ toBytes 4 rings.length ++ toBytes 4 bufs.length ++ toBytes 4 insts.length ++ toBytes 4 (64 + body.length)
  let crc := crc32c (head ++ toBytes 4 0 ++ body)
  head ++ toBytes 4 crc ++ body

/-! ### Taking and draining a cut (R470, R472) -/

/-- The number after a cut's: 0 is skipped. -/
def nextCut (n : Nat) : Nat := if n + 1 = 2 ^ 32 then 1 else n + 1

/-- EPOCH_CUT: at a commit boundary a requested cut is taken, or ends TOO_LARGE. -/
def Wk.epochCut (w : Wk) : Wk :=
  match w.dev.mir.asked with
  | none => w
  | some cause =>
    if ¬ w.dev.mirLive ∨ w.dev.mir.cut.isSome then w
    else
      let n := w.dev.mir.openCut
      let rec_ := w.dev.cutRecord n cause
      if rec_.length > 2 ^ 28 then
        (w.upd fun d => d.onMir fun m => { m with asked := none, lastCause := cause, lastResult := 4 }).mirWake n false
      else
        w.upd fun d =>
          let rings := d.guardedRings.map fun r => (r.1 * 16 + r.2, (d.ring r.1 r.2).sqHead, (d.ring r.1 r.2).cqTail)
          let ps := sortBy (fun a b => decide (a < b)) d.mir.dirty
          let d := d.count d.leadHalf Reg.MIR_PAUSE_NS_LO (cdiv rec_.length 64 * 1000 / (d.top.sc.get d.leadHalf).clk)
          d.onMir fun m =>
            { m with asked := none, lastCause := cause, lastResult := 2, dirty := [], openCut := nextCut n, openBytes := 0, openAt := none,
                     cut := some { n := n, cause := cause, time := d.time, pages := ps, all := ps, record := rec_, sent := 0,
                                   closing := false, rings := rings } }

/-- EPOCH_CUT. -/
def execEpochCut (now : Nat) (s : State) : Host.Outcome State Fault Refusal := finish s ((s.start.at_ now).epochCut)

/-- CUT_INTERVAL (R469). -/
def execCutInterval (now : Nat) (s : State) : Host.Outcome State Fault Refusal :=
  finish s <|
    let w := s.start.at_ now
    let ms := bits (w.dev.rn w.dev.leadHalf Reg.MIR_CUT_CFG) 0 16
    let m := w.dev.mir
    if ms = 0 ∨ w.dev.time < m.closedAt + 1000000 * ms ∨ m.cut.isSome ∨ m.asked.isSome then w else w.cutRequest 2

/-- MIRROR_PAGE_PUSH: the next frozen page, then the cut record, then CUT_CLOSE once the partner has acknowledged all that
went before it. -/
def Wk.pagePush (w : Wk) : Wk :=
  match w.dev.mir.cut with
  | none => w
  | some c =>
    match c.pages with
    | p :: _ => (w.mirPush p).getD w
    | [] =>
      let m := w.dev.mir
      if c.sent = 0 then
        w.upd fun d =>
          let bs := c.record ++ List.replicate ((32 - c.record.length % 32) % 32) 0
          (d.mirWrite (cutSlotOff c.n) bs).onMir fun m => { m with cut := some { c with sent := c.record.length } }
      else if c.closing ∨ (w.dev.dest m.partner).owes fun t f => t.tc == 5 && (match f with | .engine _ => true | _ => false) then w
      else
        w.upd fun d =>
          (d.mirMsg m.partner msgCutClose c.n c.record.length m.pos (m.openAt.getD m.pos)).onMir fun m =>
            { m with cut := some { c with closing := true } }

/-- The partner has acknowledged CUT_CLOSE of cut `n`, having freed the remote ring up to a position. -/
def Wk.cutClosed (w : Wk) (n free : Nat) : Wk :=
  match w.dev.mir.cut with
  | none => w
  | some c =>
    if c.n ≠ n ∨ ¬ c.closing then w
    else
      let risk := ofBytes ((c.record.drop 20).take 4)
      let w := w.upd fun d => (d.count d.leadHalf Reg.MIR_CUTS_LO 1).onMir fun m =>
        { m with cut := none, lastResult := 1, closed := n, closedAt := d.time, closedTime := c.time, closedRings := c.rings, tail := free }
      let w := w.post w.dev.leadHalf 0 { kind := 6, d0 := n, d1 := risk }
      let w := if w.dev.mir.st = 1 ∧ w.dev.mir.syncCut ≤ n then w.mirState 2 true else w
      (w.upd (·.mirNext)).mirWake n true

/-- What the Mirror makes of the outcome of a request it sent to its partner. -/
def Wk.mirHook (w : Wk) (t : Txn) (status : Nat) : Wk :=
  let msg : Bool := t.op == opMsg && t.region == mirFid
  let kind := fld t.data 0 8
  if t.dest ≠ w.dev.mir.partner ∨ (msg ∧ kind ≠ msgCutClose ∧ kind ≠ msgHello) then w
  else if status = stOk then (if msg ∧ kind = msgCutClose then w.cutClosed (fld t.data 8 8) (fld t.data 32 8) else w)
  else if msg ∧ kind = msgCutClose ∧ status = stTileCrc then w.cutFails
  else w.mirStale

/-! ### SNAPSHOT (R480) -/

/-- SNAPSHOT at dispatch. -/
def Wk.runSnapshot (w : Wk) (seq i : Nat) (x : Inst) (nb : List Byte) : Wk :=
  let a := fld nb 0x20 8
  if a % 16 ≠ 0 ∨ addrForm a ≠ 0 ∨ ¬ zeroFrom nb 0x28 then w.fail seq i stFormat 0
  else
    let live := w.dev.mirLive
    let guarded : Bool := match w.dev.job x.job with | some j => j.guarded | none => false
    let n := w.dev.mir.openCut
    let w := w.cutRequest 4
    let w := w.upd fun d => (d.onNode seq i fun k => { k with eng := .cutting }).onMir fun m =>
      { m with waits := m.waits.filter (fun y => ¬ (y.inst = seq ∧ y.node = i)) ++ [⟨seq, i, n, a, guarded⟩] }
    if live then w else w.mirWake (2 ^ 64) false

/-- SNAPSHOT. -/
def execSnapshot (inst node now : Nat) (s : State) : Host.Outcome State Fault Refusal :=
  finish s ((s.start.at_ now).dispatch inst node 0x700 always false noNull fun w x _ nb => w.runSnapshot inst node x nb)

/-! ### Set-up (R473 to R475) -/

/-- Protection by a partner ends. -/
def Wk.mirOff (w : Wk) : Wk :=
  let w := w.cutFails
  let w := w.upd fun d => d.onMir fun m =>
    { m with map := [], dirty := [], plans := [], asked := none, merged := none, slots := 0, ring := 0, pos := 0, tail := 0, openBytes := 0,
             openAt := none }
  (w.mirWake (2 ^ 64) false).mirState 0 false

/-- A write to MIR_PARTNER. -/
def Wk.partnerWrite (w : Wk) (v : Nat) : Wk :=
  let h := w.dev.leadHalf
  let old := w.dev.rn h Reg.MIR_PARTNER
  let id := bits v 0 18
  if bit old 31 then
    if bit v 31 then w
    else (w.upd fun d => d.setReg h Reg.MIR_PARTNER (w32 (bits old 0 18))).mirOff
  else
    let w := w.upd fun d => d.setReg h Reg.MIR_PARTNER (w32 (b2n (bit v 31) * 2 ^ 31 + id))
    if ¬ bit v 31 then w
    else
      let w := w.upd fun d => d.onMir fun m => { m with partner := id }
      if id ≠ w.dev.me ∧ w.dev.level id = 3 then w.mirState 6 false
      else if ¬ w.dev.reachable id then w.mirState 3 false
      else w.upd fun d => d.mirMsg id msgHello 0 0 0 0

/-- After the route of a destination is written: a partner that cannot be reached any longer leaves the copy STALE (R479); one that can
be reached again is greeted anew, and its answer starts a first full copy (DESIGN CHOICE: the spec does not say what ends STALE). -/
def Wk.mirRoute (w : Wk) (dest : Nat) : Wk :=
  let m := w.dev.mir
  if dest ≠ m.partner ∨ ¬ bit (w.dev.rn w.dev.leadHalf Reg.MIR_PARTNER) 31 then w
  else if ¬ w.dev.reachable dest then w.mirStale
  else if m.st = 3 ∧ w.dev.level dest ≠ 3 then
    w.upd fun d => (d.onMir fun m => { m with slots := 0, ring := 0 }).mirMsg dest msgHello 0 0 0 0
  else w

/-- Writes the area header of a hosted copy: device, last closed cut, size, and journal pointers. -/
def Wk.hostHeader (w : Wk) (h : Half) : Wk :=
  let x := w.dev.mir.host.get h
  w.wr x.base (toBytes 4 x.device ++ toBytes 4 x.closed ++ toBytes 4 x.slots ++ toBytes 4 x.gib ++ toBytes 8 x.read ++ toBytes 8 x.wrote
    ++ toBytes 8 x.tapRead ++ toBytes 8 x.tapWrote)

/-- Whether a half can host a copy area (R474). -/
def Dev.hostOk (d : Dev) (h : Half) (base slots gib : Nat) : Bool :=
  let t := tierBase h false
  base % 65536 == 0 && decide (1 ≤ slots) && decide (1 ≤ gib) && decide (t ≤ base ∧ base + areaBytes slots gib ≤ t + 1020 * 2 ^ 30)
    && decide (t + d.poolSpan h (tierPools false) ≤ base)

/-- A write to MIR_HOST_DEVICE of a half. -/
def Wk.hostWrite (w : Wk) (h : Half) (v : Nat) : Wk :=
  let id := bits v 0 18
  if ¬ bit v 31 then
    w.upd fun d => (d.setReg h Reg.MIR_HOST_DEVICE (w32 id)).onMir fun m => { m with host := m.host.set h .cold }
  else
    let base := w.dev.reg64 h Reg.MIR_HOST_BASE_LO
    let size := w.dev.rn h Reg.MIR_HOST_SIZE
    if ¬ w.dev.hostOk h base (bits size 0 24) (bits size 24 8) then
      w.upd fun d => (d.setReg h Reg.MIR_HOST_DEVICE (w32 id)).onMir fun m => { m with host := m.host.set h .cold }
    else
      let x : MirHost := { MirHost.cold with on := true, device := id, base := base, slots := bits size 0 24, gib := bits size 24 8 }
      let was := w.dev.mir.host.get h
      let x := if was.on ∧ was.device = id ∧ was.base = base ∧ was.slots = x.slots ∧ was.gib = x.gib then was else x
      (w.upd fun d => (d.setReg h Reg.MIR_HOST_DEVICE (w32 (2 ^ 31 + id))).onMir fun m => { m with host := m.host.set h x }).hostHeader h

/-- A write to MIR_JOB_CTL. -/
def Wk.mirJobCtl (w : Wk) (v : Nat) : Wk :=
  let h := w.dev.leadHalf
  let sel := bits (w.dev.rn h Reg.MIR_JOB) 0 20
  let result (w : Wk) (r : Nat) : Wk := w.upd fun d => d.setReg h Reg.MIR_JOB (w32 (r * 2 ^ 28 + sel))
  let act := bits v 0 2
  if act ≠ 1 ∧ act ≠ 2 then w
  else
    match w.dev.job sel with
    | none => result w 2
    | some j =>
      let w := result (w.upd fun d => d.setJob sel { j with guarded := decide (act = 1) }) 1
      if act = 2 then w.mirBufs
      else if ¬ j.guarded ∧ (w.dev.mir.st = 1 ∨ w.dev.mir.st = 2 ∨ w.dev.mir.st = 4) then
        (if w.dev.guardedPages.length ≤ w.dev.mir.slots then w.mirSync else w.mirState 4 false)
      else w

/-! ### The partner's side (R473, R477, R478) -/

/-- A HELLO: accepted with the copy area of the half that hosts the sender, whose copy starts anew, or refused. -/
def Wk.helloIn (w : Wk) (src : Nat) : Wk :=
  match w.dev.hostOf src with
  | none => w.upd fun d => d.mirMsg src msgHelloReply 0 0 0 0
  | some h =>
    let x := w.dev.mir.host.get h
    let x' := { x with read := 0, wrote := 0, tapRead := 0, tapWrote := 0, closed := 0, plans := [] }
    let w := w.upd fun d => d.onMir fun m => { m with host := m.host.set h x' }
    let w := (w.wr (x.base + mapOff) (List.replicate (mapBytes x.slots) 0)).hostHeader h
    w.upd fun d => d.mirMsg src msgHelloReply 1 x.slots x.gib h.code

/-- A HELLO_REPLY at the protected device. -/
def Wk.helloReply (w : Wk) (src ok slots gib area : Nat) : Wk :=
  let m := w.dev.mir
  if m.partner ≠ src ∨ ¬ bit (w.dev.rn w.dev.leadHalf Reg.MIR_PARTNER) 31 ∨ m.slots ≠ 0 then w
  else if ok = 0 then w.mirState 6 false
  else
    (w.upd fun d => d.onMir fun m =>
      { m with slots := slots, ring := gib * 2 ^ 29, area := area, pos := 0, tail := 0, map := [], dirty := [], openBytes := 0, openAt := none }).mirSync

/-- Bytes of a ring in memory from a position counted on. -/
def Wk.ringBytes (w : Wk) (base ring pos n : Nat) : List Byte := (List.range n).map fun i => w.rd (base + (pos + i) % ring)

/-- Headers of the records of a ring between two positions, with their positions. The first argument bounds their number. -/
def Wk.ringRecs (w : Wk) (base ring end_ : Nat) : Nat → Nat → List (Nat × List Byte)
  | 0, _ => []
  | k + 1, pos =>
    if pos + 64 > end_ then []
    else
      let h := w.ringBytes base ring pos 64
      (pos, h) :: w.ringRecs base ring end_ k (pos + 64 + fld h 8 4)

/-- The slot of a source page in a copy area's map. -/
def Wk.slotOfPage (w : Wk) (base slots page : Nat) : Option Nat :=
  (List.range slots).find? fun k =>
    let a := base + mapOff + 16 * k
    ofBytes (w.rdN a 8) = page ∧ ofBytes (w.rdN (a + 12) 4) = 1

/-- Writes bytes of source addresses to the image, page by page; a page without a slot is passed over. -/
def Wk.imageWrite (w : Wk) (x : MirHost) (addr : Nat) (bs : List Byte) : Wk :=
  let first := addr / mirPage
  let last := (addr + bs.length - 1) / mirPage
  if bs.isEmpty then w
  else
    (List.range (last - first + 1)).foldl
      (fun w i =>
        let p := (first + i) * mirPage
        let a := max addr p
        let n := min (addr + bs.length) (p + mirPage) - a
        match w.slotOfPage x.base x.slots p with
        | none => w
        | some k => w.wr (x.base + imageOff x.slots + mirPage * k + (a - p)) ((bs.drop (a - addr)).take n))
      w

/-- Applies one MAP, UNMAP or PAGE record. -/
def Wk.applyRec (w : Wk) (x : MirHost) (pos : Nat) (h : List Byte) : Wk :=
  let kind := fld h 0 4
  let addr := fld h 16 8
  let slot := fld h 24 8
  let ring := x.gib * 2 ^ 29
  let at_ := x.base + mapOff + 16 * slot
  if slot ≥ x.slots then w
  else if kind = recMap then w.wr at_ (toBytes 8 addr ++ toBytes 4 (fld h 12 4) ++ toBytes 4 1)
  else if kind = recUnmap then w.wr (at_ + 12) (toBytes 4 0)
  else if kind = recPage then
    let dst := x.base + imageOff x.slots + mirPage * slot
    let w := w.wr dst (w.ringBytes (x.base + journalOff x.slots) ring (pos + 64) mirPage)
    if fld h 32 8 = 0 then w
    else w.upd fun d => d.onHost fun s => { s with poison := s.poison ++ (List.range 1024).map (dst / 64 + ·) }
  else w

/-- The plans of a partner after records tagged up to `n` and after `last`. -/
def plansAfter (plans : List HostPlan) (recs : List (Nat × List Byte)) (last n : Nat) : List HostPlan :=
  recs.foldl
    (fun ps r =>
      let h := r.2
      let tag := fld h 4 4
      let kind := fld h 0 4
      let fid := fld h 24 8
      let seq := fld h 32 8
      if tag ≤ last ∨ n < tag then ps
      else if kind = recTapPlan then ps ++ [⟨fid, seq, fld h 16 8, fld h 44 4, 0⟩]
      else if kind = recTapAccept ∨ kind = recTapDrop then
        ps.map fun p => if p.fid = fid ∧ p.seq = seq ∧ p.state = 0 then { p with state := if kind = recTapAccept then 1 else 2 } else p
      else ps)
    plans

/-- CUT_CLOSE at the partner: checks the record and applies the journal up to the cut. Answers the status: TILE_CRC for a
record that fails, ACCESS_DENIED for a device that is not hosted. -/
def Wk.cutCloseIn (w : Wk) (src n len end_ free : Nat) : Wk × Nat :=
  match w.dev.hostOf src with
  | none => (w, stDenied)
  | some h =>
    let x := w.dev.mir.host.get h
    let rec_ := w.rdN (x.base + cutSlotOff n) len
    let good : Bool := decide (64 ≤ len ∧ len ≤ 2 ^ 28) && fld rec_ 0 4 == 0x4D495243 && fld rec_ 4 4 == n && fld rec_ 56 4 == len
      && crc32c (rec_.take 60 ++ toBytes 4 0 ++ rec_.drop 64) == fld rec_ 60 4
    if ¬ good then (w, stTileCrc)
    else
      let ring := x.gib * 2 ^ 29
      let remote := x.base + journalOff x.slots
      let taps := remote + ring
      let recs := w.ringRecs remote ring end_ ((end_ - x.read) / 64 + 1) x.read
      let mine := recs.filter fun r => x.closed < fld r.2 4 4 ∧ fld r.2 4 4 ≤ n
      let plans := plansAfter x.plans recs x.closed n
      let tapRecs := w.ringRecs taps ring x.tapWrote ((x.tapWrote - x.tapRead) / 64 + 1) x.tapRead
      let planOf (r : List Byte) : Option HostPlan := plans.find? fun p => p.fid = fld r 24 8 ∧ p.seq = fld r 32 8
      let due := tapRecs.filter fun r => match planOf r.2 with | some p => p.state == 1 | none => false
      let w := due.foldl
        (fun w r =>
          match planOf r.2 with
          | none => w
          | some p => w.imageWrite x (p.src + fld r.2 40 8 * p.size) (w.ringBytes taps ring (r.1 + 64) (fld r.2 8 4)))
        w
      let w := mine.foldl (fun w r => w.applyRec x r.1 r.2) w
      let applied := sumBy due (fun r => 64 + fld r.2 8 4) + sumBy mine fun r => 64 + fld r.2 8 4
      let decided (r : List Byte) : Bool := match planOf r with | some p => p.state != 0 | none => false
      let left := tapRecs.dropWhile fun r => decided r.2
      let tapRead := match left with | r :: _ => r.1 | [] => x.tapWrote
      let plans := (plans.map fun p => if p.state = 1 then { p with state := 3 } else p).filter fun p =>
        p.state = 0 ∨ left.any fun r => p.fid = fld r.2 24 8 ∧ p.seq = fld r.2 32 8
      let w := w.upd fun d => (d.count h Reg.MIR_HOST_APPLY_BYTES_LO applied).onMir fun m =>
        { m with host := m.host.set h { x with read := free, wrote := end_, closed := n, plans := plans, tapRead := tapRead } }
      (w.hostHeader h, stOk)

/-- A Mirror message of a kind. -/
def isMirMsg (kind : Nat) (t : Txn) : Bool := t.op == opMsg && t.job == 0 && t.tc == 5 && t.region == mirFid && fld t.data 0 8 == kind

/-- HELLO. -/
def execHello (port now : Nat) (s : State) : Host.Outcome State Fault Refusal :=
  finish s ((s.start.at_ now).onTxn port (isMirMsg msgHello) fun w t => w.request port t fun w => (w.helloIn t.src, stOk))

/-- HELLO_REPLY. -/
def execHelloReply (port now : Nat) (s : State) : Host.Outcome State Fault Refusal :=
  finish s ((s.start.at_ now).onTxn port (isMirMsg msgHelloReply) fun w t => w.request port t fun w =>
    (w.helloReply t.src (fld t.data 8 8) (fld t.data 16 8) (fld t.data 24 8) (fld t.data 32 8), stOk))

/-- CUT_CLOSE. -/
def execCutClose (port now : Nat) (s : State) : Host.Outcome State Fault Refusal :=
  finish s ((s.start.at_ now).onTxn port (isMirMsg msgCutClose) fun w t => w.request port t fun w =>
    w.cutCloseIn t.src (fld t.data 8 8) (fld t.data 16 8) (fld t.data 24 8) (fld t.data 32 8))

/-- TAP_RESULT. -/
def execTapResult (port now : Nat) (s : State) : Host.Outcome State Fault Refusal :=
  finish s ((s.start.at_ now).onTxn port (isMirMsg msgTapResult) fun w t => w.request port t fun w =>
    if t.src = w.dev.mir.partner then (w.tapEnds (fld t.data 8 8) (fld t.data 16 8) (decide (fld t.data 24 8 = stOk)), stOk) else (w, stDenied))

/-! ### Restore (R481 to R484) -/

/-- Changes a restore under way. -/
def Dev.onRestore (d : Dev) (f : MirRestore → MirRestore) : Dev := d.onMir fun m => { m with restore := m.restore.map f }

/-- Asks the partner for bytes of its copy area, in the MIRROR class. -/
def Dev.restoreAsk (d : Dev) (r : MirRestore) (off n : Nat) : Dev :=
  (pieces off n).foldl
    (fun d pc =>
      let o := off + pc.1
      if pc.2 = 4096 then d.sendRead r.src 0 r.region o 144 5 true (.restore o) else d.sendRead r.src 0 r.region o (pc.2 / 32) 5 false (.restore o))
    d

/-- Ends a restore with a RESULT code; the state leaves RESTORING. -/
def Wk.restoreEnd (w : Wk) (result : Nat) : Wk :=
  let w := w.upd fun d => (d.setReg d.leadHalf Reg.MIR_RESTORE_STATUS (w32 (result * 2 ^ 28))).onMir fun m => { m with restore := none }
  if w.dev.mir.slots ≠ 0 ∧ bit (w.dev.rn w.dev.leadHalf Reg.MIR_PARTNER) 31 then w.mirSync else w.mirState 0 false

/-- Starts reading a part of the copy area. -/
def Wk.restoreRead (w : Wk) (step off n : Nat) : Wk :=
  let n := cdiv n 32 * 32
  let w := w.upd fun d => d.onRestore fun r => { r with step := step, buf := List.replicate n 0, wanted := n }
  match w.dev.mir.restore with
  | none => w
  | some r => w.upd fun d => d.restoreAsk r off n

/-- Sections of a cut record: jobs, rings, buffers, and the bytes of the instances. -/
structure CutSections where
  jobs : List (List Byte)
  rings : List (List Byte)
  bufs : List (List Byte)
  insts : List Byte
  count : Nat

/-- Cuts a record into its sections, keeping one job's when it is not 0. -/
def cutSections (b : List Byte) (job : Nat) : CutSections :=
  let nj := fld b 40 4
  let nr := fld b 44 4
  let nb := fld b 48 4
  let o := 64 + 64 * nj
  let q := o + 64 * nr
  let keep (id : Nat) : Bool := job == 0 || id == job
  { jobs := (chunks 64 ((b.drop 64).take (64 * nj))).filter fun j => keep (fld j 0 4),
    rings := (chunks 64 ((b.drop o).take (64 * nr))).filter fun r => keep (fld r 32 4),
    bufs := (chunks 32 ((b.drop q).take (32 * nb))).filter fun x => keep (fld x 20 4),
    insts := b.drop (q + 32 * nb), count := fld b 52 4 }

/-- Whether a recorded client is enabled. -/
def Dev.clientOn (d : Dev) (c : Nat) : Bool :=
  c == 0 || (match d.fnHalf c with | some h => (d.host.ports.get h).vfEnable | none => false)

/-- Re-creates recorded jobs and buffers; none when one is refused (steps 3 and 4). -/
def Wk.restoreCreate (w : Wk) (x : CutSections) (mode : Nat) : Option Wk :=
  let bad : Bool := x.jobs.any (fun j => (w.dev.job (fld j 0 4)).isSome || !w.dev.clientOn (fld j 4 4)) || mode != b2n w.dev.top.strict
    || (w.dev.top.degraded && x.bufs.any fun b => halfOf (fld b 0 8) ≠ w.dev.leadHalf)
  if bad then none
  else
    let w1 := x.jobs.foldl
      (fun (o : Option Wk) j =>
        match o with
        | none => none
        | some w =>
          match w.dev.freeSlot with
          | none => none
          | some slot =>
            let t := fld j 20 4
            let jb : Job := { client := fld j 4 4, fn := fld j 36 4, seed := fld j 8 8, slot := slot, keyEpoch := w.dev.host.nextEpoch,
                              genNext := fld j 16 4, remote := false, guarded := true, trainOn := bit t 2, trainTied := bits t 0 2,
                              trainBase := fld j 24 8, trainCount := fld j 32 4 }
            some (w.upd fun d => (d.setJob (fld j 0 4) jb).onHost fun s => { s with nextEpoch := s.nextEpoch + 1 }))
      (some w)
    x.bufs.foldl
      (fun (o : Option Wk) b =>
        match o with
        | none => none
        | some w =>
          let a := fld b 0 8
          let c := fld b 24 4
          match w.dev.placePinned c a with
          | .error _ => none
          | .ok (h, p, k) =>
            let z := w.dev.poolSize h p
            if p ≠ fld b 8 4 ∨ z ≠ 4096 * fld b 12 4 then none
            else
              let job := fld b 20 4
              let ep := match w.dev.job job with | some j => j.keyEpoch | none => 0
              let buf : Buf := { half := h, pool := p, idx := k, base := a, size := z, st := .taken, holders := [job], owner := job, client := c,
                                 flags := fld b 16 4, isSealed := false, keyEpoch := ep }
              some ((w.upd fun d => d.onHost fun s => { s with bufs := s.bufs ++ [buf] }).commitAlloc h p k (fld b 16 4)))
      w1

/-- Valid entries of a page map whose page lies in a buffer that a restore re-created: slot and page. -/
def restorePages (x : CutSections) (map : List Byte) (slots : Nat) : List (Nat × Nat) :=
  ((chunks 16 (map.take (16 * slots))).zipIdx.filter fun e =>
    fld e.1 12 4 = 1 ∧ x.bufs.any fun b => fld b 0 8 ≤ fld e.1 0 8 ∧ fld e.1 0 8 < fld b 0 8 + 4096 * fld b 12 4).map fun e => (e.2, fld e.1 0 8)

/-- The next step of a restore, once everything asked for has arrived. -/
def Wk.restoreNext (w : Wk) : Wk :=
  match w.dev.mir.restore with
  | none => w
  | some r =>
    if r.step = 0 then
      let n := fld r.buf 4 4
      if fld r.buf 0 4 ≠ w.dev.me ∨ n = 0 then w.restoreEnd 3
      else
        (w.upd fun d => d.onRestore fun r => { r with cut := n, slots := fld r.buf 8 4 }).restoreRead 1 (cutSlotOff n) 64
    else if r.step = 1 then
      let len := fld r.buf 56 4
      if fld r.buf 0 4 ≠ 0x4D495243 ∨ fld r.buf 4 4 ≠ r.cut ∨ len < 64 ∨ 2 ^ 28 < len then w.restoreEnd 3
      else w.restoreRead 2 (cutSlotOff r.cut) len
    else if r.step = 2 then
      let b := r.buf.take (fld r.buf 56 4)
      if crc32c (b.take 60 ++ toBytes 4 0 ++ b.drop 64) ≠ fld b 60 4 then w.restoreEnd 3
      else
        match w.restoreCreate (cutSections b r.job) (fld b 24 4) with
        | none => w.restoreEnd 4
        | some w => (w.upd fun d => d.onRestore fun r => { r with record := b }).restoreRead 3 mapOff (16 * r.slots)
    else if r.step = 3 then
      let ps := restorePages (cutSections r.record r.job) r.buf r.slots
      let w := w.upd fun d => d.onRestore fun r =>
        { r with step := if ps.isEmpty then 5 else 4, map := r.buf, buf := [], wanted := mirPage * ps.length }
      ps.foldl (fun w p => w.upd fun d => d.restoreAsk r (imageOff r.slots + mirPage * p.1) mirPage) w
    else w.upd fun d => d.onRestore fun r => { r with step := 5 }

/-- Counts bytes that have arrived, and goes on when they were the last. -/
def Wk.restoreGot (w : Wk) (n : Nat) : Wk :=
  let w := w.upd fun d => d.onRestore fun r => { r with wanted := r.wanted - n }
  match w.dev.mir.restore with
  | some r => if r.wanted = 0 then w.restoreNext else w
  | none => w

/-- Home address of an offset of the image. -/
def MirRestore.home (r : MirRestore) (at_ : Nat) : Nat :=
  let o := at_ - imageOff r.slots
  fld r.map (16 * (o / mirPage)) 8 + o % mirPage

/-- Bytes of the copy area arrive. -/
def Wk.restoreArrived (w : Wk) (at_ : Nat) (bs : List Byte) : Wk :=
  match w.dev.mir.restore with
  | none => w
  | some r =>
    let w :=
      if r.step = 4 then w.wr (r.home at_) bs
      else
        let base := if r.step = 0 then 0 else if r.step = 3 then mapOff else cutSlotOff r.cut
        w.upd fun d => d.onRestore fun r => { r with buf := overlay r.buf (at_ - base) bs }
    w.restoreGot bs.length

/-- A read of the copy area is refused or lost: a poisoned page is written poisoned, anything else ends the restore. -/
def Wk.restoreFails (w : Wk) (at_ n status : Nat) : Wk :=
  match w.dev.mir.restore with
  | none => w
  | some r =>
    if r.step = 4 ∧ status = stUncorrectable then
      (w.upd fun d => d.onHost fun s => { s with poison := s.poison ++ (List.range (cdiv n 64)).map (r.home at_ / 64 + ·) }).restoreGot n
    else if r.step = 4 then w.restoreEnd 5
    else if r.step = 0 ∧ r.region = 0 ∧ status = stDenied then
      (w.upd fun d => d.onRestore fun r => { r with region := 1 }).restoreRead 0 0 64
    else w.restoreEnd 3

/-- START of MIR_RESTORE_CTL. The copy may lie in either half of the partner: region 0 is tried first (DESIGN CHOICE). -/
def Wk.restoreStart (w : Wk) (v : Nat) : Wk :=
  if ¬ bit v 0 ∨ w.dev.mir.restore.isSome then w
  else
    let h := w.dev.leadHalf
    let src := bits (w.dev.rn h Reg.MIR_RESTORE_SRC) 0 18
    let job := bits (w.dev.rn h Reg.MIR_RESTORE_JOB) 0 20
    if w.dev.top.degraded ∧ job = 0 then w.upd fun d => d.setReg h Reg.MIR_RESTORE_STATUS (w32 (4 * 2 ^ 28))
    else
      let w := (w.cutFails).mirState 5 false
      let w := w.upd fun d => ((d.setReg h Reg.MIR_RESTORE_STATUS (w32 (2 ^ 28))).onHost fun s =>
        { s with jobs := s.jobs.map fun j => (j.1, { j.2 with remote := false }) }).onMir fun m =>
          { m with asked := none, merged := none,
                   restore := some { src := src, job := job, region := 0, step := 0, slots := 0, cut := 0, buf := [], record := [], map := [], wanted := 0 } }
      if ¬ w.dev.reachable src then w.restoreEnd 3 else w.restoreRead 0 0 64

/-- Positions that must run again: route nodes whose generation was live, and all that depend on them. -/
def runAgain (succ : List (List Nat)) (live : List Nat) : List Nat :=
  (List.range succ.length).foldl (fun l _ => (l ++ l.flatMap fun i => nth succ i []).eraseDups) live

/-- Reinstates one recorded instance (R482). -/
def Wk.reinstate (w : Wk) (gsd : List Byte) (number place : Nat) (words : List Nat) : Wk :=
  let fn := place / 2 ^ 8
  let r := bits place 1 4
  let f := fld gsd 0x28 4
  if bit f 0 then
    let w := w.upd fun d => d.handGraph fn r (recBytes (fld gsd 0x10 8) 0 0 0xFFFFFFFF 0 0 stDeadline true number) (bit f 7)
    if w.dev.tgu.frames.any fun g => g.2.fn = fn ∧ g.2.ring = r ∧ g.2.gsd = gsd then w
    else
      w.upd fun d => d.onTgu fun t =>
        let fg : FrameGraph := { fn := fn, ring := r, job := bits (fld gsd 0xC 4) 0 20, gsd := gsd, seq := t.nextFrame, armed := true,
                                 given := number + 1, ticks := 0, waiting := [] }
        { t with frames := t.frames ++ [(t.nextFrame, fg)], nextFrame := t.nextFrame + 1 }
  else
    let seq := w.dev.tgu.nextSeq
    let w := w.createInst fn r gsd none number 0 none
    match w.dev.inst seq with
    | none => w
    | some x =>
      let succ := x.nodes.map fun n => match w.succList x n with | .ok l => l | .error _ => []
      let again := runAgain succ ((List.range x.nodes.length).filter fun i => bit (nth words i 0) 16)
      let done (i : Nat) : Bool := bits (nth words i 0) 0 3 == 4 && !again.contains i
      let status (i : Nat) : Nat := bits (nth words i 0) 8 8
      let frees (i : Nat) : Bool := done i && (status i == stOk || status i == stNull || isRefusal (status i))
      let rel (s : Nat) : Nat := sumBy ((List.range x.nodes.length).filter frees) fun i => ((nth succ i []).filter (· = s)).length
      let nodes := x.nodes.zipIdx.map fun p =>
        let n := p.1
        if done p.2 then { n with st := .done, status := status p.2, released := rel p.2, succ := nth succ p.2 [] }
        else if n.st = .done then n
        else { n with released := rel p.2, st := if rel p.2 = n.pred then .ready else .waiting, readyAt := w.dev.time }
      (w.upd fun d => d.setInst seq { x with nodes := nodes }).checkStuck seq

/-- Reinstates recorded instances one after another. -/
def Wk.reinstateAll (w : Wk) (job : Nat) : Nat → List Byte → Wk
  | 0, _ => w
  | k + 1, b =>
    let n := fld b 76 4
    let words := (chunks 4 ((b.drop 80).take (4 * n))).map ofBytes
    let w := if job = 0 ∨ bits (fld b 0xC 4) 0 20 = job then w.reinstate (b.take 64) (fld b 64 4) (fld b 72 4) words else w
    w.reinstateAll job k (b.drop (80 + 4 * n))

/-- A recorded ring is enabled again (R482). -/
def Dev.ringBack (d : Dev) (b : List Byte) : Dev :=
  let fn := fld b 0 4 / 16
  let r := fld b 0 4 % 16
  let d := (List.range 9).foldl (fun d k => d.setReg (d.fnHome fn) (winOff fn (0x40 * r + 4 * k)) (w32 (fld b (4 + 4 * k) 4))) d
  let hd := fld b 40 4
  let tl := fld b 44 4
  d.setRing fn r { Ring.cold with st := .enabled, sqTail := hd, sqHead := hd, cqHead := tl, cqTail := tl }

/-- RESTORE_DONE: steps 6 and 7. -/
def Wk.restoreDone (w : Wk) : Wk :=
  match w.dev.mir.restore with
  | none => w
  | some r =>
    if r.step ≠ 5 then w
    else
      let x := cutSections r.record r.job
      let w := x.rings.foldl (fun w b => w.upd (·.ringBack b)) w
      let w := w.reinstateAll r.job x.count x.insts
      let w := w.upd fun d => d.onHost fun s => { s with jobs := s.jobs.map fun j => (j.1, { j.2 with remote := true }) }
      w.restoreEnd 2

/-- RESTORE_DONE. -/
def execRestoreDone (now : Nat) (s : State) : Host.Outcome State Fault Refusal := finish s ((s.start.at_ now).restoreDone)

end Sys2Proof.Machine
end

