-- ==== Sys2Proof/Machine/Start.lean ====
section
/-! DEFINITION. The start broadcast (R501 to R506). -/

namespace Sys2Proof.Machine

open Sys2Proof

/-- Bytes of a chunk. -/
def chunkBytes : Nat := 65536

/-- Offset of a member's status sector in the start region (R502). -/
def JStart.sectorOff (x : JStart) (i : Nat) : Nat := chunkBytes * x.k + 32 * i

/-- Offset of the chunk table. -/
def JStart.tableOff (x : JStart) : Nat := chunkBytes * x.k + 32 * x.members.length

/-- Device ID of a member. -/
def JStart.dev (x : JStart) (i : Nat) : Nat := nth x.members i 0

/-- Children of a member in the tree. -/
def JStart.kids (x : JStart) (i : Nat) : List Nat := ((List.range x.fan).map fun j => x.fan * i + 1 + j).filter (· < x.members.length)

/-- Changes the start under way. -/
def Dev.onStart (d : Dev) (f : JStart → JStart) : Dev := { d with start := d.start.map f }

/-- Sets TOP_JSTART_STATUS. -/
def Dev.startStatus (d : Dev) (result status parent : Nat) : Dev :=
  d.setReg d.leadHalf Reg.TOP_JSTART_STATUS (w32 (result * 2 ^ 28 + status * 2 ^ 16 + parent % 2 ^ 16))

/-- The bytes of a status sector. -/
def sectorBytes (state : Nat) (table : Bool) (device have_ : Nat) : List Byte :=
  toBytes 4 (state * 2 ^ 28 + b2n table * 2 ^ 27 + device % 2 ^ 18) ++ toBytes 4 have_ ++ List.replicate 24 0

/-- Writes this member's own sector with a state. -/
def Wk.ownSector (w : Wk) (state : Nat) : Wk :=
  match w.dev.start with
  | none => w
  | some x => w.wr (x.base + x.sectorOff x.me) (sectorBytes state x.table w.dev.me x.have_)

/-- The start ends FAILED. -/
def Wk.startFails (w : Wk) (status : Nat) : Wk :=
  match w.dev.start with
  | none => w
  | some x => w.upd fun d => { d.startStatus 4 status x.parent with start := none }

/-- Writes a sector into another member's region, in LOAD_STORE. -/
def Dev.sectorTo (d : Dev) (x : JStart) (to_ i : Nat) (bs : List Byte) : Dev :=
  d.holdReq (Txn.mk0 opWrite 3 (x.dev to_) 0 0 (regionWord x.region (x.sectorOff i)) x.job 1 bs) (.engine d.leadHalf)

/-- Reads a member's sector in its own region. At L4 the gateway reads its 4 KiB window (R383). -/
def Dev.readSector (d : Dev) (x : JStart) (i : Nat) : Dev :=
  let o := x.sectorOff i
  if d.level (x.dev i) = 3 then d.sendRead (x.dev i) x.job x.region (o / 4096 * 4096) 144 4 true (.startSector x.id i (o % 4096))
  else d.sendRead (x.dev i) x.job x.region o 1 3 false (.startSector x.id i 0)

/-- Reads bytes of the parent's region by BULK GET. -/
def Dev.pull (d : Dev) (x : JStart) (off n : Nat) (why : Nat → ReadFor) : Dev :=
  (List.range (n / 4096)).foldl (fun d i => d.sendRead (x.dev x.parent) x.job x.region (off + 4096 * i) 144 4 true (why (4096 * i))) d

/-! ### Completion and lost members (R504, R505) -/

/-- Whether every chunk is held and every child has written DONE or is lost. -/
def Wk.startDone (w : Wk) (x : JStart) : Bool :=
  x.have_ == x.k && x.children.all fun c => x.lost.contains c || bits (ofBytes (w.rdN (x.base + x.sectorOff c) 4)) 28 4 == 3

/-- Ends a start that is complete. -/
def Wk.startCheck (w : Wk) : Wk :=
  match w.dev.start with
  | none => w
  | some x =>
    if !w.startDone x then w
    else
      let w := w.ownSector 3
      if x.me = 0 then
        let missing := ((List.range x.members.length).filter fun i => bits (ofBytes (w.rdN (x.base + x.sectorOff i) 4)) 28 4 = 4).length
        w.upd fun d =>
          { (d.startStatus 2 (if missing = 0 then stOk else 4) 0).setReg d.leadHalf Reg.TOP_JSTART_MISSING (w32 missing) with start := none }
      else
        w.upd fun d =>
          { (d.sectorTo x x.parent x.me (sectorBytes 3 x.table d.me x.have_)).startStatus 2 stOk x.parent with start := none }

/-- Declares a child lost and adopts its children. -/
def Wk.childLost (w : Wk) (c : Nat) : Wk :=
  match w.dev.start with
  | none => w
  | some x =>
    if x.lost.contains c ∨ !x.children.contains c then w
    else
      let bs := sectorBytes 4 false w.dev.me 0
      let w := w.wr (x.base + x.sectorOff c) bs
      w.upd fun d =>
        let d := if x.me = 0 then d else d.sectorTo x 0 c bs
        d.onStart fun x => { x with lost := x.lost ++ [c], children := x.children ++ (x.kids c).filter fun k => ¬ x.children.contains k }

/-- The parent is lost: the member takes the next ancestor, or fails when the root is lost. -/
def Wk.parentLost (w : Wk) : Wk :=
  match w.dev.start with
  | none => w
  | some x =>
    if x.me = 0 then w
    else if x.parent = 0 then w.startFails stMemberLost
    else
      let p := (x.parent - 1) / x.fan
      w.upd fun d =>
        (d.onStart fun x => { x with parent := p, out := [], tableLeft := none, seen := none, seenTable := false, movedAt := d.time, asking := false }).startStatus
          1 0 p

/-! ### Pulling (R503) -/

/-- Pulls what the parent's sector allows. -/
def Dev.startPull (d : Dev) : Dev :=
  match d.start with
  | none => d
  | some x =>
    if ¬ x.table then
      if x.seenTable ∧ x.tableLeft.isNone then
        (d.pull x x.tableOff 262144 (.startTable x.id)).onStart fun x => { x with tableLeft := some 262144 }
      else d
    else
      let room := 16 - x.out.length
      let can := ((List.range (x.seen.getD 0)).drop x.have_).filter fun c => ¬ x.got.contains c ∧ ¬ x.out.any fun o => o.1 = c
      (can.take room).foldl
        (fun d c => (d.pull x (chunkBytes * c) chunkBytes (.startChunk x.id c)).onStart fun x => { x with out := x.out ++ [(c, chunkBytes, 0)] }) d

/-- Advances HAVE over chunks that have been checked. The first argument bounds the number of steps. -/
def JStart.advance : Nat → JStart → JStart
  | 0, x => x
  | n + 1, x => if x.got.contains x.have_ then advance n { x with have_ := x.have_ + 1, got := x.got.filter (· ≠ x.have_) } else x

/-- The parent's, or a child's, status sector arrives. -/
def Wk.sectorArrived (w : Wk) (id i : Nat) (bs : List Byte) : Wk :=
  match w.dev.start with
  | none => w
  | some x =>
    if x.id ≠ id ∨ x.parent ≠ i ∨ x.me = 0 then w
    else
      let st := bits (fld bs 0 4) 28 4
      let hv := fld bs 4 4
      w.upd fun d =>
        (d.onStart fun x =>
          { x with asking := false, seen := some hv, seenTable := bit (fld bs 0 4) 27,
                   movedAt := if st = 0 ∨ x.seen.isNone ∨ x.seen.getD 0 < hv then d.time else x.movedAt }).startPull

/-- Bytes of the chunk table arrive. -/
def Wk.tableArrived (w : Wk) (id at_ : Nat) (bs : List Byte) : Wk :=
  match w.dev.start with
  | none => w
  | some x =>
    match x.tableLeft with
    | none => w
    | some left =>
      if x.id ≠ id then w
      else
        let a := x.base + x.tableOff + at_
        let w := (w.mirTouch a bs.length).wr a bs
        let left := left - bs.length
        let w := w.upd fun d => d.onStart fun x => { x with tableLeft := if left = 0 then none else some left, table := x.table || left == 0 }
        if left = 0 then (w.ownSector 1).upd (·.startPull) else w

/-- Bytes of a chunk arrive; a whole chunk is checked against the table. -/
def Wk.chunkArrived (w : Wk) (id c at_ : Nat) (bs : List Byte) : Wk :=
  match w.dev.start with
  | none => w
  | some x =>
    match x.out.find? fun o => o.1 = c with
    | none => w
    | some o =>
      if x.id ≠ id then w
      else
        let a := x.base + chunkBytes * c + at_
        let w := (w.mirTouch a bs.length).wr a bs
        let left := o.2.1 - bs.length
        let others (l : List (Nat × Nat × Nat)) : List (Nat × Nat × Nat) := l.filter fun p => p.1 ≠ c
        if left ≠ 0 then w.upd fun d => d.onStart fun x => { x with out := others x.out ++ [(c, left, o.2.2)] }
        else if crc32c (w.rdN (x.base + chunkBytes * c) chunkBytes) = ofBytes (w.rdN (x.base + x.tableOff + 4 * c) 4) then
          let w := w.upd fun d => d.onStart fun x =>
            let y := JStart.advance x.k { x with out := others x.out, got := x.got ++ [c] }
            { y with allAt := if y.have_ = y.k then some (y.allAt.getD d.time) else y.allAt }
          let all : Bool := match w.dev.start with | some y => y.have_ == y.k | none => false
          ((w.ownSector (if all then 2 else 1)).upd (·.startPull)).startCheck
        else if o.2.2 < 2 then
          w.upd fun d => (d.pull x (chunkBytes * c) chunkBytes (.startChunk x.id c)).onStart fun x =>
            { x with out := others x.out ++ [(c, chunkBytes, o.2.2 + 1)] }
        else w.parentLost

/-- A read of the start broadcast is refused, or its member is lost. -/
def Wk.startReadFails (w : Wk) (id : Nat) (member : Option Nat) (status : Nat) : Wk :=
  match w.dev.start with
  | none => w
  | some x =>
    if x.id ≠ id then w
    else if status = stMemberLost then
      match member with
      | some i => if i = x.parent ∧ x.me ≠ 0 then w.parentLost else (w.childLost i).startCheck
      | none => w.parentLost
    else w.startFails stDenied

/-- A sector write of the start broadcast is refused. -/
def Wk.startHook (w : Wk) (t : Txn) (status : Nat) : Wk :=
  match w.dev.start with
  | none => w
  | some x => if t.job = x.job ∧ t.region = x.region ∧ status ≠ stOk ∧ status ≠ stMemberLost then w.startFails stDenied else w

/-! ### Commands -/

/-- START (R501): refused, or begun; the root computes the chunk table. -/
def Wk.startBegin (w : Wk) : Wk :=
  let h := w.dev.leadHalf
  let job := bits (w.dev.rn h Reg.TOP_JSTART_JOB) 0 20
  let region := bits (w.dev.rn h Reg.TOP_JSTART_REGION) 0 18
  let list := w.dev.reg64 h Reg.TOP_JSTART_LIST_LO
  let cfg := w.dev.rn h Reg.TOP_JSTART_CFG
  let n := bits cfg 0 16 + 1
  let k := bits (w.dev.rn h Reg.TOP_JSTART_LENGTH) 0 16 + 1
  let refuse : Wk := w.upd fun d => d.setReg h Reg.TOP_JSTART_STATUS (w32 (3 * 2 ^ 28))
  let ids := (chunks 4 (w.rdN list (4 * n))).map fun b => ofBytes b % 2 ^ 18
  if w.dev.start.isSome ∨ (w.dev.job job).isNone ∨ ¬ isLocal list ∨ list % 32 ≠ 0 ∨ (ids.filter (· = w.dev.me)).length ≠ 1 then
    (if w.dev.start.isSome then w else refuse)
  else
    match w.dev.fab.regions.find? fun e => e.job = job ∧ e.id = region with
    | none => refuse
    | some e =>
      if e.mode ≠ 1 ∨ ¬ e.r ∨ ¬ e.w ∨ e.span < chunkBytes * k + 32 * n + 262144 then refuse
      else
        let me := ids.findIdx (· == w.dev.me)
        let fan := bits cfg 28 4 + 2
        let x : JStart :=
          { id := w.dev.startNext, job := job, region := region, base := e.base, members := ids, me := me, fan := fan, k := k,
            parent := if me = 0 then 0 else (me - 1) / fan, have_ := if me = 0 then k else 0, table := decide (me = 0), tableLeft := none,
            out := [], got := [], seen := none, seenTable := false, movedAt := w.dev.time, asking := false, children := [], lost := [],
            allAt := if me = 0 then some w.dev.time else none }
        let x := { x with children := x.kids me }
        let w := w.upd fun d =>
          ({ d with start := some x, startNext := d.startNext + 1 }.startStatus 1 0 x.parent).setReg h Reg.TOP_JSTART_MISSING 0
        if me = 0 then
          let tab := (List.range k).flatMap fun c => toBytes 4 (crc32c (w.rdN (e.base + chunkBytes * c) chunkBytes))
          ((w.wr (e.base + x.tableOff) tab).ownSector 2).startCheck
        else w.ownSector 1

/-- A write to TOP_JSTART_CTL. A START while one is PENDING changes nothing, its RESULT included (DEDUCED: PENDING stands). -/
def Wk.jstartCtl (w : Wk) (v : Nat) : Wk :=
  if bits v 0 2 = 1 then w.startBegin else if bits v 0 2 = 2 then w.startFails stAborted else w

/-- JSTART_POLL: reads the parent's sector and pulls. -/
def Dev.startPoll (d : Dev) : Dev :=
  match d.start with
  | none => d
  | some x =>
    if x.me = 0 ∨ x.have_ = x.k then d
    else (if x.asking then d else (d.readSector x x.parent).onStart fun x => { x with asking := true }).startPull

/-- JSTART_POLL. -/
def execJstartPoll (now : Nat) (s : State) : Host.Outcome State Fault Refusal := onDev s fun d => (d.at_ now).startPoll

/-- TIMEOUT_MS in ns. -/
def Dev.startTimeout (d : Dev) : Nat := 1000000 * bits (d.rn d.leadHalf Reg.TOP_JSTART_TIMEOUT) 0 16

/-- JSTART_PARENT_TIMEOUT. -/
def Wk.startParent (w : Wk) : Wk :=
  match w.dev.start with
  | none => w
  | some x =>
    if x.me ≠ 0 ∧ x.have_ < x.k ∧ x.movedAt + w.dev.startTimeout ≤ w.dev.time then w.parentLost else w

/-- JSTART_PARENT_TIMEOUT. -/
def execJstartParentTimeout (now : Nat) (s : State) : Host.Outcome State Fault Refusal := finish s ((s.start.at_ now).startParent)

/-- JSTART_CHILD_CHECK: reads each child's sector, declares silent children lost, and completes. -/
def Wk.startChildren (w : Wk) : Wk :=
  match w.dev.start with
  | none => w
  | some x =>
    let open_ := x.children.filter fun c => ¬ x.lost.contains c ∧ bits (ofBytes (w.rdN (x.base + x.sectorOff c) 4)) 28 4 ≠ 3
    let late : Bool := match x.allAt with | some t => decide (t + w.dev.startTimeout ≤ w.dev.time) | none => false
    let w := open_.foldl (fun w c => if late then w.childLost c else w.upd fun d => d.readSector x c) w
    w.startCheck

/-- JSTART_CHILD_CHECK. -/
def execJstartChildCheck (now : Nat) (s : State) : Host.Outcome State Fault Refusal := finish s ((s.start.at_ now).startChildren)

end Sys2Proof.Machine
end

