-- ==== Sys2Proof/Machine/RegAccess.lean ====
section
/-! DEFINITION. What set-up registers read: those the state keeps elsewhere, and the rules of R8, R547, R548, R549 and
R551. -/

namespace Sys2Proof.Machine

open Sys2Proof

/-! ### Registers read from the state -/

/-- STAGE code of TOP_DEVICE_STATUS (R493). -/
def Stage.code : Stage → Nat
  | .boot => 0
  | .election => 1
  | .training => 2
  | .baseline => 3
  | .ready => 4
  | .stopped => 5

/-- LIFECYCLE code of DBG_LOCK_STATUS (R539). -/
def Lifecycle.code : Lifecycle → Nat
  | .manufacture => 0
  | .provisioned => 1
  | .deployed => 2
  | .debugUnlocked => 3
  | .decommissioned => 4

/-- Whether Loupe is locked (R540). -/
def Dev.loupeLocked (d : Dev) : Bool := d.top.lifecycle == .deployed || d.top.lifecycle == .decommissioned

/-- STATE code of HOST_RING_STATUS (R305). -/
def RingSt.code : RingSt → Nat
  | .disabled => 0
  | .enabled => 1
  | .draining => 2
  | .halted => 3
  | .refused => 5

/-- TOP_ID (R555). -/
def Dev.topId (d : Dev) : Nat := d.top.stepping % 16 * 2 ^ 28 + 0xC040 * 2 ^ 12 + d.top.grade % 4

/-- TOP_DEVICE_STATUS (R493). -/
def Dev.deviceStatus (d : Dev) : Nat :=
  let up := (List.range 64).countP fun p => (d.fport p).st = .up
  b2n d.top.ready * 2 ^ 31 + b2n d.top.degraded * 2 ^ 30 + d.top.stage.code * 2 ^ 27 + up * 2 ^ 16 + d.top.stackUp % 2 ^ 16

/-- The TOP_FACET_CLK setting of a half, MHz. -/
def Dev.clkSetting (d : Dev) (h : Half) : Nat := bits (d.rn .west Reg.TOP_FACET_CLK) (16 * h.code) 16

/-- HELD: the clocks are pinned (R518). -/
def Dev.clkHeld (d : Dev) : Bool := !bit (d.rn .west Reg.TOP_POWER_CAP) 31 || d.tgu.frames.any fun f => f.2.armed

/-- TOP_POWER_STATUS (R520). -/
def Dev.powerStatus (d : Dev) : Nat :=
  let below : Bool := decide (d.top.sc.w.clk < d.clkSetting .west) || decide (d.top.sc.e.clk < d.clkSetting .east)
  b2n d.clkHeld * 2 ^ 31 + b2n d.top.tripped * 2 ^ 30 + b2n d.top.thermAlert * 2 ^ 29 + b2n below * 2 ^ 28 + min d.top.power 0xFFFF

/-- HOST_LINK_STATUS (R305). -/
def Dev.linkStatus (d : Dev) (h : Half) : Nat :=
  let p := d.host.ports.get h
  b2n p.ide * 2 ^ 23 + b2n p.flit * 2 ^ 22 + p.width % 64 * 2 ^ 16 + p.speed % 16

/-- The function whose client window stands in a half's HOST block: none for one that does not act (R305). -/
def Dev.windowFn (d : Dev) (h : Half) (c : Nat) : Option Nat :=
  match d.top.portLead with
  | none => none
  | some p => if h = p then some c else if c = 0 then some 0x40 else none

/-- HOST_DB_FENCE of a half, 64 bits (R305). -/
def Dev.fenceBits (d : Dev) (h : Half) : Nat :=
  sumBy (List.range 64) fun c =>
    match d.windowFn h c with
    | some fn => if (d.func fn).pagesOn then 0 else 2 ^ c
    | none => 2 ^ c

/-- HOST_RING_STATUS (R285, R305). -/
def Dev.ringStatus (d : Dev) (fn r : Nat) : Nat :=
  let x := d.ring fn r
  let fenced : Bool := !(d.func fn).pagesOn && (x.st == .enabled || x.st == .draining)
  (if fenced then 4 else x.st.code) * 2 ^ 29 + (if x.st = .halted then x.halt % 256 else 0) * 2 ^ 16 + min (d.ringInsts fn r) 65535

/-- HOST_JOB_STATUS: RESULT is stored, RESIDENT is counted. -/
def Dev.jobStatus (d : Dev) (h : Half) (off fn : Nat) : Nat :=
  bits (d.rn h off) 28 4 * 2 ^ 28 + d.host.jobs.countP fun j => j.2.client = clientOf fn

/-- TGU_STATUS (R344). -/
def Dev.tguStatus (d : Dev) : Nat :=
  min d.tgu.insts.length 65535 * 2 ^ 16 + min (sumBy d.tgu.insts fun p => p.2.nodes.countP fun n => n.st = .ready) 65535

/-- EFU_STATUS (R140). Reads within the device complete in their command; those outstanding are the remote ones, each of
the EFU that reads for its expert. -/
def Dev.efuStatus (d : Dev) (h : Half) : Nat :=
  min (d.fab.efuReads h) 4096 * 2 ^ 16 + (d.efu.fetches.countP fun f => f.st = .prefetch) * 16 + d.efu.fetches.countP fun f => f.st = .running ∨ f.st = .prefetch

/-- MEM_USED_Tn of a client (R271). -/
def Dev.memUsed (d : Dev) (c n : Nat) : Nat :=
  if n = 0 then cdiv (d.usedBytes c true) 4096
  else if n = 1 then cdiv (d.usedBytes c false) 65536
  else cdiv (d.spanUsed c (n = 3)) 65536

/-- DBG_SELFTEST_STATUS of a half (R539). -/
def Dev.selftestStatus (d : Dev) (h : Half) : Nat :=
  if ¬ d.top.baselineDone then 0
  else
    let fs := facetsOf h
    let ret := fs.countP fun f => (d.picOf f).retired ∨ d.top.bootRetired.contains f
    (fs.countP fun f => d.facetOn f ∧ (d.picOf f).quar) * 2 ^ 16 + ret * 2 ^ 8 + fs.countP d.facetOn

/-- DBG_RETIRED word `i` of a half (R539). -/
def Dev.retiredMap (d : Dev) (h : Half) (i : Nat) : Nat :=
  if ¬ d.top.baselineDone then 0
  else sumBy (List.range 32) fun k =>
    let f := 160 * h.code + 32 * i + k
    if (d.picOf f).retired ∨ d.top.bootRetired.contains f then 2 ^ k else 0

/-- What the last closed cut recorded of the ring that MIR_RING_SEL selects (R486). -/
def Dev.cutRing (d : Dev) : Nat × Nat :=
  let v := d.rn .west Reg.MIR_RING_SEL
  match d.mir.closedRings.find? fun x => x.1 = bits v 8 6 * 16 + bits v 0 4 with
  | some x => x.2
  | none => (0, 0)

/-- TOP registers that read from the state. -/
def Dev.liveTop (d : Dev) (h : Half) (row : RegRow) : Option Nat :=
  if row.off = Reg.TOP_ID then some d.topId
  else if row.off = Reg.TOP_DEVICE_STATUS then some d.deviceStatus
  else if row.off = Reg.TOP_DEVICE_MODE then some (b2n d.top.strict * 2 + b2n d.top.strictReq)
  else if row.off = Reg.TOP_LEAD_STATUS then some (d.leadStatus h)
  else if row.off = Reg.TOP_FATAL_STATUS then some (fatalWord d.top.fatal)
  else if row.off = Reg.TOP_POWER_CEILING then some d.top.ceiling
  else if row.off = Reg.TOP_POWER_STATUS then some d.powerStatus
  else if row.off = Reg.TOP_DEVICE_TIME_LO then some (d.time % 2 ^ 32)
  else if row.off = Reg.TOP_DEVICE_TIME_HI then some (d.time / 2 ^ 32)
  else none

/-- HOST registers that read from the state. -/
def Dev.liveHost (d : Dev) (h : Half) (row : RegRow) (off : Nat) : Option Nat :=
  let c := (off - 0x20000) / 0x800
  if row.off = Reg.HOST_LINK_STATUS then some (d.linkStatus h)
  else if row.off = Reg.HOST_DB_FENCE_LO then some (d.fenceBits h % 2 ^ 32)
  else if row.off = Reg.HOST_DB_FENCE_HI then some (d.fenceBits h / 2 ^ 32)
  else if off < 0x20000 then none
  else
    match d.windowFn h c with
    | none => some 0
    | some fn =>
      if row.off = Reg.HOST_RING_STATUS then some (d.ringStatus fn ((off - 0x20000) % 0x800 / 0x40))
      else if row.off = Reg.HOST_EVT_STATUS then some (b2n (d.func fn).evt.on * 2 ^ 31 + min (d.func fn).evt.lost 65535)
      else if row.off = Reg.HOST_JOB_STATUS then some (d.jobStatus h off fn)
      else none

/-- TGU, Prism, Lens, EFU, BPM and MEM registers that read from the state. -/
def Dev.liveEngine (d : Dev) (h : Half) (row : RegRow) (off : Nat) : Option Nat :=
  let i := (off - row.off) / row.s1
  let j := (off - row.off) % row.s1 / row.s2
  if row.off = Reg.TGU_STATUS then some d.tguStatus
  else if row.off = Reg.TGU_TICK_COUNT_LO then some (d.tgu.tickCount % 2 ^ 32)
  else if row.off = Reg.TGU_TICK_COUNT_HI then some (d.tgu.tickCount / 2 ^ 32)
  else if row.off = Reg.TGU_TICK_TIME_LO then some (d.tgu.tickTime % 2 ^ 32)
  else if row.off = Reg.TGU_TICK_TIME_HI then some (d.tgu.tickTime / 2 ^ 32)
  else if row.off = Reg.TGU_SHADOW_FREE then some ((2 ^ 31 - d.shadowUsed h) / 2 ^ 20)
  else if row.off = Reg.PRISM_CTX_USED then some (d.ctxUsed h)
  else if row.off = Reg.PRISM_QUEUE_STATUS then some (d.prismStatus h)
  else if row.off = Reg.PRISM_CTX_CLIENT_USED then some (d.ctxClient h i)
  else if row.off = Reg.LENS_SLOTS_FREE then some (d.slotsFree h)
  else if row.off = Reg.LENS_PENDING then some (d.noticesPending h)
  else if row.off = Reg.LENS_STATUS then some (d.combsHeld h)
  else if row.off = Reg.EFU_STATUS then some (d.efuStatus h)
  else if row.off = Reg.EFU_RESIDENT_USED then some (cdiv (sumBy (d.efu.residents.get h) (·.bytes)) (2 ^ 20))
  else if row.off = Reg.BPM_T1_UNCARVED then some (d.uncarved h / 2 ^ 20)
  else if row.off = Reg.BPM_POOL_FREE then some (d.poolFree h i)
  else if row.off = Reg.BPM_POOL_HELD then some (d.poolHeld h i j)
  else if row.off = Reg.MEM_STATUS then some (d.top.stackUp / 2 ^ (8 * h.code) % 256)
  else if row.off = Reg.MEM_USED_T1 then some (d.memUsed i 0)
  else if row.off = Reg.MEM_USED_T2 then some (d.memUsed i (j + 1))
  else none

/-- FAB, CE, HM, MIR, SEC and DBG registers that read from the state. -/
def Dev.liveFar (d : Dev) (h : Half) (row : RegRow) (off : Nat) : Option Nat :=
  let i := (off - row.off) / row.s1
  let route := d.route (d.rn .west Reg.FAB_ROUTE_DEST % 2 ^ 18)
  let sc := d.top.sc.get h
  if row.off = Reg.FAB_ROUTE_ENTRY_LO then some (route % 2 ^ 32)
  else if row.off = Reg.FAB_ROUTE_ENTRY_HI then some (route / 2 ^ 32)
  else if row.off = Reg.FAB_REGION_STATUS then some (bits (d.rn h off) 28 4 * 2 ^ 28 + d.fab.regions.length % 2 ^ 19)
  else if row.off = Reg.FAB_PORT_STATUS then some (d.portStatus (32 * h.code + i))
  else if row.off = Reg.CE_STATUS then some ((d.ce.ops.countP fun o => o.half = h) % 128 * 2 ^ 8 + d.ce.groups.length % 128)
  else if row.off = Reg.CE_MEMBER_DATA then some d.memberRead
  else if row.off = Reg.HM_RISK then some d.hmRisk
  else if row.off = Reg.HM_EWMA then some (nth (d.hm.get h).e i 0)
  else if row.off = Reg.MIR_STATUS then some d.mirStatus
  else if row.off = Reg.MIR_CUT_STATUS then some (d.mir.lastCause % 16 * 2 ^ 28 + d.mir.lastResult % 16 * 2 ^ 24)
  else if row.off = Reg.MIR_CUT_CLOSED then some d.mir.closed
  else if row.off = Reg.MIR_RING_SQ_HEAD then some d.cutRing.1
  else if row.off = Reg.MIR_RING_CQ_TAIL then some d.cutRing.2
  else if row.off = Reg.SEC_MAILBOX_STATUS then some (b2n sc.mailBusy * 2 ^ 31 + sc.mailLen % 4096)
  else if row.off = Reg.DBG_LOUPE_SEL then (if d.loupeLocked then some 0 else none)
  else if row.off = Reg.DBG_LOCK_STATUS then some (b2n d.loupeLocked * 2 ^ 31 + d.top.lifecycle.code)
  else if row.off = Reg.DBG_SELFTEST_STATUS then some (d.selftestStatus h)
  else if row.off = Reg.DBG_RETIRED then some (d.retiredMap h i)
  else none

/-- The live value of a register that acts in a half. -/
def Dev.live (d : Dev) (h : Half) (row : RegRow) (off : Nat) : Word32 :=
  let v := if off < 0x10000 then d.liveTop h row
           else if off < 0x40000 then d.liveHost h row off
           else if off < 0x200000 then d.liveEngine h row off
           else d.liveFar h row off
  match v with
  | some n => w32 n
  | none => if row.acc = .wo then 0 else d.reg h off

/-! ### Which copy acts (R547 to R551) -/

/-- Whether a half's window answers at all: a fenced half's does not, nor a lost half's (R549). -/
def Dev.windowLives (d : Dev) (h : Half) : Bool :=
  (d.top.lead.get h).st != .fenced && !(d.top.degraded && d.leadOf != some h)

/-- Whether L registers read in a half: it leads, or it led when its lease lapsed (R548). -/
def Dev.leadReads (d : Dev) (h : Half) : Bool :=
  let v := d.top.lead.get h
  v.lead == h && (v.st == .normal || v.st == .degraded || v.st == .lapsed || v.st == .confirming || v.st == .splitHalt)

/-- Registers that answer before READY (R551). -/
def earlyReg (off : Nat) : Bool :=
  off == Reg.TOP_ID || off == Reg.TOP_DEVICE_STATUS || off == Reg.TOP_LEAD_STATUS || off == Reg.TOP_FATAL_STATUS

/-- What an offset of a half window reads. -/
def Dev.readWindow (d : Dev) (h : Half) (off : Nat) : Word32 :=
  match findRow off with
  | none => 0
  | some row =>
    if ¬ d.windowLives h then 0
    else if ¬ d.top.ready ∧ ¬ d.top.stopped ∧ ¬ earlyReg off then 0
    else if row.scope = .lead ∧ ¬ d.leadReads h then 0
    else d.live h row off

/-! ### BAR0 (R545, R276) -/

/-- Where an offset of a function's BAR0 leads: a half and an offset of its window. -/
def Dev.bar0 (d : Dev) (fn off : Nat) : Option (Half × Nat) :=
  match d.fnHalf fn with
  | none => none
  | some h =>
    if fn = 0 ∨ fn = 0x40 then (if off < 2 ^ 25 then some (Half.ofCode (off / 2 ^ 24), off % 2 ^ 24) else none)
    else if off < 0x800 then some (h, winOff fn off)
    else if off = 0x800 then some (h, Reg.TOP_ID)
    else if off = 0x804 then some (h, Reg.TOP_DEVICE_STATUS)
    else none

/-- The MSI-X table entry that an offset of a function's BAR0 lies in: its function, vector and word (R276, R304). -/
def Dev.msixWord (d : Dev) (fn off : Nat) : Option (Nat × Nat × Nat) :=
  match d.fnHalf fn with
  | none => none
  | some _ =>
    if fn = 0 ∨ fn = 0x40 then
      let x := off % 2 ^ 24
      if off < 2 ^ 25 ∧ 0x18000 ≤ x ∧ x < 0x18200 then
        (d.windowFn (Half.ofCode (off / 2 ^ 24)) 0).map fun f => (f, (x - 0x18000) / 16, x % 16 / 4)
      else none
    else if 0x1000 ≤ off ∧ off < 0x1200 then some (fn, (off - 0x1000) / 16, off % 16 / 4)
    else none

/-- Pending bits of a function, as a word of its pending bit array. -/
def Dev.pendingBits (d : Dev) (fn : Nat) : Nat := sumBy (List.range 32) fun v => if (d.vec fn v).pend then 2 ^ v else 0

/-- The half whose window holds the MSI-X table at an offset of a function's BAR0. -/
def Dev.msixHalf (d : Dev) (fn off : Nat) : Half :=
  if fn = 0 ∨ fn = 0x40 then Half.ofCode (off / 2 ^ 24) else d.fnHome fn

/-- Whether an MSI-X table answers reads (R549, R551). -/
def Dev.msixReads (d : Dev) (fn off : Nat) : Bool :=
  d.windowLives (d.msixHalf fn off) && (d.top.ready || d.top.stopped)

/-- Whether an MSI-X table takes writes (R549, R551). -/
def Dev.msixWrites (d : Dev) (fn off : Nat) : Bool :=
  d.windowLives (d.msixHalf fn off) && d.top.ready && !d.top.stopped

/-- What a word of BAR0 holds besides the registers: MSI-X table and pending bits. -/
def Dev.readMsix (d : Dev) (fn off : Nat) : Option Word32 :=
  match d.msixWord fn off with
  | some (f, v, k) =>
    let x := d.vec f v
    some (w32 (match k with | 0 => x.addr % 2 ^ 32 | 1 => x.addr / 2 ^ 32 | 2 => x.data | _ => b2n x.masked))
  | none =>
    if fn = 0 ∨ fn = 0x40 then
      if off < 2 ^ 25 ∧ off % 2 ^ 24 = 0x18800 then
        (d.windowFn (Half.ofCode (off / 2 ^ 24)) 0).map fun f => w32 (d.pendingBits f)
      else none
    else if off = 0x1800 then some (w32 (d.pendingBits fn))
    else none

end Sys2Proof.Machine
end

