-- ==== Sys2Proof/Machine/Clock.lean ====
section
/-! DEFINITION. Facet clocks, the power cap, temperature, device time from PPS_IN, reference clocks, patrol scrub and the
Secure Controllers' own health (R22 to R24, R241, R247, R516 to R520, R524, R543, R567, R569, R572). -/

namespace Sys2Proof.Machine

open Sys2Proof

/-! ### Facet clk (R22, R24, R517) -/

/-- Bitmap of the facet-clk islands of a half (R21). -/
def clkIslands (h : Half) : Nat := (2 ^ 11 - 1) * 2 ^ (19 * h.code)

/-- A CLOCK_CHANGE event (R300). -/
def Wk.clockEvent (w : Wk) (map old new : Nat) : Wk := w.post .west 0 { kind := 4, d0 := map, d1 := old + new * 2 ^ 32 }

/-- Sets the facet clk of one half; a change writes its event (R24). -/
def Wk.setClk (w : Wk) (h : Half) (mhz : Nat) : Wk :=
  let old := (w.dev.top.sc.get h).clk
  if old = mhz then w else (w.upd (·.onSc h fun s => { s with clk := mhz })).clockEvent (clkIslands h) old mhz

/-- A MHz value as TOP_FACET_CLK stores it: rounded down to a multiple of 25 and clamped (R520). -/
def clkValue (x : Nat) : Nat := min 1600 (max 400 (x / 25 * 25))

/-- A write to TOP_FACET_CLK: both halves take their settings at once, in any state, under one event (R517). Its bitmap
names the halves that changed; the frequencies are the west half's unless only the east changed (DESIGN CHOICE). -/
def Wk.facetClkWrite (w : Wk) (v : Word32) : Wk :=
  let nw := clkValue (bits v.toNat 0 16)
  let ne := clkValue (bits v.toNat 16 16)
  let ow := w.dev.top.sc.w.clk
  let oe := w.dev.top.sc.e.clk
  let w := w.upd fun d =>
    ((d.setReg .west Reg.TOP_FACET_CLK (w32 (ne * 2 ^ 16 + nw))).onSc .west fun s => { s with clk := nw }).onSc .east
      fun s => { s with clk := ne }
  let w := w.upd (·.onTop fun t => { t with recovering := false })
  let map := (if ow = nw then 0 else clkIslands .west) + (if oe = ne then 0 else clkIslands .east)
  if ow = nw ∧ oe ≠ ne then w.clockEvent map oe ne else w.clockEvent map ow nw

/-- Design power of the grade, W (R1, R520). -/
def Top.designPower (t : Top) : Nat := if t.grade = 2 then 1800 else 2000

/-- The cap in force (R517). -/
def Dev.capWatts (d : Dev) : Nat := min (bits (d.rn .west Reg.TOP_POWER_CAP) 0 16) d.top.ceiling

/-- The raise branch of R517: 50 consecutive ms below 97 % of the cap raise both halves by 25 MHz. -/
def Wk.raiseStep (w : Wk) (low : Bool) : Wk :=
  if !low then w.upd (·.onTop fun t => { t with capBelow := 0 })
  else if w.dev.top.capBelow + 1 < 50 then w.upd (·.onTop fun t => { t with capBelow := t.capBelow + 1 })
  else
    let up (w : Wk) (h : Half) : Wk := w.setClk h (min (w.dev.clkSetting h) ((w.dev.top.sc.get h).clk + 25))
    let w := up (up w .west) .east
    w.upd fun d => d.onTop fun t =>
      { t with capBelow := 0,
               recovering := t.recovering && !(decide (t.sc.w.clk = d.clkSetting .west) && decide (t.sc.e.clk = d.clkSetting .east)) }

/-- One ms of the power cap (R517, R518). The mean powers are the sensors' (W). -/
def Wk.capStep (w : Wk) (power west east : Nat) : Wk :=
  let d := w.dev
  if (d.top.sc.w.st ≠ .booted ∧ d.top.sc.e.st ≠ .booted) ∨ d.time < d.top.capTime + 1000000 then w
  else
    let cap := d.capWatts
    let w := w.upd fun d => d.onTop fun t => { t with power := power, halfPower := ⟨west, east⟩, capTime := d.time }
    let w := if d.clkHeld ∧ cap < power then w.upd fun e => e.count .west Reg.TOP_POWER_OVER_NS_LO (d.time - d.top.capTime) else w
    let low : Bool := decide (100 * power < 97 * cap)
    if d.top.tripped then w
    else if d.clkHeld then (if d.top.recovering then w.raiseStep low else w)
    else if cap < power then
      let down (w : Wk) (h : Half) : Wk := w.setClk h (max 400 ((w.dev.top.sc.get h).clk - 25))
      (down (down w .west) .east).upd (·.onTop fun t => { t with capBelow := 0 })
    else w.raiseStep low

/-- CAP_STEP. -/
def execCapStep (power west east now : Nat) (s : State) : Host.Outcome State Fault Refusal :=
  finish s ((s.start.at_ now).capStep power west east)

/-! ### Temperature (R519, R520) -/

/-- ALERT_C, in 1/256 °C. -/
def Dev.alertTemp (d : Dev) : Int := bits (d.rn .west Reg.TOP_THERM_CFG) 0 8 * 256
/-- TRIP_C, in 1/256 °C. -/
def Dev.tripTemp (d : Dev) : Int := bits (d.rn .west Reg.TOP_THERM_CFG) 8 8 * 256

/-- Highest junction sensor of the package, in 1/256 °C. -/
def Dev.hottest (d : Dev) : Int := (d.top.sc.w.temps ++ d.top.sc.e.temps).foldl max (-65536)

/-- THERM_ALERT_N, the trip and the start of cooling, as the sensors now read. -/
def Wk.thermal (w : Wk) : Wk :=
  let d := w.dev
  let hot := d.hottest
  let alert := decide (d.alertTemp ≤ hot) || (d.top.thermAlert && !decide (hot < d.alertTemp - 5 * 256))
  let cool := decide (hot < d.tripTemp - 10 * 256)
  let w := w.upd fun d => d.onTop fun t =>
    { t with thermAlert := alert, coolSince := if cool then some (t.coolSince.getD d.time) else none }
  if d.tripTemp ≤ hot then
    ((w.upd (·.onTop fun t => { t with tripped := true, recovering := false, capBelow := 0 })).setClk .west 400).setClk .east 400
  else w

/-- A junction sensor is read. -/
def Wk.tempReading (w : Wk) (h : Half) (sensor : Nat) (temp : Int) : Wk :=
  if ¬ w.dev.top.pwrGood ∨ 16 ≤ sensor then w
  else (w.upd (·.onSc h fun s => { s with temps := setNth s.temps sensor temp })).thermal

/-- TEMP_READING; `temp` is in 1/256 °C. -/
def execTempReading (half : Half) (sensor : Nat) (temp : Int) (now : Nat) (s : State) : Host.Outcome State Fault Refusal :=
  finish s ((s.start.at_ now).tempReading half sensor temp)

/-- Every sensor has read below TRIP_C − 10 °C for 100 ms: TRIPPED clears and facet clk may climb. -/
def Dev.tripRecovery (d : Dev) : Dev :=
  match d.top.coolSince with
  | none => d
  | some t =>
    if d.top.tripped ∧ t + 100000000 ≤ d.time then
      d.onTop fun t => { t with tripped := false, recovering := true, capBelow := 0 }
    else d

/-- TRIP_RECOVERY. -/
def execTripRecovery (now : Nat) (s : State) : Host.Outcome State Fault Refusal := onDev s fun d => (d.at_ now).tripRecovery

/-- A write to TOP_THERM_CFG: a field outside its range keeps its old value, and the pair is stored only when TRIP_C is
above ALERT_C (R520). -/
def Wk.thermCfgWrite (w : Wk) (v : Word32) : Wk :=
  let old := w.dev.rn .west Reg.TOP_THERM_CFG
  let a := bits v.toNat 0 8
  let t := bits v.toNat 8 8
  let a := if 70 ≤ a ∧ a ≤ 105 then a else bits old 0 8
  let t := if 80 ≤ t ∧ t ≤ 110 then t else bits old 8 8
  if a < t then (w.upd (·.setReg .west Reg.TOP_THERM_CFG (w32 (t * 256 + a)))).thermal else w

/-- DROOP_EVENT: the DROOP input of the Health Monitor counts it (R465, R572). -/
def execDroopEvent (half : Half) (now : Nat) (s : State) : Host.Outcome State Fault Refusal :=
  onDev s fun d => (d.at_ now).onSc half fun x => { x with droops := x.droops + 1 }

/-! ### Telemetry (R516) -/

/-- An item of the sample: its value bytes, none for an unknown code. Fields of both halves stand west first, and a value
whose width the spec does not give takes 16 bits, or its register's field width (DESIGN CHOICE). -/
def Dev.telemetryItem (d : Dev) (stack : Both Int) (code : Nat) : List Byte :=
  let t := d.top
  let lo (r : Nat) : List Byte := toBytes 4 (d.rn .west r)
  let top16 (x : Int) : List Byte := toBytes 2 (wrapInt x 16)
  let facets (h : Half) : List Byte :=
    let s := d.selftestStatus h
    toBytes 1 (bits s 0 8) ++ toBytes 1 (bits s 8 8) ++ toBytes 1 (bits s 16 8)
  let pressure (h : Half) : List Byte := (List.range 5).flatMap fun i => toBytes 4 (d.rn h (Reg.FAB_LEVEL_PRESSURE_LO + 8 * i))
  if code = 1 then toBytes 2 t.power
  else if code = 2 then toBytes 2 t.halfPower.w ++ toBytes 2 t.halfPower.e
  else if code = 3 then top16 (t.sc.w.temps.foldl max (-65536)) ++ top16 (t.sc.e.temps.foldl max (-65536))
  else if code = 4 then top16 stack.w ++ top16 stack.e
  else if code = 5 then toBytes 2 t.sc.w.clk ++ toBytes 2 t.sc.e.clk
  else if code = 6 then toBytes 2 t.memClk
  else if code = 7 then toBytes 4 d.hmRisk ++ toBytes 4 d.mirStatus
  else if code = 8 then toBytes 4 d.deviceStatus ++ toBytes 4 (d.leadStatus .west) ++ toBytes 4 (d.leadStatus .east) ++ toBytes 4 d.powerStatus
  else if code = 9 then facets .west ++ facets .east
  else if code = 10 then lo Reg.TOP_ERR_CORRECTED_LO ++ lo Reg.TOP_ERR_CONTAINED_LO ++ lo Reg.TOP_ERR_JOB_FATAL_LO
  else if code = 11 then pressure .west ++ pressure .east
  else if code = 12 then (List.range 64).flatMap fun p => toBytes 4 (d.portStatus p)
  else []

/-- Once per ms the SC samples every item; the stack temperatures (1/256 °C) are the sensors'. -/
def Dev.telemetrySample (d : Dev) (stackW stackE : Int) : Dev :=
  let due : Bool := match d.top.telemetry with | none => true | some s => decide (s.time + 1000000 ≤ d.time)
  if (d.top.sc.w.st ≠ .booted ∧ d.top.sc.e.st ≠ .booted) ∨ due = false then d
  else
    let d := (d.onSc .west fun s => { s with stackTemp := stackW }).onSc .east fun s => { s with stackTemp := stackE }
    let items := (List.range 12).map fun i => (i + 1, d.telemetryItem ⟨stackW, stackE⟩ (i + 1))
    d.onTop fun t => { t with telemetry := some ⟨d.time, items⟩ }

/-- TELEMETRY_SAMPLE. -/
def execTelemetrySample (stackW stackE : Int) (now : Nat) (s : State) : Host.Outcome State Fault Refusal :=
  onDev s fun d => (d.at_ now).telemetrySample stackW stackE

/-! ### Patrol scrub (R241, R247) -/

/-- Blocks of 64 bytes in a stack. -/
def stackBlocks : Nat := 2 ^ 31

/-- What a controller does with the block it has read at an address: an error of one symbol is corrected and written back, an
access that cannot be corrected is poisoned (R243, R247). Errors of more symbols than the code can tell leave the block with
other data: free values. -/
def Wk.eccRead (w : Wk) (a : Nat) (errs : List (Nat × BitVec 16)) : Wk :=
  let w := match rsRead errs with
    | .clean => w
    | .fixed _ _ => w.upd fun d => (d.count (halfOf a) Reg.MEM_ECC_CE_LO 1).count .west Reg.TOP_ERR_CORRECTED_LO 1
    | .bad => w.upd (·.poisonBlock a)
  if rsRead errs = .bad ∨ rsWhole errs then w
  else
    (w.wr (a / 64 * 64) ((List.range 8).flatMap fun k => toBytes 8 (Config.freeWord (w.dev.free + k)).toNat)).upd fun d =>
      { d with free := d.free + 8 }

/-- Patrol scrub reads the block at an address, in which some symbols differ from what was written. A stack's pass ends when as
many blocks have been read as it holds (R247). -/
def Wk.patrolScrub (w : Wk) (a : Nat) (errs : List (Nat × BitVec 16)) : Wk :=
  let k := (placeStack a).stack
  let h := Half.ofCode (k / 8)
  if ¬ isLocal a ∨ isSram a ∨ ¬ bit (w.dev.rn h Reg.MEM_SCRUB_CFG) 31 ∨ ¬ bit w.dev.top.stackUp k ∨ w.dev.lostAt a then w
  else
    let n := (aget w.dev.host.scrub k).getD 0 + 1
    (w.upd fun d =>
      let d := if n = stackBlocks then d.count h Reg.MEM_SCRUB_PASSES_LO 1 else d
      d.onHost fun s => { s with scrub := aput s.scrub k (n % stackBlocks) }).eccRead a errs

/-- PATROL_SCRUB: the address of a block, and how its data and check symbols differ from what was written. -/
def execPatrolScrub (addr : Nat) (dataErrs checkErrs : List (Nat × BitVec 16)) (now : Nat) (s : State) :
    Host.Outcome State Fault Refusal :=
  finish s ((s.start.at_ now).patrolScrub addr (rsErrs dataErrs checkErrs))

/-! ### The Secure Controllers' own health (R524, R543) -/

/-- An SC enters its error state: during boot the half behaves as under R495, at run time the device stops with cause
SC_FAULT. -/
def Wk.scFails (w : Wk) (h : Half) : Wk :=
  let st := (w.dev.top.sc.get h).st
  if st = .starting then w.upd (·.scBoot h false false false)
  else if st ≠ .booted then w
  else
    let w := w.upd (·.onSc h fun s => { s with st := .error })
    if w.dev.top.stopped then w else w.deviceFatal h 0 6 (scIsland h) true 0

/-- 100 ms without a watchdog reset. -/
def Wk.scWatchdog (w : Wk) (h : Half) : Wk :=
  let s := w.dev.top.sc.get h
  if s.st = .booted ∧ s.watchdog + 100000000 ≤ w.dev.time then w.scFails h else w

/-- SC_WATCHDOG. -/
def execScWatchdog (half : Half) (now : Nat) (s : State) : Host.Outcome State Fault Refusal :=
  finish s ((s.start.at_ now).scWatchdog half)

/-- The known-answer tests run again after 24 h. -/
def Wk.selfTestPeriodic (w : Wk) (h : Half) (pass : Bool) : Wk :=
  let s := w.dev.top.sc.get h
  if s.st ≠ .booted ∨ w.dev.time < s.selfTest + 86400000000000 then w
  else
    let w := w.upd fun d => d.onSc h fun s => { s with selfTest := d.time }
    if pass then w else w.scFails h

/-- SELF_TEST_PERIODIC. -/
def execSelfTestPeriodic (half : Half) (pass : Bool) (now : Nat) (s : State) : Host.Outcome State Fault Refusal :=
  finish s ((s.start.at_ now).selfTestPeriodic half pass)

/-- ENTROPY_HEALTH_FAIL. -/
def execEntropyHealthFail (half : Half) (now : Nat) (s : State) : Host.Outcome State Fault Refusal :=
  finish s ((s.start.at_ now).scFails half)

/-! ### Reference clocks and device time (R567, R569) -/

/-- A SERDES_REFCLK stops: the running ports of its quarter retrain. -/
def Wk.serdesLoss (w : Wk) (q : Nat) : Wk :=
  if 4 ≤ q then w
  else
    ((List.range 16).map fun i => 16 * q + i).foldl
      (fun w p => if (w.dev.fport p).st = .up ∨ (w.dev.fport p).st = .securing then w.portTo p .retraining else w) w

/-- SERDES_REFCLK_LOSS. -/
def execSerdesRefclkLoss (quarter now : Nat) (s : State) : Host.Outcome State Fault Refusal :=
  finish s ((s.start.at_ now).serdesLoss quarter)

/-- Offset of device time to the nearest whole second, ns: what must be added to it. -/
def ppsOffset (time : Nat) : Int :=
  let r := time % 1000000000
  if r ≤ 500000000 then -(r : Int) else (1000000000 - r : Nat)

/-- An edge of PPS_IN on a device with MASTER set (R567). The edge that sets the time is the first accepted one, so its
offset has no limit; device time moves to the next whole second. -/
def Dev.pps (d : Dev) : Dev :=
  let soon : Bool := match d.top.ppsLast with | none => false | some t => decide (d.time < t + 900000000)
  if ¬ d.timeCfg.1 ∨ soon = true then d
  else if ¬ d.top.ready then
    if d.top.timeSet then d
    else
      let t := cdiv d.time 1000000000 * 1000000000
      { d with time := t, top := { d.top with timeSet := true, ppsLast := some t } }
  else
    let off := ppsOffset d.time
    if off > 1000000 ∨ off < -1000000 then d else d.onTop fun t => { t with slew := off, ppsLast := some d.time }

/-- PPS_IN. -/
def execPpsIn (now : Nat) (s : State) : Host.Outcome State Fault Refusal := onDev s fun d => (d.at_ now).pps

end Sys2Proof.Machine
end

