-- ==== Sys2Proof/Machine/FacetExec.lean ====
section
/-! DEFINITION. The facet instructions: each command runs the instruction at a facet's pc when it has that opcode (R157
to R164). -/

namespace Sys2Proof.Machine

open Sys2Proof

/-- One instruction of a facet. -/
def facetInstr (facet now op : Nat) (body : Wk → Nat → FacetRun → Nat → Res) (s : State) : Host.Outcome State Fault Refusal :=
  finish s ((s.start.at_ now).facetStep Wk.facetEnd facet op body)

/-- NOP of a facet. -/
def execFacetNop (facet now : Nat) (s : State) : Host.Outcome State Fault Refusal :=
  facetInstr facet now 0x00 bodyNop s
/-- END. -/
def execEndInst (facet now : Nat) (s : State) : Host.Outcome State Fault Refusal :=
  facetInstr facet now 0x01 bodyEnd s
/-- BR. -/
def execBr (facet now : Nat) (s : State) : Host.Outcome State Fault Refusal :=
  facetInstr facet now 0x02 bodyBr s
/-- BC. -/
def execBc (facet now : Nat) (s : State) : Host.Outcome State Fault Refusal :=
  facetInstr facet now 0x03 bodyBc s
/-- LOOP. -/
def execLoopInst (facet now : Nat) (s : State) : Host.Outcome State Fault Refusal :=
  facetInstr facet now 0x04 bodyLoop s
/-- CALL. -/
def execCallInst (facet now : Nat) (s : State) : Host.Outcome State Fault Refusal :=
  facetInstr facet now 0x05 bodyCall s
/-- RET. -/
def execRetInst (facet now : Nat) (s : State) : Host.Outcome State Fault Refusal :=
  facetInstr facet now 0x06 bodyRet s
/-- TRAP. -/
def execTrap (facet now : Nat) (s : State) : Host.Outcome State Fault Refusal :=
  facetInstr facet now 0x07 bodyTrap s
/-- ADD. -/
def execAddS (facet now : Nat) (s : State) : Host.Outcome State Fault Refusal :=
  facetInstr facet now 0x10 (bodyScalar fun a b => a + b) s
/-- ADDI. -/
def execAddi (facet now : Nat) (s : State) : Host.Outcome State Fault Refusal :=
  facetInstr facet now 0x11 (bodyImm fun a b => a + b) s
/-- SUB. -/
def execSubS (facet now : Nat) (s : State) : Host.Outcome State Fault Refusal :=
  facetInstr facet now 0x12 (bodyScalar fun a b => a + 2 ^ 64 - b) s
/-- MUL. -/
def execMulS (facet now : Nat) (s : State) : Host.Outcome State Fault Refusal :=
  facetInstr facet now 0x13 (bodyScalar fun a b => a * b) s
/-- AND. -/
def execAndS (facet now : Nat) (s : State) : Host.Outcome State Fault Refusal :=
  facetInstr facet now 0x14 (bodyScalar fun a b => a &&& b) s
/-- OR. -/
def execOrS (facet now : Nat) (s : State) : Host.Outcome State Fault Refusal :=
  facetInstr facet now 0x15 (bodyScalar fun a b => a ||| b) s
/-- XOR. -/
def execXorS (facet now : Nat) (s : State) : Host.Outcome State Fault Refusal :=
  facetInstr facet now 0x16 (bodyScalar fun a b => a ^^^ b) s
/-- SHL. -/
def execShl (facet now : Nat) (s : State) : Host.Outcome State Fault Refusal :=
  facetInstr facet now 0x17 (bodyShift fun a n => a <<< n) s
/-- SHR. -/
def execShr (facet now : Nat) (s : State) : Host.Outcome State Fault Refusal :=
  facetInstr facet now 0x18 (bodyShift fun a n => a >>> n) s
/-- MIN. -/
def execMinS (facet now : Nat) (s : State) : Host.Outcome State Fault Refusal :=
  facetInstr facet now 0x19 (bodyScalar smin) s
/-- MAX. -/
def execMaxS (facet now : Nat) (s : State) : Host.Outcome State Fault Refusal :=
  facetInstr facet now 0x1A (bodyScalar smax) s
/-- LI. -/
def execLi (facet now : Nat) (s : State) : Host.Outcome State Fault Refusal :=
  facetInstr facet now 0x1B (bodyImm fun _ b => b) s
/-- LIH. -/
def execLih (facet now : Nat) (s : State) : Host.Outcome State Fault Refusal :=
  facetInstr facet now 0x1C (bodyImm fun a b => b * 2 ^ 32 ||| a % 2 ^ 32) s
/-- RDSPEC. -/
def execRdspec (facet now : Nat) (s : State) : Host.Outcome State Fault Refusal :=
  facetInstr facet now 0x1D bodyRdspec s
/-- LD64. -/
def execLd64 (facet now : Nat) (s : State) : Host.Outcome State Fault Refusal :=
  facetInstr facet now 0x1E (bodyLoad 8) s
/-- LD32. -/
def execLd32 (facet now : Nat) (s : State) : Host.Outcome State Fault Refusal :=
  facetInstr facet now 0x1F (bodyLoad 4) s
/-- TPSET. -/
def execTpset (facet now : Nat) (s : State) : Host.Outcome State Fault Refusal :=
  facetInstr facet now 0x20 bodyTpset s
/-- TLOAD. -/
def execTload (facet now : Nat) (s : State) : Host.Outcome State Fault Refusal :=
  facetInstr facet now 0x21 bodyTload s
/-- TSTORE. -/
def execTstore (facet now : Nat) (s : State) : Host.Outcome State Fault Refusal :=
  facetInstr facet now 0x22 bodyTstore s
/-- TCOPY. -/
def execTcopy (facet now : Nat) (s : State) : Host.Outcome State Fault Refusal :=
  facetInstr facet now 0x23 bodyTcopy s
/-- THDR. -/
def execThdr (facet now : Nat) (s : State) : Host.Outcome State Fault Refusal :=
  facetInstr facet now 0x24 bodyThdr s
/-- TZERO. -/
def execTzero (facet now : Nat) (s : State) : Host.Outcome State Fault Refusal :=
  facetInstr facet now 0x25 bodyTzero s
/-- TGATHER. -/
def execTgather (facet now : Nat) (s : State) : Host.Outcome State Fault Refusal :=
  facetInstr facet now 0x26 bodyTgather s
/-- TLDR. -/
def execTldr (facet now : Nat) (s : State) : Host.Outcome State Fault Refusal :=
  facetInstr facet now 0x27 bodyTldr s
/-- TSTR. -/
def execTstr (facet now : Nat) (s : State) : Host.Outcome State Fault Refusal :=
  facetInstr facet now 0x28 bodyTstr s
/-- TCVT. -/
def execTcvt (facet now : Nat) (s : State) : Host.Outcome State Fault Refusal :=
  facetInstr facet now 0x29 bodyTcvt s
/-- MMA. -/
def execMma (facet now : Nat) (s : State) : Host.Outcome State Fault Refusal :=
  facetInstr facet now 0x30 bodyMma s
/-- ACC_STORE. -/
def execAccStore (facet now : Nat) (s : State) : Host.Outcome State Fault Refusal :=
  facetInstr facet now 0x31 bodyAccStore s
/-- ACC_LOAD. -/
def execAccLoad (facet now : Nat) (s : State) : Host.Outcome State Fault Refusal :=
  facetInstr facet now 0x32 (bodyAccLoad false) s
/-- ACC_ZERO. -/
def execAccZero (facet now : Nat) (s : State) : Host.Outcome State Fault Refusal :=
  facetInstr facet now 0x33 bodyAccZero s
/-- ACC_ADD. -/
def execAccAdd (facet now : Nat) (s : State) : Host.Outcome State Fault Refusal :=
  facetInstr facet now 0x34 (bodyAccLoad true) s
/-- VADD. -/
def execVadd (facet now : Nat) (s : State) : Host.Outcome State Fault Refusal :=
  facetInstr facet now 0x40 (bodyLanes fun a b _ => fadd a b) s
/-- VSUB. -/
def execVsub (facet now : Nat) (s : State) : Host.Outcome State Fault Refusal :=
  facetInstr facet now 0x41 (bodyLanes fun a b _ => fsub a b) s
/-- VMUL. -/
def execVmul (facet now : Nat) (s : State) : Host.Outcome State Fault Refusal :=
  facetInstr facet now 0x42 (bodyLanes fun a b _ => fmul a b) s
/-- VFMA. -/
def execVfma (facet now : Nat) (s : State) : Host.Outcome State Fault Refusal :=
  facetInstr facet now 0x43 (bodyLanes ffma) s
/-- VMAX. -/
def execVmax (facet now : Nat) (s : State) : Host.Outcome State Fault Refusal :=
  facetInstr facet now 0x44 (bodyLanes fun a b _ => fmax a b) s
/-- VMIN. -/
def execVmin (facet now : Nat) (s : State) : Host.Outcome State Fault Refusal :=
  facetInstr facet now 0x45 (bodyLanes fun a b _ => fmin a b) s
/-- VCMPLT. -/
def execVcmplt (facet now : Nat) (s : State) : Host.Outcome State Fault Refusal :=
  facetInstr facet now 0x46 (bodyLanes fun a b _ => cmpLt a b) s
/-- VSEL. -/
def execVsel (facet now : Nat) (s : State) : Host.Outcome State Fault Refusal :=
  facetInstr facet now 0x47 (bodyLanes vsel) s
/-- VBCAST. -/
def execVbcast (facet now : Nat) (s : State) : Host.Outcome State Fault Refusal :=
  facetInstr facet now 0x48 bodyVbcast s
/-- VEXT. -/
def execVext (facet now : Nat) (s : State) : Host.Outcome State Fault Refusal :=
  facetInstr facet now 0x49 bodyVext s
/-- VRSUM. -/
def execVrsum (facet now : Nat) (s : State) : Host.Outcome State Fault Refusal :=
  facetInstr facet now 0x4A (bodyTree fadd) s
/-- VRMAX. -/
def execVrmax (facet now : Nat) (s : State) : Host.Outcome State Fault Refusal :=
  facetInstr facet now 0x4B (bodyTree fmax) s
/-- VLD. -/
def execVld (facet now : Nat) (s : State) : Host.Outcome State Fault Refusal :=
  facetInstr facet now 0x4C bodyVld s
/-- VST. -/
def execVst (facet now : Nat) (s : State) : Host.Outcome State Fault Refusal :=
  facetInstr facet now 0x4D bodyVst s
/-- VLDA. -/
def execVlda (facet now : Nat) (s : State) : Host.Outcome State Fault Refusal :=
  facetInstr facet now 0x4E bodyVlda s
/-- VSTA. -/
def execVsta (facet now : Nat) (s : State) : Host.Outcome State Fault Refusal :=
  facetInstr facet now 0x4F bodyVsta s
/-- EXP. -/
def execExpV (facet now : Nat) (s : State) : Host.Outcome State Fault Refusal :=
  facetInstr facet now 0x50 (bodySpecial .exp) s
/-- EXP2. -/
def execExp2 (facet now : Nat) (s : State) : Host.Outcome State Fault Refusal :=
  facetInstr facet now 0x51 (bodySpecial .exp2) s
/-- LN. -/
def execLn (facet now : Nat) (s : State) : Host.Outcome State Fault Refusal :=
  facetInstr facet now 0x52 (bodySpecial .ln) s
/-- LOG2. -/
def execLog2 (facet now : Nat) (s : State) : Host.Outcome State Fault Refusal :=
  facetInstr facet now 0x53 (bodySpecial .log2) s
/-- RCP. -/
def execRcp (facet now : Nat) (s : State) : Host.Outcome State Fault Refusal :=
  facetInstr facet now 0x54 (bodySpecial .rcp) s
/-- SQRT. -/
def execSqrt (facet now : Nat) (s : State) : Host.Outcome State Fault Refusal :=
  facetInstr facet now 0x55 (bodySpecial .sqrt) s
/-- RSQRT. -/
def execRsqrt (facet now : Nat) (s : State) : Host.Outcome State Fault Refusal :=
  facetInstr facet now 0x56 (bodySpecial .rsqrt) s
/-- TANH. -/
def execTanh (facet now : Nat) (s : State) : Host.Outcome State Fault Refusal :=
  facetInstr facet now 0x57 (bodySpecial .tanh) s
/-- SIGMOID. -/
def execSigmoid (facet now : Nat) (s : State) : Host.Outcome State Fault Refusal :=
  facetInstr facet now 0x58 (bodySpecial .sigmoid) s
/-- SILU. -/
def execSilu (facet now : Nat) (s : State) : Host.Outcome State Fault Refusal :=
  facetInstr facet now 0x59 (bodySpecial .silu) s
/-- ERF. -/
def execErf (facet now : Nat) (s : State) : Host.Outcome State Fault Refusal :=
  facetInstr facet now 0x5A (bodySpecial .erf) s
/-- GELU. -/
def execGelu (facet now : Nat) (s : State) : Host.Outcome State Fault Refusal :=
  facetInstr facet now 0x5B (bodySpecial .gelu) s
/-- WAIT_PIECE. -/
def execWaitPiece (facet now : Nat) (s : State) : Host.Outcome State Fault Refusal :=
  facetInstr facet now 0x60 bodyWaitPiece s
/-- WAIT_ANY. -/
def execWaitAny (facet now : Nat) (s : State) : Host.Outcome State Fault Refusal :=
  facetInstr facet now 0x61 bodyWaitAny s
/-- RELEASE_SLOT. -/
def execReleaseSlot (facet now : Nat) (s : State) : Host.Outcome State Fault Refusal :=
  facetInstr facet now 0x62 bodyReleaseSlot s
/-- WAIT_GROUP. -/
def execWaitGroup (facet now : Nat) (s : State) : Host.Outcome State Fault Refusal :=
  facetInstr facet now 0x63 bodyWaitGroup s
/-- RLOAD. -/
def execRload (facet now : Nat) (s : State) : Host.Outcome State Fault Refusal :=
  facetInstr facet now 0x70 bodyRload s
/-- RLOADT. -/
def execRloadt (facet now : Nat) (s : State) : Host.Outcome State Fault Refusal :=
  facetInstr facet now 0x71 bodyRloadt s
/-- RSTORE. -/
def execRstore (facet now : Nat) (s : State) : Host.Outcome State Fault Refusal :=
  facetInstr facet now 0x72 bodyRstore s
/-- RSTORET. -/
def execRstoret (facet now : Nat) (s : State) : Host.Outcome State Fault Refusal :=
  facetInstr facet now 0x73 bodyRstoret s
/-- RATOMIC. -/
def execRatomic (facet now : Nat) (s : State) : Host.Outcome State Fault Refusal :=
  facetInstr facet now 0x74 bodyRatomic s
/-- POST_NOTICE. -/
def execPostNotice (facet now : Nat) (s : State) : Host.Outcome State Fault Refusal :=
  facetInstr facet now 0x80 bodyPostNotice s
/-- STAGE_QUERY. -/
def execStageQuery (facet now : Nat) (s : State) : Host.Outcome State Fault Refusal :=
  facetInstr facet now 0x81 bodyStageQuery s

end Sys2Proof.Machine
end

