-- ==== Sys2Proof/Machine/Preempt.lean ====
section
/-! DEFINITION. Pre-emption at the expiry of a grace timer (R333 to R335). -/

namespace Sys2Proof.Machine

open Sys2Proof

/-- Whether the engine of a READY node could take it now. -/
def Wk.canDispatch (w : Wk) (seq i : Nat) (n : Node) : Bool :=
  match n.opcode with
  | 0x100 => w.facetsFree w.dev seq i
  | 0x101 => w.facetsFree w.dev seq i
  | 0x200 => w.routeFree w.dev seq i
  | 0x201 => w.routeFree w.dev seq i
  | 0x202 => w.fetchFree w.dev seq i
  | 0x203 => w.lensFree w.dev seq i
  | _ => true

/-- Whether the RUNNING node `m` of `y` may be pre-empted at all (R334). -/
def Dev.preemptible (d : Dev) (y : Inst) (m : Node) : Bool :=
  m.st == .running && (engineOf m.opcode y.lane).preempts && !m.pinned
    && !(m.facets.any fun f => match d.run f with | some r => r.lent | none => false)

/-- The next victim of a node's pre-emption: lowest priority first, then the most recently dispatched (R333). -/
def Wk.victim (w : Wk) (x : Inst) (i : Nat) (n : Node) : Option (Nat × Nat) :=
  let d := w.dev
  let l := d.tgu.insts.flatMap fun p =>
    if p.2.prio < x.prio then
      (p.2.nodes.zipIdx.filter fun m => d.preemptible p.2 m.1 ∧ w.holdsEngine x i n p.2 m.2 m.1).map fun m => (p.2.prio, m.1.dispOrd, p.1, m.2)
    else []
  (l.foldl
    (fun (o : Option (Nat × Nat × Nat × Nat)) v =>
      match o with
      | none => some v
      | some u => if v.1 < u.1 ∨ (v.1 = u.1 ∧ u.2.1 < v.2.1) then some v else o)
    none).map fun v => (v.2.2.1, v.2.2.2)

/-- Re-runs of every node, by instance. -/
def Dev.rerunCounts (d : Dev) : List (Nat × List Nat) := d.tgu.insts.map fun p => (p.1, p.2.nodes.map (·.reruns))

/-- Kills one victim. It and every attempt its kill is carried to count as pre-empted (R334, R342). -/
def Wk.preemptOne (w : Wk) (seq i : Nat) : Wk :=
  let old := w.dev.rerunCounts
  let w := w.killRerun seq i false
  let killed := sumBy w.dev.tgu.insts fun p =>
    match aget old p.1 with
    | none => 0
    | some rs => (p.2.nodes.zip rs).countP fun m => m.1.reruns > m.2
  let w := w.upd (·.count .west Reg.TGU_PREEMPTIONS_LO killed)
  w.upd fun d => d.tgu.insts.foldl
    (fun d p =>
      match aget old p.1 with
      | none => d
      | some rs => d.acct p.2.fn 0x710 ((p.2.nodes.zip rs).countP fun m => m.1.reruns > m.2))
    d

/-- Kills victims until a node can dispatch, at most `k` of them. -/
def Wk.preempt (seq i : Nat) (x : Inst) (n : Node) : Nat → Wk → Wk
  | 0, w => w
  | k + 1, w =>
    if w.canDispatch seq i n then w
    else
      match w.victim x i n with
      | none => w.upd fun d => d.onTgu fun t =>
          { t with graces := t.graces.map fun g => if g.inst = seq ∧ g.node = i then { g with dropped := some d.time } else g }
      | some v => Wk.preempt seq i x n k (w.preemptOne v.1 v.2)

/-- The grace timer of a READY node expires (R333). A node that its ring's full CQ keeps waiting pre-empts nothing (R288). -/
def Wk.graceExpiry (w : Wk) (seq i : Nat) : Wk :=
  match w.dev.tgu.graces.find? fun g => g.inst = seq ∧ g.node = i, w.dev.inst seq, w.dev.node seq i with
  | some g, some x, some n =>
    if g.dropped.isSome ∨ w.dev.time < g.due ∨ n.st ≠ .ready ∨ w.dev.ringFull x ∨ ¬ bit (w.dev.rn .west Reg.TGU_PREEMPT_CFG) 31 then w
    else Wk.preempt seq i x n (1 + sumBy w.dev.tgu.insts fun p => p.2.nodes.length) w
  | _, _, _ => w

/-- GRACE_TIMER_EXPIRY. Timers whose conditions have come to hold since the last command run from that moment. -/
def execGraceTimerExpiry (inst node now : Nat) (s : State) : Host.Outcome State Fault Refusal :=
  finish s (((s.start.at_ now).graceScan.graceExpiry inst node).graceScan)

end Sys2Proof.Machine
end

