-- ==== Sys2Proof/Machine/Tm.lean ====
section
/-! DEFINITION. The TM: COPY, COPY_T, INGEST and WINDOW_GATHER (R215 to R219, R267 to R270). -/

namespace Sys2Proof.Machine

open Sys2Proof

/-- Status TRANSPOSE_OPERAND. -/
def stTranspose : Nat := 0x3C
/-- Status MOVE_OPERAND. -/
def stMove : Nat := 0x3D

/-! ### Reading and writing -/

/-- The half whose TM runs a node of a destination (R319). -/
def Dev.tmHalf (d : Dev) (fn dst : Nat) : Half := if addrForm dst = 2 then d.fnHome fn else halfOf dst

/-- Ends a TM node's work. Only a DST of COPY takes a HOST address (R237). Its local writes are staged, its HOST writes go out (R580), and its counts wait for its commit. -/
def Wk.tmWrite (w : Wk) (seq i : Nat) (x : Inst) (rs : List Run) (acts : List CommitAct) : Wk :=
  let l := rs.filter fun r => addrForm r.addr ≠ 2
  let hs := rs.filter fun r => addrForm r.addr = 2
  match runsMisplaced l with
  | some a => w.raiseStatus seq i stDenied a w.dev.leadHalf
  | none =>
    if ¬ hs.isEmpty ∧ ¬ w.dev.fnDelivers x.fn then w.raiseStatus seq i stDenied (match hs with | h :: _ => h.addr | [] => 0) w.dev.leadHalf
    else
      let w := hs.foldl (fun w r => w.wrH (busAddr r.addr) r.bytes) w
      let w := (w.upd fun d => d.onNode seq i fun n => { n with acts := n.acts ++ acts }).stage seq i l
      w.upd (·.engineDone seq i)

/-- Reads the stored tile at an address: the tile and its stored length. A compressed tile stands only outside T1 (R45). -/
def Wk.tmTile (w : Wk) (job fn a : Nat) (host : Bool) : Except (Nat × Nat) (Tile × Nat) :=
  let rd (k : Nat) : Except (Nat × Nat) (List Byte) := if host then w.rdForm job fn a k else w.rdLocal job a k
  match rd 32 with
  | .error e => .error e
  | .ok hb =>
    match storedSectors hb with
    | none => .error (stTileFormat, a)
    | some n =>
      match rd (32 + 32 * n) with
      | .error e => .error e
      | .ok bs =>
        match openTile (addrForm a == 2 || !isSram a) bs with
        | .error st => .error (st, a)
        | .ok t => .ok (t, 32 + 32 * n)

/-- Reads tiles laid end to end. The first argument counts them. -/
def Wk.tmTiles (w : Wk) (job fn : Nat) (host : Bool) : Nat → Nat → Except (Nat × Nat) (List Tile)
  | 0, _ => .ok []
  | n + 1, a =>
    match w.tmTile job fn a host with
    | .error e => .error e
    | .ok t =>
      match w.tmTiles job fn host n (a + t.2) with
      | .error e => .error e
      | .ok l => .ok (t.1 :: l)

/-- The job's seed with the rounding and salt of a node. -/
def Wk.tmConv (w : Wk) (job round salt : Nat) : Conv :=
  { mode := (Rnd.ofCode round).getD .rne, seed := match w.dev.job job with | some j => j.seed | none => 0, salt := salt }

/-! ### Conversion (R218) -/

/-- A dense tile converted to a TYPE, transposed or not. Without transposing, the members of a block keep together when the
axis stays (DEDUCED from R218's row for COPY_T). -/
def convTile (t : Tile) (k : Conv) (ty : Nat) (axis flip : Bool) (trow tcol : Nat) : Tile :=
  let s := t.hdr
  let v := t.view
  let src (r c : Nat) : Nat × Nat := if flip then (c, r) else (r, c)
  let rows := if flip then s.cols else s.rows
  let cols := if flip then s.rows else s.cols
  let scale := if (s.ty = ty ∧ ¬ isMx ty) ∨ (hasScale s.ty ∧ hasScale ty) then s.scale else scaleOne
  let h := Hdr.fresh ty rows cols trow tcol scale axis
  let same : Bool := s.ty == ty && (!isMx ty || axis == (s.axis != flip))
  let body :=
    if same then packCodes h (fun r c => let p := src r c; v.code p.1 p.2) (fun b => v.scales.getD b 0)
    else packVals h k fun r c => let p := src r c; v.val p.1 p.2
  ({ hdr := h, body := body } : Tile).mapped

/-! ### COPY (R267) -/

/-- The word at 0x40 of a COPY. -/
def cpWord (nb : List Byte) : Nat := fld nb 0x40 4

/-- The check of R270 for COPY, apart from the buffer of DST. -/
def copyOk (nb : List Byte) : Bool :=
  let w := cpWord nb
  let len := fld nb 0x30 8
  let ty := bits w 24 8
  let comp := bits w 6 3
  bits w 12 4 == 0 && bits w 1 5 == 0 && zeroFrom (nb.take 0x80) 0x44 && fld nb 0x20 8 % 32 == 0 && fld nb 0x28 8 % 32 == 0
    && (comp ≤ 2 || comp == 7) && (Rnd.ofCode (bits w 10 2)).isSome && (ty == 0xFF || tyOk ty) && (!bit w 9 || (ty != 0xFF && isMx ty))
    && (if bit w 0 then decide (1 ≤ len ∧ len ≤ 16777216) && fld nb 0x38 8 % 16 == 0
        else len % 32 == 0 && decide (32 ≤ len ∧ len ≤ 2 ^ 40) && fld nb 0x38 8 == 0)

/-- Whether an address lies in a COMPRESSIBLE buffer. -/
def Dev.compressible (d : Dev) (a : Nat) : Bool :=
  isLocal a && (match d.bufAt a with | some b => bit b.flags 4 | none => false)

/-- Stores a tile under a COMPRESS code, with the code used: AUTO keeps the fewest sectors, the lower code on a tie; a code
that the TYPE does not permit never pays (R46, R50). -/
def Tile.storedFor (t : Tile) (comp : Nat) : List Byte :=
  let exp : Bool := (t.hdr.ty == tyBf16 || t.hdr.ty == tyFp32) && t.hdr.sparsity == 0
  let raw : List Byte := ({ t with hdr := { t.hdr with raw := true } } : Tile).stored
  if comp = 2 ∧ ¬ exp then raw
  else if comp = 7 then
    let a := t.storedAs 1
    let b := if exp then t.storedAs 2 else a
    if b.1.length < a.1.length then b.1 else a.1
  else (t.storedAs comp).1

/-- Runs one after another from an address. -/
def layRuns (a : Nat) : List (List Byte) → List Run
  | [] => []
  | b :: l => ⟨a, b⟩ :: layRuns (a + b.length) l

/-- The counts of written tiles in a half (R51, R273). -/
def tmCounts (h : Half) (tiles : List (List Byte)) : List CommitAct :=
  let hd (b : List Byte) : Hdr := Hdr.parse b
  [.count h Reg.TM_RAW_TILES_LO ((tiles.filter fun b => (hd b).raw).length),
   .count h Reg.TM_BYTES_OUT_LO (sumBy tiles (·.length)),
   .count h Reg.TM_TILES_COMPRESSED_LO ((tiles.filter fun b => (hd b).comp ≠ 0).length)]

/-- A COPY in TILES mode. -/
def Wk.copyTiles (w : Wk) (seq i : Nat) (x : Inst) (nb : List Byte) : Wk :=
  let wd := cpWord nb
  let ty := bits wd 24 8
  let dst := fld nb 0x28 8
  match w.tmTiles x.job x.fn true (fld nb 0x30 8) (fld nb 0x20 8) with
  | .error e => w.raiseStatus seq i e.1 e.2 w.dev.leadHalf
  | .ok ts =>
    if ty ≠ 0xFF ∧ ts.any fun t => t.hdr.sparsity ≠ 0 then w.raiseStatus seq i stTileFormat (fld nb 0x20 8) w.dev.leadHalf
    else
      let k := w.tmConv x.job (bits wd 10 2) (bits wd 16 8)
      let outs := ts.map fun t =>
        let t' := if ty = 0xFF then t.padded.mapped else convTile t k ty (bit wd 9) false t.hdr.trow t.hdr.tcol
        t'.storedFor (bits wd 6 3)
      let res := fld nb 0x38 8
      let raws := (outs.filter fun b => (Hdr.parse b).raw).length
      let rec_ : List Run := if res = 0 then [] else
        [⟨res, toBytes 8 (sumBy outs fun b => b.length / 32) ++ toBytes 4 raws ++ toBytes 4 0⟩]
      if addrForm res ≠ 0 then w.raiseStatus seq i stDenied res w.dev.leadHalf
      else w.tmWrite seq i x (layRuns dst outs ++ rec_) (tmCounts (w.dev.tmHalf x.fn dst) outs)

/-- COPY at dispatch. -/
def Wk.runCopy (w : Wk) (seq i : Nat) (x : Inst) (nb : List Byte) : Wk :=
  let wd := cpWord nb
  let dst := fld nb 0x28 8
  if ¬ copyOk nb ∨ (bits wd 6 3 ≠ 0 ∧ ¬ w.dev.compressible dst) then w.fail seq i stMove 0
  else if bit wd 0 then w.copyTiles seq i x nb
  else
    let n := fld nb 0x30 8
    match w.rdForm x.job x.fn (fld nb 0x20 8) n with
    | .error e => w.raiseStatus seq i e.1 e.2 w.dev.leadHalf
    | .ok bs => w.tmWrite seq i x [⟨dst, bs⟩] [.count (w.dev.tmHalf x.fn dst) Reg.TM_BYTES_OUT_LO n]

/-- COPY. -/
def execCopy (inst node now : Nat) (s : State) : Host.Outcome State Fault Refusal :=
  finish s ((s.start.at_ now).dispatch inst node 0x300 always false noNull fun w x _ nb => w.runCopy inst node x nb)

/-! ### COPY_T (R215 to R217) -/

/-- The check of R216. -/
def copyTOk (nb : List Byte) : Bool :=
  let w := fld nb 0x34 4
  let ty := bits w 24 8
  bits w 4 12 == 0 && !bit w 0 && zeroFrom (nb.take 0x80) 0x38 && tyOk ty && (Rnd.ofCode (bits w 2 2)).isSome && (!bit w 1 || isMx ty)
    && fld nb 0x28 8 % 32 == 0 && fld nb 0x30 2 != 0 && fld nb 0x32 2 != 0

/-- COPY_T at dispatch. A zero tile count breaks R215's range (DEDUCED). -/
def Wk.runCopyT (w : Wk) (seq i : Nat) (x : Inst) (nb : List Byte) : Wk :=
  if ¬ copyTOk nb then w.fail seq i stTranspose 0
  else
    let wd := fld nb 0x34 4
    let ty := bits wd 24 8
    let rows := fld nb 0x30 2
    let cols := fld nb 0x32 2
    let src := fld nb 0x20 8
    let dst := fld nb 0x28 8
    match w.tmTiles x.job x.fn false (rows * cols) src with
    | .error e => w.raiseStatus seq i e.1 e.2 w.dev.leadHalf
    | .ok ts =>
      let at_ (n : Nat) : Nat × Nat := (n / cols, n % cols)
      let wrong : Bool := ts.zipIdx.any fun t => t.1.hdr.sparsity ≠ 0 ∨ t.1.hdr.trow ≠ (at_ t.2).1 ∨ t.1.hdr.tcol ≠ (at_ t.2).2
      let int : Bool := ts.any fun t => (t.hdr.ty == tyInt32) != (ty == tyInt32)
      if wrong then w.raiseStatus seq i stTileFormat src w.dev.leadHalf
      else if int then w.fail seq i stTranspose 0
      else
        let k := w.tmConv x.job (bits wd 2 2) (bits wd 16 8)
        let s := 32 * (1 + plainSectors ty 0)
        let outs := ts.zipIdx.map fun t =>
          let p := at_ t.2
          (dst + (p.2 * rows + p.1) * s, (convTile t.1 k ty (bit wd 1) true p.2 p.1).stored)
        if addrForm dst ≠ 0 then w.raiseStatus seq i stDenied dst w.dev.leadHalf
        else w.tmWrite seq i x (outs.map fun o => ⟨o.1, o.2⟩) (tmCounts (w.dev.tmHalf x.fn dst) (outs.map (·.2)))

/-- COPY_T. -/
def execCopyT (inst node now : Nat) (s : State) : Host.Outcome State Fault Refusal :=
  finish s ((s.start.at_ now).dispatch inst node 0x301 always false noNull fun w x _ nb => w.runCopyT inst node x nb)

/-! ### INGEST (R268) -/

/-- The operands of INGEST. -/
structure Ingest where
  y : Nat
  c : Nat
  dst : Nat
  width : Nat
  height : Nat
  py : Nat
  pc : Nat
  fmt : Nat        -- 0 NV12, 1 P010, 2 RGB888
  patch : Nat

/-- Reads them. -/
def Ingest.parse (nb : List Byte) : Ingest :=
  let w := fld nb 0x44 4
  { y := fld nb 0x20 8, c := fld nb 0x28 8, dst := fld nb 0x30 8, width := fld nb 0x38 2, height := fld nb 0x3A 2, py := fld nb 0x3C 4,
    pc := fld nb 0x40 4, fmt := bits w 0 2, patch := if bits w 2 2 = 0 then 8 else if bits w 2 2 = 1 then 14 else 16 }

/-- Bytes of one row of luma or RGB pixels. -/
def Ingest.rowY (g : Ingest) : Nat := if g.fmt = 0 then g.width else if g.fmt = 1 then 2 * g.width else 3 * g.width

/-- Bytes of one row of chroma. -/
def Ingest.rowC (g : Ingest) : Nat := if g.fmt = 0 then g.width else if g.fmt = 1 then 2 * g.width else 0

/-- The check of R270 for INGEST. -/
def ingestOk (nb : List Byte) : Bool :=
  let w := fld nb 0x44 4
  let g := Ingest.parse nb
  let even : Bool := g.width % 2 == 0 && g.height % 2 == 0
  bits w 8 16 == 0 && zeroFrom (nb.take 0x80) 0x60 && g.fmt != 3 && bits w 2 2 != 3 && bits w 4 2 != 3 && (Rnd.ofCode (bits w 6 2)).isSome
    && g.dst % 32 == 0 && decide (2 ≤ g.width ∧ g.width ≤ 16384 ∧ 2 ≤ g.height ∧ g.height ≤ 16384) && (g.fmt == 2 || even)
    && decide (g.rowY ≤ g.py) && (if g.fmt = 2 then g.c == 0 && g.pc == 0 else decide (g.rowC ≤ g.pc))

/-- Rows of a plane. -/
def Wk.planeRows (w : Wk) (x : Inst) (base pitch n rows : Nat) : Except (Nat × Nat) (Array (Array Byte)) :=
  (List.range rows).foldl
    (fun (a : Except (Nat × Nat) (Array (Array Byte))) y =>
      match a with
      | .error e => .error e
      | .ok l => match w.rdForm x.job x.fn (base + y * pitch) n with | .error e => .error e | .ok b => .ok (l.push b.toArray))
    (.ok #[])

/-- The code of a channel at pixel (x, y). -/
def pixelCode (g : Ingest) (ys cs : Array (Array Byte)) (ch x y : Nat) : Nat :=
  let at_ (p : Array (Array Byte)) (r k : Nat) : Nat := ((p.getD r #[]).getD k 0).toNat
  match g.fmt with
  | 0 => if ch = 0 then at_ ys y x else at_ cs (y / 2) (2 * (x / 2) + (ch - 1))
  | 1 =>
    let k := 4 * (x / 2) + 2 * (ch - 1)
    let v := if ch = 0 then at_ ys y (2 * x) + 256 * at_ ys y (2 * x + 1) else at_ cs (y / 2) k + 256 * at_ cs (y / 2) (k + 1)
    bits v 6 10
  | _ => at_ ys y (3 * x + ch)

/-- INGEST at dispatch. -/
def Wk.runIngest (w : Wk) (seq i : Nat) (x : Inst) (nb : List Byte) : Wk :=
  if ¬ ingestOk nb then w.fail seq i stMove 0
  else
    let g := Ingest.parse nb
    let wd := fld nb 0x44 4
    let ty := (if bits wd 4 2 = 0 then tyFp32 else if bits wd 4 2 = 1 then tyBf16 else 0x01)
    match w.planeRows x g.y g.py g.rowY g.height,
          (if g.fmt = 2 then .ok #[] else w.planeRows x g.c g.pc g.rowC (g.height / 2) : Except (Nat × Nat) (Array (Array Byte))) with
    | .error e, _ => w.raiseStatus seq i e.1 e.2 w.dev.leadHalf
    | _, .error e => w.raiseStatus seq i e.1 e.2 w.dev.leadHalf
    | .ok ys, .ok cs =>
      let p := g.patch
      let pw := cdiv g.width p
      let tokens := pw * cdiv g.height p
      let n := 3 * p * p
      let j := cdiv n 64
      let k := w.tmConv x.job (bits wd 6 2) (bits wd 24 8)
      let s := 32 * (1 + plainSectors ty 0)
      let elem (t col : Nat) : Num :=
        let ch := col / (p * p)
        let px := p * (t % pw) + col % p
        let py := p * (t / pw) + col % (p * p) / p
        if px < g.width ∧ py < g.height then
          f32 (ffma (fl (.ofNat (pixelCode g ys cs ch px py) 0)) (fld nb (0x48 + 4 * ch) 4) (fld nb (0x54 + 4 * ch) 4))
        else .zero
      let outs := (List.range (cdiv tokens 64)).flatMap fun tr => (List.range j).map fun tc =>
        let h := Hdr.fresh ty (min 64 (tokens - 64 * tr)) (min 64 (n - 64 * tc)) tr tc scaleOne false
        let body := packVals h k fun r c => elem (64 * tr + r) (64 * tc + c)
        (⟨g.dst + (tr * j + tc) * s, ({ hdr := h, body := body } : Tile).mapped.stored⟩ : Run)
      let h := w.dev.tmHalf x.fn g.dst
      -- R237: the DST of INGEST takes no HOST address
      if addrForm g.dst ≠ 0 then w.raiseStatus seq i stDenied g.dst w.dev.leadHalf
      else w.tmWrite seq i x outs (tmCounts h (outs.map (·.bytes)) ++ [.count h Reg.TM_FRAMES_LO 1])

/-- INGEST. -/
def execIngest (inst node now : Nat) (s : State) : Host.Outcome State Fault Refusal :=
  finish s ((s.start.at_ now).dispatch inst node 0x302 always false noNull fun w x _ nb => w.runIngest inst node x nb)

/-! ### WINDOW_GATHER (R269) -/

/-- The operands of WINDOW_GATHER. -/
structure Window where
  src : Nat
  dst : Nat
  h : Nat
  w : Nat
  c : Nat
  dil : Nat
  pad : Nat
  stride : Nat
  kw : Nat
  kh : Nat

/-- Reads them. -/
def Window.parse (nb : List Byte) : Window :=
  let x := fld nb 0x38 4
  { src := fld nb 0x20 8, dst := fld nb 0x28 8, h := fld nb 0x32 2, w := fld nb 0x30 2, c := fld nb 0x34 2, dil := bits x 16 3,
    pad := bits x 12 4, stride := bits x 8 4, kw := bits x 4 4, kh := bits x 0 4 }

/-- OH or OW: 0 when the window does not fit. -/
def Window.outSize (g : Window) (n k : Nat) : Nat :=
  let need := g.dil * (k - 1) + 1
  if n + 2 * g.pad < need ∨ g.stride = 0 then 0 else (n + 2 * g.pad - need) / g.stride + 1

/-- The check of R270 for WINDOW_GATHER. -/
def windowOk (nb : List Byte) : Bool :=
  let g := Window.parse nb
  fld nb 0x36 2 == 0 && bits (fld nb 0x38 4) 19 13 == 0 && zeroFrom (nb.take 0x80) 0x3C && g.dst % 32 == 0 && g.h != 0 && g.w != 0 && g.c != 0
    && decide (1 ≤ g.dil ∧ g.dil ≤ 4) && decide (g.pad ≤ 7) && decide (1 ≤ g.stride ∧ g.stride ≤ 8) && g.kw != 0 && g.kh != 0
    && g.outSize g.h g.kh != 0 && g.outSize g.w g.kw != 0

/-- The source grid of a WINDOW_GATHER: every tile of one TYPE and TENSOR_SCALE. -/
def Wk.windowGrid (w : Wk) (job : Nat) (g : Window) : Except (Nat × Nat) (List (List Tile)) :=
  match w.tmTile job 0 g.src false with
  | .error e => .error e
  | .ok t =>
    if isMx t.1.hdr.ty ∨ t.1.hdr.sparsity ≠ 0 then .error (stTileFormat, g.src)
    else
      match w.tileGrid job g.src (cdiv (g.h * g.w) 64) (cdiv g.c 64) t.1.hdr.ty with
      | .error e => .error e
      | .ok l =>
        if hasScale t.1.hdr.ty ∧ l.any fun r => r.any fun y => y.hdr.scale ≠ t.1.hdr.scale then .error (stTileFormat, g.src) else .ok l

/-- WINDOW_GATHER at dispatch. -/
def Wk.runWindow (w : Wk) (seq i : Nat) (x : Inst) (nb : List Byte) : Wk :=
  if ¬ windowOk nb then w.fail seq i stMove 0
  else
    let g := Window.parse nb
    match w.windowGrid x.job g with
    | .error e => w.raiseStatus seq i e.1 e.2 w.dev.leadHalf
    | .ok grid =>
      let vs := (grid.map fun r => (r.map (·.view)).toArray).toArray
      let h0 := match grid with | (t :: _) :: _ => t.hdr | _ => Hdr.fresh 0 1 1 0 0 scaleOne false
      let ow := g.outSize g.w g.kw
      let rows := g.outSize g.h g.kh * ow
      let n := g.kh * g.kw * g.c
      let j := cdiv n 64
      let s := 32 * (1 + plainSectors h0.ty 0)
      let code (r col : Nat) : Nat :=
        let k := col / g.c
        let c := col % g.c
        let y := r / ow * g.stride + k / g.kw * g.dil
        let z := r % ow * g.stride + k % g.kw * g.dil
        if y < g.pad ∨ z < g.pad ∨ g.h ≤ y - g.pad ∨ g.w ≤ z - g.pad then 0
        else
          let q := (y - g.pad) * g.w + (z - g.pad)
          match (vs.getD (q / 64) #[])[c / 64]? with
          | none => 0
          | some v => if v.hdr.valid (q % 64) (c % 64) then v.code (q % 64) (c % 64) else 0
      let outs := (List.range (cdiv rows 64)).flatMap fun tr => (List.range j).map fun tc =>
        let h := Hdr.fresh h0.ty (min 64 (rows - 64 * tr)) (min 64 (n - 64 * tc)) tr tc (if hasScale h0.ty then h0.scale else scaleOne) false
        let body := packCodes h (fun r c => code (64 * tr + r) (64 * tc + c)) fun _ => 0
        (⟨g.dst + (tr * j + tc) * s, ({ hdr := h, body := body } : Tile).mapped.stored⟩ : Run)
      let h := w.dev.tmHalf x.fn g.dst
      if addrForm g.dst ≠ 0 then w.raiseStatus seq i stDenied g.dst w.dev.leadHalf
      else w.tmWrite seq i x outs (tmCounts h (outs.map (·.bytes)) ++ [.count h Reg.TM_WINDOW_ROWS_LO rows])

/-- WINDOW_GATHER. -/
def execWindowGather (inst node now : Nat) (s : State) : Host.Outcome State Fault Refusal :=
  finish s ((s.start.at_ now).dispatch inst node 0x303 always false noNull fun w x _ nb => w.runWindow inst node x nb)

end Sys2Proof.Machine
end

