-- ==== Sys2Proof/Machine/Commit.lean ====
section
/-! DEFINITION. Commits: the slot, the checks, the commit point, the logs, the release and the record (R324 to R329). -/

namespace Sys2Proof.Machine

open Sys2Proof

/-! ### Step 1: the next commit slot -/

/-- Whether a node of a state comes first in commit order among the nodes of that state that are ready to commit. -/
def Dev.nextToCommit (d : Dev) (st : NodeSt) (k : Nat) : Bool :=
  d.tgu.insts.all fun p => p.2.nodes.all fun n =>
    n.st != st || (match n.readyOrd with | none => true | some j => decide (k ≤ j))

/-! ### Step 2: the checks -/

/-- The LOCAL bytes that an act writes besides the staged runs. -/
def CommitAct.range : CommitAct → Option (Nat × Nat)
  | .add64 a _ => some (a, 8)
  | .presence b e _ => some (b + e / 8, 1)
  | .presenceClear b n => some (b, n)
  | _ => none

/-- Every local range that a commit writes, in order. -/
def Node.writes (n : Node) : List (Nat × Nat) := n.staged.map (fun r => (r.addr, r.bytes.length)) ++ n.acts.filterMap (·.range)

/-- The first refusal among the local writes of a commit: its status and address. -/
def Dev.writesRefused (d : Dev) (job : Nat) (n : Node) : Option (Nat × Nat) :=
  n.writes.findSome? fun r => let st := d.checkRange job r.1 r.2 true; if st = 0 then none else some (st, r.1)

/-- The refusal of a FREE, RELEASE or SHARE, against what every earlier commit left (R263): status, handle, and ON_REFUSE
RECORD. -/
def Dev.bpmRefused (d : Dev) (job : Nat) (n : Node) : Option (Nat × Nat × Bool) :=
  n.acts.findSome? fun a =>
    match a with
    | .bpm op hd g o rec_ => let st := d.bpmTest op job hd g o; if st = 0 then none else some (st, hd, rec_)
    | _ => none

/-! ### Step 3: the commit point -/

/-- Retains an expert on a facet: the least recently used entries make room (R148). -/
def Dev.retainEntry (d : Dev) (f : Nat) (e : Retained) : Dev :=
  let mine := (d.fac.retained.filter fun r => r.1 = f ∧ ¬ (r.2.job = e.job ∧ r.2.table = e.table ∧ r.2.expert = e.expert)).map (·.2)
  let byUse := sortBy (fun (a b : Retained) => decide (b.used < a.used)) mine
  let room := d.retainOf (facetHalf f)
  let keep := (byUse.foldl
    (fun (a : Nat × Nat × List Retained) r =>
      if a.1 < 15 ∧ a.2.1 + r.sectors ≤ room then (a.1 + 1, a.2.1 + r.sectors, a.2.2 ++ [r]) else (16, a.2.1, a.2.2))
    (0, e.sectors, [])).2.2
  if e.sectors > room then d
  else { d with fac := { d.fac with retained := d.fac.retained.filter (fun r => r.1 ≠ f) ++ (keep ++ [e]).map fun r => (f, r) } }

/-- A gradient window opens with its first producer, or closes (R225). -/
def Dev.gradWindow (d : Dev) (job p : Nat) (e : Option Nat) (ring : Option (Nat × Nat)) : Dev :=
  d.onTgu fun t =>
    match e, ring with
    | some e, some r => if (aget t.windows (job, p, e)).isSome then t else { t with windows := aput t.windows (job, p, e) r }
    | some e, none => { t with windows := adel t.windows (job, p, e) }
    | none, _ => { t with windows := t.windows.filter fun x => ¬ (x.1.1 = job ∧ x.1.2.1 = p) }

/-- One committed local write. -/
def Wk.commitWrite (w : Wk) (a : Nat) (bs : List Byte) : Wk :=
  (w.wr a bs).upd fun d => (d.dropOrds a bs.length).mirDirty a bs.length

/-- One local effect of step 3. -/
def Wk.commitAct (w : Wk) (x : Inst) (a : CommitAct) : Wk :=
  match a with
  | .alloc h p k flags => (w.commitAlloc h p k flags).mirBufs
  | .bpm op hd g o _ => (w.upd fun d => d.bpmApply op x.job hd g o).mirBufs
  | .add64 a v => w.commitWrite a (toBytes 8 ((ofBytes (w.rdN a 8) + v) % 2 ^ 64))
  | .count h off n => w.upd (·.count h off n)
  | .presence b e on =>
    let k := b + e / 8
    let m : Byte := BitVec.ofNat 8 (2 ^ (e % 8))
    w.commitWrite k [if on then w.rd k ||| m else w.rd k &&& ~~~ m]
  | .presenceClear b n => w.commitWrite b (List.replicate n 0)
  | .genLive _ _ => w
  | .retain f e => w.upd (·.retainEntry f e)
  | .window j p e r => w.upd (·.gradWindow j p e r)
  | .tapDone dest fid seq st => w.upd (·.mirMsg dest msgTapResult fid seq st 0)

/-- The 64-byte blocks of ranges, without repeats. -/
def blocksOf (l : List (Nat × Nat)) : List Nat :=
  (l.flatMap fun r => if r.2 = 0 then [] else (List.range ((r.1 + r.2 - 1) / 64 - r.1 / 64 + 1)).map fun i => r.1 / 64 + i).eraseDups

/-- Notes the blocks of a commit and counts those that an earlier commit wrote after this command's dispatch (R329). -/
def Dev.overlap (d : Dev) (n : Node) : Dev :=
  let bs := blocksOf n.writes
  let hit := bs.countP fun b => match aget d.tgu.blockOrd b with | some o => decide (n.dispOrd < o) | none => false
  (d.count .west Reg.TGU_WRITE_OVERLAP_LO hit).onTgu fun t =>
    { t with blockOrd := bs.foldl (fun l b => aput l b t.ord) t.blockOrd, ord := t.ord + 1 }

/-- Poison of a block that the runs of a commit cover whole is cleared (R244, R326). -/
def Dev.unpoison (d : Dev) (n : Node) : Dev := d.onHost fun s => { s with poison := s.poison.filter fun k => !stagedCovers n (64 * k) 64 }

/-- The shadow frames of a commit wait for their copy (R327). -/
def Dev.framesOut (d : Dev) (n : Node) : Dev :=
  d.onTgu fun t =>
    { t with outFrames := t.outFrames ++ ((runPages n.staged).filter fun p => ¬ t.outFrames.any fun f => f.page = p).map fun p =>
        ⟨halfOf p, p, pageSize p⟩ }

/-- The result of a SNAPSHOT takes MIR_STATUS as it is at the commit (R480). -/
def Dev.stampStatus (d : Dev) (n : Node) : Node :=
  if n.opcode ≠ 0x700 then n
  else { n with staged := n.staged.map fun r => { r with bytes := r.bytes.take 4 ++ toBytes 4 d.mirStatus ++ r.bytes.drop 8 } }

/-- Step 3 for one node. -/
def Wk.commitPoint (w : Wk) (seq i : Nat) (x : Inst) (n : Node) : Wk :=
  let w := w.upd fun d => (((d.overlap n).count .west Reg.TGU_NODES_COMMITTED_LO 1).framesOut n).onTgu fun t => { t with commits := t.commits + 1 }
  let w := n.staged.foldl (fun w r => w.commitWrite r.addr r.bytes) w
  let w := w.upd (·.unpoison n)
  let w := n.acts.foldl (fun w a => w.commitAct x a) w
  let w := match n.opcode with
    | 0x200 => w.upd (·.routeCommit seq i)
    | 0x201 => w.upd (·.routeCommit seq i)
    | 0x202 => w.upd (·.fetchCommit seq i)
    | 0x203 => w.combCommit seq i
    | _ => w
  let w := if n.opcode / 256 = 1 then w.upd (·.acct x.fn 0x718 n.heldNs) else w
  w.journalCause

/-! ### Step 4: the commit logs -/

/-- A HOST write released after step 3; one that the port cannot deliver ends as R580 says. -/
def Wk.logHost (w : Wk) (x : Inst) (n : Node) (a : Nat) (bs : List Byte) : Wk :=
  if w.dev.fnDelivers x.fn then w.wrH a bs
  else w.lateHostError (w.dev.fnHome x.fn) x.job x.tag n.id n.attempt a

/-- Whose a released effect of an instance of a node is: the FU of the facet that ran the instance sends it, or, for a command of no
facet, the lead half's (DESIGN CHOICE). -/
def Node.sender (n : Node) (x : Inst) (lead : Half) (index : Nat) : ReqFor :=
  .node x.job x.tag n.id (match n.logBy.find? fun l => l.2.2 = index with | some l => facetHalf l.1 | none => lead)

/-- Releases one entry. `g` is the gateway's segment under way and the log it belongs to. -/
def Wk.logEntry (w : Wk) (seq i : Nat) (x : Inst) (n : Node) (why : ReqFor) (g : Option GateSeg) (e : LogEntry) : Wk × Option GateSeg :=
  match e with
  | .write dev region off bs => w.releaseWrite x.job 3 why g dev region off bs
  | .atomic dev region off op bs => (w.releaseAtomic seq i x.job why x.strict 3 dev region off op bs, g)
  | .notice bs => (w.upd fun d => { d with lens := { d.lens with transit := d.lens.transit ++ [Notice.parse bs] } }, g)
  | .put dev region off l n c => (w.releasePut seq i x.job why x.strict dev region off l n c, g)
  | .get dev region off l k c => (w.startGet x.job x.tag n.id dev region off l k c, g)
  | .invalidate dev region new => (w.releaseInvalidate x.job why dev region new, g)
  | .hostWrite a bs => (w.logHost x n a bs, g)
  | .irq v => (w.upd fun d =>
      let q := d.ringReg x.fn x.ring 0x20
      if bit q 31 then d.raise x.fn v (bits q 8 8) else d, g)

/-- Releases the logs in ascending logical index, each in program order (R188). -/
def Wk.releaseLogs (w : Wk) (seq i : Nat) (x : Inst) (n : Node) : Wk :=
  let why (k : Nat) : ReqFor := n.sender x w.dev.leadHalf k
  let l := sortBy (fun (a b : Nat × LogEntry) => decide (a.1 < b.1)) n.log
  let r := l.foldl
    (fun (a : Wk × Option GateSeg × Nat) e =>
      let w := if e.1 = a.2.2 then a.1 else a.1.sendGate x.job (why a.2.2) a.2.1
      let g := if e.1 = a.2.2 then a.2.1 else none
      let y := w.logEntry seq i x n (why e.1) g e.2
      (y.1, y.2, e.1))
    (w, none, 0)
  r.1.sendGate x.job (why r.2.2) r.2.1

/-! ### The commit -/

/-- Steps 3 to 6. The record is handed over before the logs go out, so that a refusal met by them leaves it as it stands
(R370). -/
def Wk.commitNow (w : Wk) (seq i : Nat) (x : Inst) (n : Node) : Wk :=
  let w := w.releaseMatmul n
  let n := match w.dev.node seq i with | some m => { n with heldNs := m.heldNs } | none => n
  let w := w.commitPoint seq i x n
  let w := w.upd fun d => if d.top.degraded then d else d.onTgu fun t => { t with shadowAcked := t.shadowAcked ++ [(seq, i)] }
  let fp := if x.strict then 0 else n.log.countP fun e => match e.2 with | .atomic _ _ _ op _ => op = 1 ∨ op = 2 | _ => false
  let w := w.upd fun d => d.onNode seq i fun m => { m with tdc := m.tdc + fp }
  let w := w.closeNode seq i n.result
  let w := w.releaseLogs seq i x n
  let w := w.releaseList seq ((n.succ.zipIdx.filter fun p => ¬ n.given.contains p.2).map (·.1))
  ((w.checkStuck seq).upd (·.closeInst seq)).upd (·.fetchScan)

/-- Steps 2 to 6 of a node's commit. It waits for frozen pages, and for room for its notices (R130). -/
def Wk.tryCommit (w : Wk) (seq i : Nat) : Wk :=
  match w.dev.inst seq, w.dev.node seq i with
  | some x, some n0 =>
    let n := w.dev.stampStatus n0
    let w := n.writes.foldl (fun w r => w.mirHold r.1 r.2) w
    if n.writes.any fun r => ¬ (w.dev.frozen r.1 r.2).isEmpty then w
    else
      match w.dev.writesRefused x.job n with
      | some e => w.raiseStatus seq i e.1 e.2 w.dev.leadHalf
      | none =>
        match w.dev.bpmRefused x.job n with
        | none => if w.noticesFit n then w.commitNow seq i x n else w
        | some (st, hd, rec_) =>
          if rec_ then w.commitNow seq i x { n with result := st, acts := [.count (halfOf hd) (refusalCounter st) 1] }
          else (w.upd (·.count (halfOf hd) (refusalCounter st) 1)).fail seq i st hd
  | _, _ => w

/-- A commit boundary of the TGU in charge: a node takes the next slot and goes to the shadow, or, acknowledged or without a
shadow, commits (R325, R458). A requested epoch cut is taken first (R470). -/
def Wk.nodeCommit (w : Wk) (seq i : Nat) : Wk :=
  match w.dev.leadOf, w.dev.node seq i with
  | some _, some n =>
    let cutDue : Bool := w.dev.mir.asked.isSome && w.dev.mirLive && w.dev.mir.cut.isNone
    if w.dev.top.stopped then w
    else
      match n.readyOrd with
      | none => w
      | some k =>
        if n.st = .running ∧ w.dev.nextToCommit .running k then
          if w.dev.top.degraded then (if cutDue then w else w.tryCommit seq i)
          else w.upd fun d => (d.onNode seq i fun n => { n with st := .committing }).onTgu fun t => { t with batchOut := t.batchOut ++ [(seq, i)] }
        else if n.st = .committing ∧ n.acked ∧ w.dev.nextToCommit .committing k ∧ ¬ cutDue then w.tryCommit seq i
        else w
  | _, _ => w

/-- NODE_COMMIT. -/
def execNodeCommit (inst node now : Nat) (s : State) : Host.Outcome State Fault Refusal :=
  finish s ((s.start.at_ now).nodeCommit inst node).graceScan

end Sys2Proof.Machine
end

