-- ==== Sys2Proof/Machine/Deliver.lean ====
section
/-! DEFINITION. What arrives from the fabric for the device's engines: read responses, acknowledgements, lost destinations and
the frames of collectives and exchanges (R122, R360, R365, R382, R399). -/

namespace Sys2Proof.Machine

open Sys2Proof

/-- What engines make of the outcome of a request of their own. -/
def engineHook : EngineHook := fun w t status =>
  if t.job = 0 then w.mirHook t status else if t.op = opMsg then w.ceHook t status else w.startHook t status

/-- A read is refused, or its destination is lost. -/
def Wk.readFails (w : Wk) (r : OutRead) (dest status : Nat) : Wk :=
  match r.for_ with
  | .probe seq i attempt _ _ _ =>
    match w.dev.node seq i with
    | some n => if n.attempt = attempt ∧ n.st = .running then w.fail seq i status dest else w
    | none => w
  | .load f seq i attempt id _ _ _ => w.loadFails f seq i attempt id status
  | .expert seq i e _ _ _ _ => w.expertFails seq i e status
  | .gone _ _ => w
  | .piece id _ _ _ => w.getFails id status
  | .startSector id i _ => w.startReadFails id (some i) status
  | .startTable id _ => w.startReadFails id none status
  | .startChunk id _ _ => w.startReadFails id none status
  | .restore at_ => w.restoreFails at_ (if r.txn.op = opBulk then 4096 else 32 * r.txn.len) status

/-- A read that was answered with OK. -/
def Wk.readDone (w : Wk) (r : OutRead) (bs : List Byte) : Wk :=
  let part (skip want : Nat) : List Byte := (bs.drop skip).take want
  match r.for_ with
  | .probe seq i attempt index rights _ => w.upd (·.probeOk seq i attempt index rights r.txn.dest r.txn.region)
  | .load f seq i attempt id at_ skip want => w.loadArrived f seq i attempt id at_ (part skip want)
  | .expert seq i e at_ skip want _ => w.expertArrived seq i e at_ (part skip want)
  | .gone _ _ => w
  | .piece id at_ skip want =>
    match w.dev.fab.gets.find? fun g => g.id = id with
    | none => w
    | some g => (w.mirHold (g.local_ + at_) want).getPiece id at_ (part skip want) Dev.mirDirty
  | .startSector id i skip => w.sectorArrived id i (part skip 32)
  | .startTable id at_ => w.tableArrived id at_ bs
  | .startChunk id c at_ => w.chunkArrived id c at_ bs
  | .restore at_ => w.restoreArrived at_ bs

/-- A READ_RESP arrives: it answers the read of its tag. One without a read finds no one. -/
def Wk.readResp (w : Wk) (t : Txn) : Wk :=
  let x := w.dev.dest t.src
  match x.reads.find? fun r => r.tag = t.seq with
  | none => w
  | some r =>
    let w := w.upd fun d => d.setDest t.src { x with heard := d.time, reads := x.reads.filter fun q => q.tag ≠ t.seq }
    let status := bits t.word 56 8
    let w := if status = stOk then w.readDone r t.data else w.readFails r t.src status
    w.upd fun d => (d.pump t.src).efuPump

/-- Whether a READ_RESP must wait: it brings a piece of a GET for a page that the Mirror has still to push (R476). -/
def Dev.respWaits (d : Dev) (t : Txn) : Bool :=
  match (d.dest t.src).reads.find? fun r => r.tag = t.seq with
  | some r =>
    match r.for_ with
    | .piece id at_ _ want => (match d.fab.gets.find? fun g => g.id = id with | some g => d.mirFull (g.local_ + at_) want | none => false)
    | _ => false
  | none => false

/-- READ_RESP. -/
def execReadResp (port now : Nat) (s : State) : Host.Outcome State Fault Refusal :=
  let w := s.start.at_ now
  finish s (w.onTxn port (fun t => t.op == opReadResp && !w.dev.respWaits t) fun w t => w.readResp t)

/-- MIRROR_PAGE_PUSH; collectives whose direct writes waited for a page go on. -/
def execMirrorPagePush (now : Nat) (s : State) : Host.Outcome State Fault Refusal :=
  let w := s.start.at_ now
  finish s (if w.dev.mir.cut.isNone then w else w.pagePush.ceResume)

/-- ACK. -/
def execAck (port now : Nat) (s : State) : Host.Outcome State Fault Refusal :=
  finish s ((s.start.at_ now).onTxn port (·.op == opAck) fun w t =>
    w.acked engineHook t.src (bits t.word 14 14) (bits t.word 0 14) (bits t.word 56 8))

/-- FENCE_ACK. -/
def execFenceAck (port now : Nat) (s : State) : Host.Outcome State Fault Refusal :=
  finish s ((s.start.at_ now).onTxn port (·.op == opFenceAck) fun w t => w.fenceAcked engineHook t.src t.seq (bits t.word 56 8) t.job)

/-- What is outstanding toward a destination, by the slot it was sent on, ends with MEMBER_LOST: FENCEs, reads and probes, then released
requests in the order of their release (R372, R382). -/
def Wk.giveUp (w : Wk) (dest : Nat) (lost : Option Nat → Bool) : Wk :=
  let x := w.dev.dest dest
  let w := w.upd fun d => d.setDest dest { x with reads := x.reads.filter (fun r => ¬ lost r.slot), fences := x.fences.filter (fun f => ¬ lost f.slot),
                                                  waiting := if lost none then [] else x.waiting }
  let w := (x.fences.filter fun f => lost f.slot).foldl (fun w f => w.fail f.seq f.node stMemberLost dest) w
  let w := (x.reads.filter fun r => lost r.slot).foldl (fun w r => w.readFails r dest stMemberLost) w
  let w := (x.held.filter fun h => lost h.slot).foldl (fun w h => w.settle engineHook dest h stMemberLost) w
  let w := (if lost none then x.waiting else []).foldl (fun w r => w.settle engineHook dest ⟨x.nextSeq, r.1, none, 0, r.2⟩ stMemberLost) w
  (w.fenceCheck).invalidateCheck.upd (·.efuPump)

/-- REACH_TIMEOUT: everything outstanding toward a silent destination ends with MEMBER_LOST (R382). Toward one whose route has become
unreachable, what has not been sent is refused at once (R372). -/
def Wk.reachTimeout (w : Wk) (dest : Nat) : Wk :=
  if w.dev.unreachable dest then w.giveUp dest fun _ => true
  else if w.dev.reachable dest then w
  else w.giveUp dest Option.isNone

/-- A write to FAB_ROUTE_ENTRY_HI, with the low word it latches: what waits for a route that the entry takes away is refused. -/
def Wk.routeSet (w : Wk) (lo hi : Nat) : Wk :=
  let dest := w.dev.rn w.dev.leadHalf Reg.FAB_ROUTE_DEST % 2 ^ 18
  let w := w.upd (·.routeWrite lo hi)
  (if w.dev.reachable dest then w else w.giveUp dest Option.isNone).mirRoute dest

/-- REACH_TIMEOUT. -/
def execReachTimeout (dest now : Nat) (s : State) : Host.Outcome State Fault Refusal := finish s ((s.start.at_ now).reachTimeout dest)

/-! ### Frames of collectives and exchanges (R399). Each row names the kind of the first frame of its MSG. -/

/-- A MSG whose first frame is of a kind. -/
def Wk.onFrame (w : Wk) (port kind : Nat) : Wk := w.onTxn port (·.startsWith kind) fun w t => w.ceRequest Wk.exchFrame port t

/-- DEMAND. -/
def execDemand (port now : Nat) (s : State) : Host.Outcome State Fault Refusal := finish s ((s.start.at_ now).onFrame port 0x01)
/-- REPAIR. -/
def execRepair (port now : Nat) (s : State) : Host.Outcome State Fault Refusal := finish s ((s.start.at_ now).onFrame port 0x02)
/-- EXPERT_TILE. -/
def execExpertTile (port now : Nat) (s : State) : Host.Outcome State Fault Refusal := finish s ((s.start.at_ now).onFrame port 0x03)
/-- READY_FRAME. -/
def execReadyFrame (port now : Nat) (s : State) : Host.Outcome State Fault Refusal := finish s ((s.start.at_ now).onFrame port 0x10)
/-- PARTIAL. -/
def execPartialFrame (port now : Nat) (s : State) : Host.Outcome State Fault Refusal := finish s ((s.start.at_ now).onFrame port 0x11)
/-- FINAL. -/
def execFinalFrame (port now : Nat) (s : State) : Host.Outcome State Fault Refusal := finish s ((s.start.at_ now).onFrame port 0x12)
/-- RESEND. -/
def execResend (port now : Nat) (s : State) : Host.Outcome State Fault Refusal := finish s ((s.start.at_ now).onFrame port 0x13)
/-- PRESENCE. -/
def execPresence (port now : Nat) (s : State) : Host.Outcome State Fault Refusal := finish s ((s.start.at_ now).onFrame port 0x18)
/-- UNION. -/
def execUnionFrame (port now : Nat) (s : State) : Host.Outcome State Fault Refusal := finish s ((s.start.at_ now).onFrame port 0x19)
/-- VOTE. -/
def execVote (port now : Nat) (s : State) : Host.Outcome State Fault Refusal := finish s ((s.start.at_ now).onFrame port 0x20)
/-- VERDICT. -/
def execVerdict (port now : Nat) (s : State) : Host.Outcome State Fault Refusal := finish s ((s.start.at_ now).onFrame port 0x21)
/-- WITHDRAW. -/
def execWithdraw (port now : Nat) (s : State) : Host.Outcome State Fault Refusal := finish s ((s.start.at_ now).onFrame port 0x22)

/-! ### Detectors (R440, R395) -/

/-- A detector's report reaches the SC of its half. -/
def Wk.report (w : Wk) (h : Half) (island : Nat) (r : Report) (seq i detail : Nat) : Wk :=
  match r with
  | .corrected c n sram =>
    w.upd fun d =>
      let d := if c = 0 then d else d.count h c n
      let x := d.hm.get h
      let d := if sram then { d with hm := d.hm.set h { x with sram := x.sram + n } } else d
      d.count .west Reg.TOP_ERR_CORRECTED_LO n
  | .contained st facet =>
    match w.dev.node seq i with
    | none => match facet with | some f => if st = stParity then w.upd (·.evictBad f) else w | none => w
    | some n =>
      if n.st = .waiting ∨ n.st = .ready then w.containedIdle seq i st detail facet h island
      else w.contained seq i st detail facet h island
  | .jobFatal st => w.fail seq i st detail
  | .deviceFatal st cause wb => if w.dev.top.stopped then w else w.deviceFatal h st cause island wb detail
  | .droppedWrite fn off => w.post h fn { kind := 1, status := stParity, island := island, d0 := off }
  | .uncorrectable a => if localMapped a ∧ ¬ isSram a then w.upd (·.poisonBlock a) else w
  | .txnParity port chan => w.txnParity port chan
  | .releasedParity dest seq => w.upd (·.releasedParity dest seq)
  | .heldLost dest seq => w.heldLost engineHook dest seq
  | .collParity group index => w.ceParity group index
  | .droppedRead => w.upd fun d => { d with resp := .completerAbort }
  | .stackError stack attempt => w.stackError stack attempt
  | .jobData job addr => w.jobData h island job addr

/-- DETECTOR_REPORT. -/
def execDetectorReport (half : Half) (island : Nat) (report : Report) (inst node detail now : Nat) (s : State) :
    Host.Outcome State Fault Refusal :=
  finish s ((s.start.at_ now).report half island report inst node detail)

end Sys2Proof.Machine
end

