-- ==== Sys2Proof/Machine/Mgmt.lean ====
section
/-! DEFINITION. Management requests, MCTP control, SPDM sessions, lifecycle, staging, I3C and JTAG (R507 to R516, R521 to
R533, R540 to R544). What the spec leaves to published standards (the layout of MCTP control answers, of an I3C common
command's answer) follows those standards; payload layouts it does not give are DESIGN CHOICE. -/

namespace Sys2Proof.Machine

open Sys2Proof

/-! ### Requests and responses (R510 to R515) -/

/-- COMPLETION codes (R513). -/
def ccSuccess : Nat := 0
def ccInvalid : Nat := 1
def ccBusy : Nat := 2
def ccNotPermitted : Nat := 3
def ccVerifyFailed : Nat := 4
def ccRollback : Nat := 5
def ccNotReady : Nat := 6
def ccUnsupported : Nat := 7

/-- Bytes of the mailbox buffer of a half. -/
def Dev.mailbox (d : Dev) (h : Half) (n : Nat) : List Byte :=
  ((List.range (cdiv n 4)).flatMap fun i => toBytes 4 (d.rn h (Reg.SEC_MAILBOX + 4 * i))).take n

/-- Puts a response into the mailbox buffer and clears BUSY (R515). -/
def Dev.mailboxAnswer (d : Dev) (h : Half) (m : List Byte) : Dev :=
  let ws := chunks 4 m
  let d := (List.range ws.length).foldl (fun d i => d.setReg h (Reg.SEC_MAILBOX + 4 * i) (w32 (ofBytes (nth ws i [])))) d
  d.onSc h fun s => { s with mailBusy := false, mailLen := m.length - 1 }

/-- The bytes of an Aelum management response (R511). -/
def mgmtResponse (code tag completion : Nat) (body : List Byte) : List Byte :=
  [BitVec.ofNat 8 0x7E] ++ (toBytes 2 Config.vendorId.toNat).reverse ++ toBytes 1 code ++ toBytes 1 0x80 ++ toBytes 1 tag
    ++ toBytes 2 completion ++ body

/-- Sends a message out of a path: over I3C it waits to be read and raises the in-band interrupt (R510). -/
def Dev.sendMctp (d : Dev) (h : Half) (path : MgmtPath) (m : List Byte) : Dev :=
  match path with
  | .i3c => (d.onTop fun t => let x := t.i3c.get h; { t with i3c := t.i3c.set h { x with outbox := x.outbox ++ [m] } }).ibi h 1
  | .pcie => d.emit (.bmc h m)
  | .mailbox => d.mailboxAnswer h (m.drop 3)

/-- Whether a half's SC serves requests: an image runs, on a running reference clock. -/
def Dev.scServes (d : Dev) (h : Half) : Bool := (d.top.sc.get h).st == .booted && d.top.refclkOk

/-- Whether a path reaches the endpoint: I3C by its dynamic address, PCIe by the port's link. -/
def Dev.pathUp (d : Dev) (h : Half) (path : MgmtPath) : Bool :=
  match path with
  | .i3c => (d.top.i3c.get h).addr.isSome
  | .pcie => (d.host.ports.get h).cfgReady && (d.host.ports.get h).speed != 0
  | .mailbox => true

/-- Whether a path's endpoint takes messages other than MCTP control: it has an endpoint ID (R510). -/
def Dev.endpointReady (d : Dev) (h : Half) (path : MgmtPath) : Bool :=
  match path with
  | .i3c => (d.top.i3c.get h).eid.isSome
  | .pcie => (d.top.i3c.get h).pcieEid.isSome
  | .mailbox => (d.top.sc.get h).mailBusy

/-- The role a request acts in (R521); none when it names no session of this SC. -/
def Dev.roleOf (d : Dev) (r : Request) : Option Role :=
  match r.path with
  | .mailbox => some .operator
  | _ =>
    if r.session = 0 then some .anyone
    else (d.top.sessions.find? fun s => s.id = r.session ∧ s.half = r.half ∧ s.use = .mgmt).map (·.role)

/-- Roles include those below them. -/
def Role.allows : Role → Role → Bool
  | .anyone, _ => true
  | .operator, .anyone => false
  | .operator, _ => true
  | .officer, .officer => true
  | .officer, _ => false

/-- Longest body of a response: 16 KiB messages, 4 KiB in the mailbox. -/
def bodyLimit (path : MgmtPath) : Nat :=
  match path with
  | .mailbox => 4096 - 5
  | _ => 16384 - 8

/-- Serves one management request: `act` answers the new state, COMPLETION and payload. A request over the mailbox takes its
message from the buffer. -/
def Wk.mgmt (w : Wk) (r : Request) (code : Nat) (least : Role) (payload : List Byte)
    (act : Wk → List Byte → Wk × Nat × List Byte) : Wk :=
  let w := w.at_ r.now
  let d := w.dev
  let box : Bool := r.path == .mailbox
  let msg := if box then d.mailbox r.half ((d.top.sc.get r.half).mailLen + 1) else []
  let payload := if box then msg.drop 5 else payload
  let tag := if box then fld msg 2 1 else r.tag
  let quiet : Bool := d.top.lifecycle == .decommissioned && !(code == 1 || code == 2 || code == 3)
  if ¬ d.scServes r.half ∨ ¬ d.pathUp r.half r.path ∨ ¬ d.endpointReady r.half r.path ∨ 16384 < payload.length + 8
      ∨ (box = true ∧ fld msg 0 1 ≠ code) ∨ quiet = true then w
  else
    match d.roleOf r with
    | none => w
    | some role =>
      if ¬ least.allows role then w.upd (·.sendMctp r.half r.path (mgmtResponse code tag ccNotPermitted []))
      else
        let (w, cc, body) := act w payload
        if (w.dev.top.sc.get r.half).st ≠ .booted then w
        else w.upd (·.sendMctp r.half r.path (mgmtResponse code tag cc body))

/-- Whether device-wide requests can be forwarded to a lead half's SC (R514). -/
def Dev.leadServes (d : Dev) : Bool :=
  match d.leadOf with
  | some h => d.scServes h
  | none => false

/-- A device-wide request: served by the lead half's SC, NOT_READY while no half leads (DESIGN CHOICE). -/
def deviceWide (act : Wk → List Byte → Wk × Nat × List Byte) (w : Wk) (p : List Byte) : Wk × Nat × List Byte :=
  if w.dev.leadServes then act w p else (w, ccNotReady, [])

/-- GET_IDENTITY (R512): DEVICE_ID, TOP_ID, the half, the unique ID, the lifecycle state and the approved-mode indicator. -/
def execGetIdentity (req : Request) (s : State) : Host.Outcome State Fault Refusal :=
  finish s <| s.start.mgmt req 0x01 .anyone [] fun w _ =>
    let d := w.dev
    (w, ccSuccess, toBytes 4 (d.rn req.half Reg.FAB_DEVICE_ID) ++ toBytes 4 d.topId ++ toBytes 1 req.half.code
      ++ toBytes 16 Config.uniqueId ++ toBytes 1 d.top.lifecycle.code ++ toBytes 1 (b2n d.top.approved))

/-- TELEMETRY_READ (R516): the payload names up to 32 item codes, a byte each. The answer carries the time of the sample
and, for each code, the code, a 16-bit length and the value. -/
def execTelemetryRead (req : Request) (payload : List Byte) (s : State) : Host.Outcome State Fault Refusal :=
  finish s <| s.start.mgmt req 0x02 .anyone payload fun w p =>
    if p.length > 32 then (w, ccInvalid, [])
    else
      match w.dev.top.telemetry with
      | none => (w, ccNotReady, [])
      | some t =>
        (w, ccSuccess, toBytes 8 t.time ++ p.flatMap fun c =>
          let v := (aget t.items c.toNat).getD []
          [c] ++ toBytes 2 v.length ++ v)

/-- EVENT_LOG_READ (R544): byte 0 of the payload names the log, 0 the events and 1 the fatal log, and 4 bytes the sequence to
start from. The answer carries the sequence of its first record and the records. -/
def execEventLogRead (req : Request) (payload : List Byte) (s : State) : Host.Outcome State Fault Refusal :=
  finish s <| s.start.mgmt req 0x03 .operator payload fun w p =>
    let log := fld p 0 1
    if p.length ≠ 5 ∨ log > 1 then (w, ccInvalid, [])
    else
      let sc := w.dev.top.sc.get req.half
      let f := w.dev.top.flash
      let (base, recs) := if log = 0 then (sc.logBase, sc.log) else (f.fatalBase, f.fatalLog)
      let first := max base (fld p 1 4)
      let fit := (bodyLimit req.path - 4) / 64
      (w, ccSuccess, toBytes 4 first ++ ((recs.drop (first - base)).take fit).flatten)

/-- POWER_CEILING (R517): 16 bits of W, 600 to the design power. -/
def execPowerCeiling (req : Request) (payload : List Byte) (s : State) : Host.Outcome State Fault Refusal :=
  finish s <| s.start.mgmt req 0x04 .officer payload fun w p =>
    let x := fld p 0 2
    if p.length ≠ 2 ∨ x < 600 ∨ w.dev.top.designPower < x then (w, ccInvalid, [])
    else (w.upd (·.onTop fun t => { t with ceiling := x }), ccSuccess, [])

/-- LEAD_STATUS (R460, R512): TOP_LEAD_STATUS and HEALTH. -/
def execLeadStatus (req : Request) (s : State) : Host.Outcome State Fault Refusal :=
  finish s <| s.start.mgmt req 0x07 .officer [] fun w _ =>
    (w, ccSuccess, toBytes 4 (w.dev.leadStatus req.half) ++ toBytes 1 (w.dev.top.lead.get req.half).health)

/-- MAINT_STOP (R507): both SCs fence every doorbell page. -/
def execMaintStop (req : Request) (s : State) : Host.Outcome State Fault Refusal :=
  finish s <| s.start.mgmt req 0x08 .officer [] <| deviceWide fun w _ =>
    let w := w.upd (·.fencePages fun _ => true)
    (w.upd (·.onTop fun t => { t with maintStop := true }), ccSuccess, [])

/-! ### Staging (R530, R532) -/

/-- The slots of a kind of object. -/
def Flash.slots (f : Flash) (image : Bool) : Both FlashSlot := if image then f.images else f.records

/-- Replaces one slot, and writes the directory copy that is due (R530). -/
def Flash.setSlot (f : Flash) (image : Bool) (k : Half) (x : FlashSlot) : Flash :=
  let f := f.dirWrite
  if image then { f with images := f.images.set k x } else { f with records := f.records.set k x }

/-- The slot STAGE_BEGIN takes: a STAGED one, else one neither ACTIVE nor PREVIOUS, else the PREVIOUS one. -/
def stageSlot (b : Both FlashSlot) : Option Half :=
  let find (p : FlashSlot → Bool) : Option Half := if p b.w then some .west else if p b.e then some .east else none
  match find fun s => s.st = .staged with
  | some k => some k
  | none =>
    match find fun s => s.st ≠ .active ∧ s.st ≠ .previous with
    | some k => some k
    | none => find fun s => s.st = .previous

/-- STAGE_BEGIN: byte 0 names the object, 0 an image and 1 a record, and 4 bytes its length. -/
def execStageBegin (req : Request) (payload : List Byte) (s : State) : Host.Outcome State Fault Refusal :=
  finish s <| s.start.mgmt req 0x09 .officer payload <| deviceWide fun w p =>
    let kind := fld p 0 1
    let len := fld p 1 4
    let image := kind = 0
    let f := w.dev.top.flash
    if p.length ≠ 5 ∨ kind > 1 ∨ len = 0 ∨ (if image then 2 ^ 23 else 65536) < len then (w, ccInvalid, [])
    else if w.dev.top.staging.isSome then (w, ccBusy, [])
    else
      match stageSlot (f.slots image) with
      | none => (w, ccBusy, [])
      | some k =>
        (w.upd (·.onTop fun t =>
          { t with staging := some ⟨image, k, len, 0⟩, flash := t.flash.setSlot image k { FlashSlot.blank .writing with len := len } }),
         ccSuccess, [])

/-- STAGE_DATA: 4 bytes of offset, then up to 4,096 bytes. -/
def execStageData (req : Request) (payload : List Byte) (s : State) : Host.Outcome State Fault Refusal :=
  finish s <| s.start.mgmt req 0x0A .officer payload <| deviceWide fun w p =>
    match w.dev.top.staging with
    | none => (w, ccInvalid, [])
    | some x =>
      let bs := p.drop 4
      if p.length < 4 ∨ 4096 < bs.length ∨ fld p 0 4 ≠ x.got ∨ x.len < x.got + bs.length then (w, ccInvalid, [])
      else
        (w.upd (·.onTop fun t =>
          let sl := (t.flash.slots x.image).get x.slot
          let sl := { sl with body := sl.body ++ bs }
          { t with staging := some { x with got := x.got + bs.length },
                   flash := if x.image then { t.flash with images := t.flash.images.set x.slot sl }
                            else { t.flash with records := t.flash.records.set x.slot sl } }), ccSuccess, [])

/-- STAGE_COMMIT: `ok` tells whether the digest and both signatures verify, `info` what the contents say. -/
def execStageCommit (req : Request) (ok : Bool) (info : StageInfo) (s : State) : Host.Outcome State Fault Refusal :=
  finish s <| s.start.mgmt req 0x0B .officer [] <| deviceWide fun w _ =>
    match w.dev.top.staging with
    | none => (w, ccInvalid, [])
    | some x =>
      if x.got ≠ x.len then (w, ccInvalid, [])
      else
        let back : Bool := x.image && decide (info.svn < w.dev.top.minSvn)
        let good := ok && !back
        let w := w.upd (·.onTop fun t =>
          let sl := (t.flash.slots x.image).get x.slot
          let sl := { sl with st := if good then .staged else .invalid, digest := info.digest, version := info.version,
                              svn := info.svn, revision := info.revision, raise := info.raise, tried := false,
                              devId := info.devId, memClk := info.memClk, portCfg := info.portCfg }
          { t with staging := none, flash := t.flash.setSlot x.image x.slot sl })
        (w, if !ok then ccVerifyFailed else if back then ccRollback else ccSuccess, [])

/-- State code of a slot, in the order R530 lists them. -/
def SlotSt.code : SlotSt → Nat
  | .empty => 0
  | .writing => 1
  | .staged => 2
  | .active => 3
  | .previous => 4
  | .invalid => 5

/-- A slot's entry in the directory that STAGE_STATUS returns: state, digest, version, SVN, Solbite revision. -/
def FlashSlot.entry (x : FlashSlot) : List Byte :=
  toBytes 1 x.st.code ++ toBytes 48 x.digest ++ toBytes 4 x.version ++ toBytes 4 x.svn ++ toBytes 2 x.revision

/-- STAGE_STATUS: the directory, images A and B, then records A and B. -/
def execStageStatus (req : Request) (s : State) : Host.Outcome State Fault Refusal :=
  finish s <| s.start.mgmt req 0x0C .officer [] <| deviceWide fun w _ =>
    let f := w.dev.top.flash
    (w, ccSuccess, f.images.w.entry ++ f.images.e.entry ++ f.records.w.entry ++ f.records.e.entry)

/-! ### Lifecycle (R526 to R529) -/

/-- LIFECYCLE_CHALLENGE: a fresh 256-bit nonce, which the DRBG draws (a free value), replaces the outstanding one. -/
def execLifecycleChallenge (req : Request) (s : State) : Host.Outcome State Fault Refusal :=
  finish s <| s.start.mgmt req 0x0D .anyone [] fun w _ =>
    let f (k : Nat) : Nat := (Config.freeWord (w.dev.free + k)).toNat
    let n := f 0 + f 1 * 2 ^ 64 + f 2 * 2 ^ 128 + f 3 * 2 ^ 192
    (w.upd fun d => { d with free := d.free + 4, top := { d.top with nonce := some (n, d.time) } }, ccSuccess, toBytes 32 n)

/-- Whether a token kind is permitted from a state (R526). -/
def kindAllowed (kind : Nat) (l : Lifecycle) : Bool :=
  match kind, l with
  | 1, .manufacture => true
  | 2, .provisioned => true
  | 3, .deployed => true
  | 4, .provisioned => true
  | 4, .deployed => true
  | _, _ => false

/-- Steps 1 and 2 of R529: every job is removed, and every key and session is zeroised. -/
def Wk.zeroise (w : Wk) : Wk :=
  let w := ((w.dev.host.jobs.map (·.1)).foldl (fun w j => w.forceRemove j) w).mirBufs
  let w := w.upd fun d => d.onTop fun t => { t with sessions := [] }
  let w := (List.range 64).foldl
    (fun w p =>
      let x := w.dev.fport p
      if x.keyed then
        let w := w.upd (·.setPort p { x with keyed := false })
        if x.st = .up then w.portTo p .securing else w
      else w) w
  let stop (d : Dev) (h : Half) : Dev := d.onPort h fun p => if p.ide then { p with ide := false, ideStopped := true } else p
  w.upd fun d => stop (stop d .west) .east

/-- The effect of an accepted token (R526, R529). The SC fences every doorbell page at a lifecycle change (R19). -/
def Wk.applyToken (w : Wk) (kind owner : Nat) : Wk :=
  let w := w.upd (·.fencePages fun _ => true)
  if kind = 1 then w.upd (·.onTop fun t => { t with lifecycle := .provisioned, ownerHash := some owner })
  else if kind = 2 then w.upd (·.onTop fun t => { t with lifecycle := .deployed })
  else if kind = 3 then w.zeroise.upd (·.onTop fun t => { t with lifecycle := .debugUnlocked, approved := false })
  else
    w.zeroise.upd (·.onTop fun t =>
      { t with lifecycle := .decommissioned, identityKey := false, ready := false, stage := .stopped, stopped := true })

/-- LIFECYCLE_TOKEN: the payload is the token of R527; `ecdsaOk` and `mldsaOk` tell whether its signatures verify. -/
def execLifecycleToken (req : Request) (payload : List Byte) (ecdsaOk mldsaOk : Bool) (s : State) :
    Host.Outcome State Fault Refusal :=
  finish s <| s.start.mgmt req 0x0E .anyone payload <| deviceWide fun w p =>
    let t := w.dev.top
    let kind := fld p 3 1
    let keys := Config.sha384 ((p.drop 0x68).take (97 + 2592))
    let keyOk : Bool := if kind = 1 then keys == Config.romHash else t.ownerHash == some keys
    let fresh : Bool := match t.nonce with
      | some (n, at_) => n == fld p 0x18 32 && decide (w.dev.time ≤ at_ + 60000000000)
      | none => false
    let w := w.upd (·.onTop fun t => { t with nonce := none })
    if p.length ≠ 7516 then (w, ccInvalid, [])
    else if ¬ kindAllowed kind t.lifecycle then (w, ccNotPermitted, [])
    else if fld p 8 16 = Config.uniqueId % 2 ^ 128 ∧ fresh = true ∧ keyOk = true ∧ ecdsaOk = true ∧ mldsaOk = true then
      (w.applyToken kind (fld p 0x38 48), ccSuccess, [])
    else (w, ccVerifyFailed, [])

/-- ZEROISE (R529). -/
def execZeroise (req : Request) (s : State) : Host.Outcome State Fault Refusal :=
  finish s <| s.start.mgmt req 0x0F .officer [] <| deviceWide fun w _ => (w.zeroise, ccSuccess, [])

/-- CLEAR_RETIRED: only after MAINT_STOP (R537). -/
def execClearRetired (req : Request) (s : State) : Host.Outcome State Fault Refusal :=
  finish s <| s.start.mgmt req 0x10 .officer [] <| deviceWide fun w _ =>
    if w.dev.top.maintStop then (w.upd (·.onTop fun t => { t with flash := { t.flash with retired := [] } }), ccSuccess, [])
    else (w, ccNotReady, [])

/-- SELFTEST_RUN: the on-demand tests of R524; an SC in its error state answers nothing. -/
def execSelftestRun (req : Request) (pass : Bool) (s : State) : Host.Outcome State Fault Refusal :=
  finish s <| s.start.mgmt req 0x11 .operator [] fun w _ => (if pass then w else w.scFails req.half, ccSuccess, [])

/-! ### MCTP control (R510; the answers are laid out as MCTP 1.3 does, PRESUMED) -/

/-- Answers an MCTP control request. -/
def Dev.control (d : Dev) (h : Half) (path : MgmtPath) (code cc : Nat) (body : List Byte) : Dev :=
  d.sendMctp h path ([0, 0] ++ toBytes 1 code ++ toBytes 1 cc ++ body)

/-- Runs a control request that reaches an endpoint of a half. The mailbox carries no MCTP. -/
def onControl (half : Half) (path : MgmtPath) (now : Nat) (s : State) (f : Dev → Dev) : Host.Outcome State Fault Refusal :=
  onDev s fun d =>
    let d := d.at_ now
    if path = .mailbox ∨ ¬ d.scServes half ∨ ¬ d.pathUp half path ∨ d.top.lifecycle = .decommissioned then d else f d

/-- The endpoint ID of a path. -/
def Dev.eidOf (d : Dev) (h : Half) (path : MgmtPath) : Nat :=
  let x := d.top.i3c.get h
  (if path = .i3c then x.eid else x.pcieEid).getD 0

/-- SET_ENDPOINT_ID: the null and broadcast IDs are refused (MCTP, PRESUMED). -/
def execSetEndpointId (half : Half) (path : MgmtPath) (eid now : Nat) (s : State) : Host.Outcome State Fault Refusal :=
  onControl half path now s fun d =>
    if eid = 0 ∨ 255 ≤ eid then d.control half path 1 2 []
    else
      (d.onTop fun t =>
        let x := t.i3c.get half
        { t with i3c := t.i3c.set half (if path = .i3c then { x with eid := some eid } else { x with pcieEid := some eid }) }).control
        half path 1 0 (toBytes 1 0 ++ toBytes 1 eid ++ toBytes 1 0)

/-- GET_ENDPOINT_ID. -/
def execGetEndpointId (half : Half) (path : MgmtPath) (now : Nat) (s : State) : Host.Outcome State Fault Refusal :=
  onControl half path now s fun d => d.control half path 2 0 (toBytes 1 (d.eidOf half path) ++ [0, 0])

/-- GET_ENDPOINT_UUID. -/
def execGetEndpointUuid (half : Half) (path : MgmtPath) (now : Nat) (s : State) : Host.Outcome State Fault Refusal :=
  onControl half path now s fun d => d.control half path 3 0 (toBytes 16 (Config.uuid half (path == .pcie)))

/-- GET_MCTP_VERSION_SUPPORT: one version. -/
def execGetMctpVersionSupport (half : Half) (path : MgmtPath) (now : Nat) (s : State) : Host.Outcome State Fault Refusal :=
  onControl half path now s fun d => d.control half path 4 0 ([1] ++ toBytes 4 Config.mctpVersion.toNat)

/-- GET_MESSAGE_TYPE_SUPPORT: control, SPDM, secured messages and vendor-defined PCI. -/
def execGetMessageTypeSupport (half : Half) (path : MgmtPath) (now : Nat) (s : State) : Host.Outcome State Fault Refusal :=
  onControl half path now s fun d => d.control half path 5 0 [4, 0x00, 0x05, 0x06, 0x7E]

/-! ### The mailbox (R515) -/

/-- SEC_MAILBOX_CTL.GO: the SC takes the message; its answer is the command that the message spells, by the path mailbox. A
message too short to hold a header is INVALID, an unknown command UNSUPPORTED. -/
def Dev.mailboxGo (d : Dev) (h : Half) (v : Word32) : Dev :=
  let n := bits v.toNat 0 12 + 1
  if ¬ bit v.toNat 31 ∨ (d.top.sc.get h).mailBusy ∨ ¬ d.scServes h then d
  else
    let m := d.mailbox h n
    let d := d.onSc h fun s => { s with mailBusy := true, mailLen := n - 1 }
    if n < 5 then d.mailboxAnswer h ((mgmtResponse (fld m 0 1) (fld m 2 1) ccInvalid []).drop 3)
    else if fld m 0 1 = 0 ∨ 0x11 < fld m 0 1 then d.mailboxAnswer h ((mgmtResponse (fld m 0 1) (fld m 2 1) ccUnsupported []).drop 3)
    else if fld m 0 1 = 5 ∨ fld m 0 1 = 6 then d.mailboxAnswer h ((mgmtResponse (fld m 0 1) (fld m 2 1) ccNotPermitted []).drop 3)
    else d

/-! ### SPDM sessions (R355, R521 to R525) -/

/-- Adds a session. -/
def Dev.addSession (d : Dev) (h : Half) (use : SessionUse) (role : Role) : Dev :=
  d.onTop fun t =>
    { t with sessions := t.sessions.filter (fun s => use = .mgmt ∨ s.half ≠ h ∨ s.use ≠ use) ++ [⟨t.nextSession, h, use, role, 0⟩],
             nextSession := t.nextSession + 1 }

/-- KEY_EXCHANGE: `ok` tells whether authentication and the hybrid exchange succeed, `officer` whether the requester's chain
is rooted in the owner's key. A link session takes its port UP, an IDE session keys the host link. -/
def Wk.keyExchange (w : Wk) (h : Half) (use : SessionUse) (ok officer : Bool) : Wk :=
  let d := w.dev
  if !ok ∨ ¬ d.scServes h ∨ d.top.lifecycle = .decommissioned then w
  else
    match use with
    | .mgmt =>
      if 4 ≤ d.top.sessions.countP fun s => s.half = h ∧ s.use = .mgmt then w
      else w.upd (·.addSession h .mgmt (if officer && d.top.ownerHash.isSome then .officer else .operator))
    | .link p =>
      let x := d.fport p
      if portHalf p ≠ h ∨ x.st ≠ .securing then w
      else
        (w.upd fun d => (d.addSession h (.link p) .operator).setPort p x.keyOn).portTo p .up
    | .ide =>
      if (d.host.ports.get h).speed = 0 then w
      else w.upd fun d => (d.addSession h .ide .operator).onPort h fun p => { p with ide := true, ideStopped := false }

/-- KEY_EXCHANGE. -/
def execKeyExchange (half : Half) (use : SessionUse) (ok officer : Bool) (now : Nat) (s : State) :
    Host.Outcome State Fault Refusal :=
  finish s ((s.start.at_ now).keyExchange half use ok officer)

/-- KEY_UPDATE: the session goes on under new keys, at a tag-group boundary on a link (R355). -/
def execKeyUpdate (session now : Nat) (s : State) : Host.Outcome State Fault Refusal :=
  onDev s fun d =>
    let d := d.at_ now
    d.onTop fun t => { t with sessions := t.sessions.map fun x => if x.id = session then { x with updates := x.updates + 1 } else x }

/-- A session ends: its secrets and the keys it installed are zeroised (R525). -/
def Wk.sessionEnd (w : Wk) (id : Nat) : Wk :=
  match w.dev.top.sessions.find? fun s => s.id = id with
  | none => w
  | some x =>
    let w := w.upd (·.onTop fun t => { t with sessions := t.sessions.filter fun s => s.id ≠ id })
    match x.use with
    | .mgmt => w
    | .link p =>
      let y := w.dev.fport p
      let w := w.upd (·.setPort p { y with keyed := false })
      if y.st = .up then w.portTo p .securing else w
    | .ide => w.upd (·.onPort x.half fun p => if p.ide then { p with ide := false, ideStopped := true } else p)

/-- SPDM_SESSION_END. -/
def execSpdmSessionEnd (session now : Nat) (s : State) : Host.Outcome State Fault Refusal :=
  finish s ((s.start.at_ now).sessionEnd session)

/-! ### I3C common commands (R509) -/

/-- Changes one half's I3C target, which works from PWR_GOOD with RESET_N deasserted. -/
def onI3c (half : Half) (s : State) (f : I3c → I3c) : Host.Outcome State Fault Refusal :=
  onDev s fun d => if d.top.resetN then d.onTop fun t => { t with i3c := t.i3c.set half (f (t.i3c.get half)) } else d

/-- Answers a directed read of an I3C target that has its address. -/
def i3cRead (half : Half) (s : State) (f : I3c → List Byte) : Host.Outcome State Fault Refusal :=
  onDev s fun d =>
    let x := d.top.i3c.get half
    if d.top.resetN ∧ x.addr.isSome then { d with resp := .bytes (f x) } else { d with resp := .none }

/-- Static address of a half's target. -/
def i3cStatic (h : Half) : Nat := 0x30 + h.code

/-- ENTDAA: a target without a dynamic address takes the one assigned. -/
def execEntdaa (half : Half) (addr : Nat) (s : State) : Host.Outcome State Fault Refusal :=
  onI3c half s fun x => if x.addr.isNone then { x with addr := some (addr % 128) } else x
/-- SETDASA. -/
def execSetdasa (half : Half) (static addr : Nat) (s : State) : Host.Outcome State Fault Refusal :=
  onI3c half s fun x => if static = i3cStatic half ∧ x.addr.isNone then { x with addr := some (addr % 128) } else x
/-- RSTDAA. -/
def execRstdaa (half : Half) (s : State) : Host.Outcome State Fault Refusal := onI3c half s fun x => { x with addr := none }
/-- ENEC: bit 0 of the mask is the target's in-band interrupts (MIPI). -/
def execEnec (half : Half) (mask : Nat) (s : State) : Host.Outcome State Fault Refusal :=
  onI3c half s fun x => if bit mask 0 then { x with events := true } else x
/-- DISEC. -/
def execDisec (half : Half) (mask : Nat) (s : State) : Host.Outcome State Fault Refusal :=
  onI3c half s fun x => if bit mask 0 then { x with events := false } else x
/-- GETPID: the 48-bit Provisioned ID, most significant byte first. -/
def execGetpid (half : Half) (s : State) : Host.Outcome State Fault Refusal :=
  i3cRead half s fun x => (toBytes 6 (Config.mipiId.toNat * 2 ^ 33 + 2 ^ 32 + x.rand.toNat)).reverse
/-- GETBCR. -/
def execGetbcr (half : Half) (s : State) : Host.Outcome State Fault Refusal := i3cRead half s fun _ => [Config.bcr]
/-- GETDCR. -/
def execGetdcr (half : Half) (s : State) : Host.Outcome State Fault Refusal := i3cRead half s fun _ => [Config.dcr]
/-- GETSTATUS: how many in-band interrupts wait, in [3:0] of the second byte (MIPI, PRESUMED). -/
def execGetstatus (half : Half) (s : State) : Host.Outcome State Fault Refusal :=
  i3cRead half s fun x => [0] ++ toBytes 1 (min x.ibi.length 15)
/-- SETMRL: lengths up to 256 B are supported. -/
def execSetmrl (half : Half) (len : Nat) (s : State) : Host.Outcome State Fault Refusal :=
  onI3c half s fun x => { x with mrl := min len 256 }
/-- GETMRL, most significant byte first. -/
def execGetmrl (half : Half) (s : State) : Host.Outcome State Fault Refusal := i3cRead half s fun x => (toBytes 2 x.mrl).reverse
/-- SETMWL. -/
def execSetmwl (half : Half) (len : Nat) (s : State) : Host.Outcome State Fault Refusal :=
  onI3c half s fun x => { x with mwl := min len 256 }
/-- GETMWL. -/
def execGetmwl (half : Half) (s : State) : Host.Outcome State Fault Refusal := i3cRead half s fun x => (toBytes 2 x.mwl).reverse
/-- RSTACT: only the I3C target logic is reset; the messages that wait, and the endpoint IDs, are the SC's. -/
def execRstact (half : Half) (s : State) : Host.Outcome State Fault Refusal :=
  onI3c half s fun x => { x with addr := none, events := true, mrl := 256, mwl := 256, ibi := [] }

/-! ### JTAG (R542) -/

/-- The instruction that acts: EXTEST, CLAMP and HIGHZ only while RESET_N is asserted, private ones only while Loupe is
open, and BYPASS in place of any other. -/
def Dev.jtagActs (d : Dev) : Nat :=
  let ir := d.top.jtag.ir
  if ir = 1 ∨ ir = 2 then ir
  else if ir = 0 ∨ ir = 3 ∨ ir = 4 then (if d.top.resetN then 0xFF else ir)
  else if 0x80 ≤ ir ∧ ir ≤ 0xFE ∧ ¬ d.loupeLocked then ir
  else 0xFF

/-- Whether outputs are driven from the boundary register. -/
def Dev.boundaryDrives (d : Dev) : Bool := d.jtagActs == 0 || d.jtagActs == 3
/-- Whether outputs float. -/
def Dev.outputsFloat (d : Dev) : Bool := d.jtagActs == 4

/-- Loads the instruction register. -/
def Dev.loadIr (d : Dev) (code : Nat) : Dev := d.onTop fun t => { t with jtag := { t.jtag with ir := code % 256 } }

/-- The identification register. -/
def Dev.idcode (d : Dev) : Nat := d.top.stepping % 16 * 2 ^ 28 + 0xC040 * 2 ^ 12 + Config.jedecId.toNat * 2 + 1

/-- BYPASS. -/
def execBypass (s : State) : Host.Outcome State Fault Refusal := onDev s fun d => d.loadIr 0xFF
/-- IDCODE selects the identification register, which the shift returns. -/
def execIdcode (s : State) : Host.Outcome State Fault Refusal := onDev s fun d => { d.loadIr 0x01 with resp := .word (w32 d.idcode) }
/-- SAMPLE/PRELOAD loads the boundary register with the cells shifted in or sampled. -/
def execSamplePreload (cells : List Bool) (s : State) : Host.Outcome State Fault Refusal :=
  onDev s fun d => (d.loadIr 0x02).onTop fun t => { t with jtag := { t.jtag with boundary := cells } }
/-- EXTEST. -/
def execExtest (s : State) : Host.Outcome State Fault Refusal := onDev s fun d => d.loadIr 0x00
/-- CLAMP. -/
def execClamp (s : State) : Host.Outcome State Fault Refusal := onDev s fun d => d.loadIr 0x03
/-- HIGHZ. -/
def execHighz (s : State) : Host.Outcome State Fault Refusal := onDev s fun d => d.loadIr 0x04
/-- A private instruction; what one does is not specified, and none has an effect in this model. -/
def execJtagPrivate (code : Nat) (s : State) : Host.Outcome State Fault Refusal :=
  onDev s fun d => if 0x80 ≤ code ∧ code ≤ 0xFE then d.loadIr code else d
/-- TRST_N resets the test logic: IDCODE is selected (IEEE 1149.1). -/
def execTrstN (s : State) : Host.Outcome State Fault Refusal := onDev s fun d => d.loadIr 0x01

end Sys2Proof.Machine
end

