-- ==== Sys2Proof/Machine/Piccolo.lean ====
section
/-! DEFINITION. Piccolo, the periodic self-test of the facets: slices, rotations, quarantine and retirement (R534 to
R539). -/

namespace Sys2Proof.Machine

open Sys2Proof

/-- Changes Piccolo's state of a facet. -/
def Dev.onPic (d : Dev) (f : Nat) (g : Pic → Pic) : Dev := d.setPic f (g (d.picOf f))

/-- Whether a READY node can use a facet under R321. -/
def Dev.wantedByReady (d : Dev) (f : Nat) : Bool :=
  d.tgu.insts.any fun p => p.2.nodes.any fun n => n.st = .ready && n.opcode / 256 == 1 && (d.placement p.2 n none).contains f

/-- Whether a FRAME_TICK is expected within 60 µs: the last tick plus the interval between the last two. -/
def Dev.tickNear (d : Dev) : Bool :=
  match d.tgu.lastTick with
  | none => false
  | some t => d.tgu.tickGap != 0 && d.time ≤ t + d.tgu.tickGap && decide (t + d.tgu.tickGap < d.time + 60000)

/-- A slice starts on a facet predicted idle for 60 µs (R535). -/
def Dev.sliceStart (d : Dev) (f : Nat) : Dev :=
  let p := d.picOf f
  if d.top.ready ∧ ¬ d.top.stopped ∧ bit (d.rn (facetHalf f) Reg.DBG_SELFTEST_CFG) 31 ∧ d.facetIdle f ∧ p.idleAt + 20000 ≤ d.time
      ∧ p.next < 64 ∧ ¬ d.wantedByReady f ∧ ¬ d.tickNear then
    d.onPic f fun p => { p with slice := some (p.next, false), sliceAt := d.time }
  else d

/-- Counts in DBG_SELFTEST_DELAY_NS the waits of READY nodes that could use only the facet of a slice that ends (R535). -/
def Dev.sliceWaits (d : Dev) (f : Nat) : Dev :=
  let p := d.picOf f
  let free := d.onPic f fun p => { p with slice := none }
  let ns := sumBy d.tgu.insts fun q => sumBy q.2.nodes fun n =>
    if n.st = .ready ∧ n.opcode / 256 = 1 ∧ free.placement q.2 n none = [f] then d.time - max n.readyAt p.sliceAt else 0
  d.count (facetHalf f) Reg.DBG_SELFTEST_DELAY_NS_LO ns

/-- A slice ends with its verdict (R534, R536). -/
def Wk.sliceEnd (w : Wk) (f : Nat) (pass : Bool) : Wk :=
  let h := facetHalf f
  let p := w.dev.picOf f
  match p.slice with
  | none => w
  | some (k, forced) =>
    if w.dev.time < p.sliceAt + 40000 then w
    else
      let w := w.upd fun d => (if forced then d else d.sliceWaits f).count h Reg.DBG_SELFTEST_SLICES_LO 1
      let w := if pass then w else w.upd (·.count h Reg.DBG_SELFTEST_FAILS_LO 1)
      let now := w.dev.time
      if forced then
        if !pass then w.retire f
        else if p.redo.isSome then w.upd (·.onPic f fun p => { p with slice := none, redo := none, quar := false })
        else if k + 1 < 64 then w.upd (·.onPic f fun p => { p with slice := some (k + 1, true), sliceAt := now})
        else w.upd (·.onPic f fun p => { p with slice := none, quar := false, rotated := true})
      else
        w.upd (·.onPic f fun p =>
          { p with slice := none, next := k + 1, rotated := p.rotated || (pass && k + 1 == 64), quar := p.quar || !pass,
                   redo := if pass then p.redo else some k })

/-- An idle quarantined facet starts its forced run: all 64 slices, or only the failed one (R536). -/
def Dev.forcedRotation (d : Dev) (f : Nat) : Dev :=
  let p := d.picOf f
  if d.top.ready ∧ ¬ d.top.stopped ∧ d.facetOn f ∧ p.quar ∧ p.slice.isNone ∧ (d.run f).isNone then
    (d.onPic f fun p => { p with slice := some (p.redo.getD 0, true), sliceAt := d.time}).count (facetHalf f)
      Reg.DBG_SELFTEST_FORCED_LO 1
  else d

/-- A self-test period of a half ends: facets without a rotation count as overdue, and OVERDUE such periods in a row
quarantine a facet (R536). A rotation starts anew. -/
def Dev.piccoloPeriod (d : Dev) (h : Half) : Dev :=
  let cfg := d.rn h Reg.DBG_SELFTEST_CFG
  if ¬ d.top.ready ∨ ¬ bit cfg 31 ∨ d.time < d.picAt.get h + bits cfg 0 16 * 1000000000 then d
  else
    let d := { d with picAt := d.picAt.set h d.time }
    ((facetsOf h).filter d.facetOn).foldl
      (fun d f =>
        let p := d.picOf f
        let n := if p.rotated then 0 else p.overdue + 1
        let d := if p.rotated then d else d.count h Reg.DBG_SELFTEST_OVERDUE_LO 1
        d.onPic f fun p =>
          { p with rotated := false, next := 0, overdue := n, quar := p.quar || decide (bits cfg 16 4 ≤ n) })
      d

/-- The SC appends a retired facet to the retirement list in flash (step 4 of R537). -/
def Dev.retireList (d : Dev) (f : Nat) : Dev :=
  if (d.picOf f).retired ∧ ¬ d.top.flash.retired.contains f then
    d.onTop fun t => { t with flash := { t.flash with retired := t.flash.retired ++ [f] } }
  else d

/-- SLICE_START. -/
def execSliceStart (facet now : Nat) (s : State) : Host.Outcome State Fault Refusal := onDev s fun d => (d.at_ now).sliceStart facet
/-- SLICE_END. -/
def execSliceEnd (facet : Nat) (pass : Bool) (now : Nat) (s : State) : Host.Outcome State Fault Refusal :=
  finish s ((s.start.at_ now).sliceEnd facet pass)
/-- FORCED_ROTATION. -/
def execForcedRotation (facet now : Nat) (s : State) : Host.Outcome State Fault Refusal := onDev s fun d => (d.at_ now).forcedRotation facet
/-- PICCOLO_PERIOD. -/
def execPiccoloPeriod (half : Half) (now : Nat) (s : State) : Host.Outcome State Fault Refusal :=
  onDev s fun d => (d.at_ now).piccoloPeriod half
/-- RETIREMENT_LIST_APPEND. -/
def execRetirementListAppend (facet now : Nat) (s : State) : Host.Outcome State Fault Refusal :=
  onDev s fun d => (d.at_ now).retireList facet

end Sys2Proof.Machine
end

