-- ==== Sys2Proof/Machine/RegWrite.lean ====
section
/-! DEFINITION. Writes and reads of set-up registers (R4 to R9, R547 to R553), the commands that one register write stands
for, the shadow's acknowledgement (R458, R548) and LEAD_REPLY (R461 to R463). -/

namespace Sys2Proof.Machine

open Sys2Proof

/-! ### Effects of single registers -/

/-- A declaration of a training set-up (R220). The set-up that takes its place opens its own windows (R225). -/
def Dev.trainTable (d : Dev) (base : Nat) : Dev :=
  let h := d.leadHalf
  let job := d.rn h Reg.TGU_TRAIN_JOB
  let cfg := d.rn h Reg.TGU_TRAIN_CFG
  let d := d.setReg64 h Reg.TGU_TRAIN_TABLE_LO base
  let result (d : Dev) (r : Nat) : Dev := d.setReg h Reg.TGU_TRAIN_STATUS (w32 r)
  match d.job job with
  | none => result d 3
  | some j =>
    if base % 4096 ≠ 0 ∨ 2 ≤ bits cfg 29 2 then result d 3
    else if d.jobBusy job then result d 2
    else
      let d := d.onTgu fun t => { t with windows := t.windows.filter (fun x => x.1.1 ≠ job), frozen := t.frozen.filter fun k => k.1 ≠ job }
      result (d.setJob job { j with trainOn := bit cfg 31, trainTied := bits cfg 29 2, trainBase := base,
                                    trainCount := bits cfg 0 16 + 1 }) 1

/-- TGU_FACET_RETAIN of a half: entries it has no room for are evicted, least recently used first (R148). -/
def Dev.retainWrite (d : Dev) (h : Half) (v : Nat) : Dev :=
  let d := d.setReg h Reg.TGU_FACET_RETAIN (w32 v)
  let fits (f : Nat) : List Retained :=
    let mine := (d.fac.retained.filter fun r => r.1 = f).map (·.2)
    let byUse := sortBy (fun (a b : Retained) => decide (b.used < a.used)) mine
    (byUse.foldl
      (fun (a : Bool × Nat × List Retained) r =>
        if a.1 && decide (a.2.1 + r.sectors ≤ v) then (true, a.2.1 + r.sectors, a.2.2 ++ [r]) else (false, a.2.1, a.2.2))
      (true, 0, [])).2.2
  { d with fac := { d.fac with retained := d.fac.retained.filter fun r => facetHalf r.1 ≠ h || (fits r.1).contains r.2 } }

/-- TOP_POWER_CAP: WATTS is clamped to 600 up to the ceiling (R520). -/
def Dev.powerCapWrite (d : Dev) (v : Nat) : Dev :=
  d.setReg .west Reg.TOP_POWER_CAP (w32 (b2n (bit v 31) * 2 ^ 31 + min d.top.ceiling (max 600 (bits v 0 16))))

/-! ### One register write -/

/-- A value as a row stores it: fields limited to their range, and bits that are not writable keep the old value. -/
def RegRow.store (row : RegRow) (old v : Nat) : Nat :=
  let v := row.limits.foldl (fun v l => setBits v l.lo l.w (min l.max (max l.min (bits v l.lo l.w)))) v
  ((BitVec.ofNat 32 old &&& ~~~ (BitVec.ofNat 32 row.mask)) ||| (BitVec.ofNat 32 v &&& BitVec.ofNat 32 row.mask)).toNat

/-- A plain register takes a value under its access code and limits. -/
def Dev.plainWrite (d : Dev) (h : Half) (row : RegRow) (off : Nat) (v : Word32) : Dev :=
  d.setReg h off (w32 (row.store (d.rn h off) v.toNat))

/-- Key of the holding register of the pair whose _HI or _LO stands at an offset: of a pair, the _LO. -/
def holdKey (h : Half) (row : RegRow) (off : Nat) : Nat :=
  regKey row h (if row.part = .hi then off - 4 else off)

/-- A pair commits: its _HI has been written (R8, R552, R553). `fn` is the function of the client window, if the register lies
in one. -/
def Wk.pairCommit (w : Wk) (h : Half) (row : RegRow) (off fn lo hi : Nat) : Wk :=
  let loOff := off - 4
  let x := (off - 0x20000) % 0x800
  let loMask := match findRow loOff with | some r => r.mask | none => 0xFFFFFFFF
  let lo' := row.store 0 hi
  let low := { row with mask := loMask, limits := [] }.store 0 lo
  let put (d : Dev) (l u : Nat) : Dev := (d.setReg h loOff (w32 l)).setReg h off (w32 u)
  if row.off = Reg.TGU_TRAIN_TABLE_HI then w.upd (·.trainTable (lo + 2 ^ 32 * hi))
  else if row.off = Reg.BPM_POOL_CFG_HI then w.upd (·.poolCfg h ((off - row.off) / 8) low lo')
  else if row.off = Reg.FAB_ROUTE_ENTRY_HI then w.routeSet lo hi
  else if row.off = Reg.FAB_SETUP_HASH_HI then w.upd (·.setupHashWrite lo hi)
  else if row.off = Reg.HOST_BAR4_BASE_HI then w.upd fun d => put d 0 (hi / 16 * 16)
  else if row.off = Reg.HOST_RING_SQ_BASE_HI ∨ row.off = Reg.HOST_RING_CQ_BASE_HI ∨ row.off = Reg.HOST_RING_HEADWB_HI then
    let st := (w.dev.ring fn (x / 0x40)).st
    if st = .disabled ∨ st = .refused then w.upd fun d => put d low lo' else w
  else if row.off = Reg.HOST_EVT_BASE_HI then (if (w.dev.func fn).evt.on then w else w.upd fun d => put d low lo')
  else w.upd fun d => put d low lo'

/-- Effects of writes to TOP and HOST registers that are not part of a pair. -/
def Wk.writeTopHost (w : Wk) (h : Half) (who : Nat) (row : RegRow) (off fn : Nat) (v : Word32) : Wk :=
  let r := (off - 0x20000) % 0x800 / 0x40
  let n := v.toNat
  if row.off = Reg.TOP_DEVICE_MODE then w.upd (·.onTop fun t => { t with strictReq := bit n 0 })
  else if row.off = Reg.TOP_FATAL_STATUS then
    (if bit n 31 then w.upd (·.onTop fun t => { t with fatal := { t.fatal with valid := false } }) else w)
  else if row.off = Reg.TOP_FACET_CLK then w.facetClkWrite v
  else if row.off = Reg.TOP_POWER_CAP then w.upd (·.powerCapWrite n)
  else if row.off = Reg.TOP_THERM_CFG then w.thermCfgWrite v
  else if row.off = Reg.TOP_JSTART_CTL then w.jstartCtl n
  else if row.off = Reg.HOST_RING_CFG then w.upd (·.ringCfg who fn r v)
  else if row.off = Reg.HOST_RING_JOB then
    (let st := (w.dev.ring fn r).st
     if st = .disabled ∨ st = .refused then w.upd (·.plainWrite h row off v) else w)
  else if row.off = Reg.HOST_EVT_CFG then w.upd (·.evtCfg fn v)
  else if row.off = Reg.HOST_JOB_CTL then (w.jobCtl fn (bits n 0 2)).mirBufs
  else if row.off = Reg.HOST_ACCT_JOBS then (if n = 0 then w.upd (·.setReg h off 0) else w)
  else w.upd (·.plainWrite h row off v)

/-- The value TGU_TICK_CFG takes: the reserved SOURCE 0b11 stores NONE (R337). -/
def tickCfg (v : Word32) : Word32 := if bits v.toNat 30 2 = 3 then w32 (bits v.toNat 0 30) else v

/-- Effects of writes to the engines' registers that are not part of a pair. -/
def Wk.writeEngine (w : Wk) (h : Half) (row : RegRow) (off : Nat) (v : Word32) : Wk :=
  let n := v.toNat
  let i := (off - row.off) / row.s1
  let j := (off - row.off) % row.s1 / row.s2
  if row.off = Reg.TGU_FACET_RETAIN then w.upd fun d => d.retainWrite h (row.store 0 n)
  else if row.off = Reg.PRISM_CTX_HIGH then w.upd (·.ctxHighWrite h)
  else if row.off = Reg.EFU_PRED_CLEAR then w.upd (·.predClear h n)
  else if row.off = Reg.EFU_RESIDENT_LIMIT then w.upd fun d => (d.plainWrite h row off v).residentTrim h
  else if row.off = Reg.BPM_POOL_RESERVE then w.upd (·.setReserve h i j (row.store 0 n))
  else if row.off = Reg.TGU_TICK_CFG then w.upd (·.plainWrite h row off (tickCfg v))
  else w.upd (·.plainWrite h row off v)

/-- Effects of writes to the FAB, CE, HM, MIR, SEC and DBG registers that are not part of a pair. -/
def Wk.writeFar (w : Wk) (h : Half) (row : RegRow) (off : Nat) (v : Word32) : Wk :=
  let n := v.toNat
  let i := (off - row.off) / row.s1
  if row.off = Reg.FAB_REMOTE_CTL then w.upd (·.remoteCtl n)
  else if row.off = Reg.FAB_REGION_CTL then w.upd (·.regionCtl n)
  else if row.off = Reg.FAB_READER_CTL then w.upd (·.readerCtl n)
  else if row.off = Reg.FAB_PORT_CFG then w.portCfgWrite (16 * h.code + i) n
  else if row.off = Reg.CE_GROUP_CTL then w.groupCtl n
  else if row.off = Reg.CE_MEMBER_DATA then w.upd (·.memberWrite n)
  else if row.off = Reg.HM_CFG then
    w.upd fun d =>
      let d := d.plainWrite h row off v
      { d with hm := d.hm.set h { d.hm.get h with prior := bits n 0 4 } }
  else if row.off = Reg.MIR_PARTNER then w.partnerWrite n
  else if row.off = Reg.MIR_JOB_CTL then w.mirJobCtl n
  else if row.off = Reg.MIR_HOST_DEVICE then w.hostWrite h n
  else if row.off = Reg.MIR_RESTORE_CTL then w.restoreStart n
  else if row.off = Reg.SEC_MAILBOX_CTL then w.upd (·.mailboxGo h v)
  else if row.off = Reg.SEC_MAILBOX then (if (w.dev.top.sc.get h).mailBusy then w else w.upd (·.plainWrite h row off v))
  else if row.off = Reg.DBG_LOUPE_SEL then (if w.dev.loupeLocked then w else w.upd (·.plainWrite h row off v))
  else w.upd (·.plainWrite h row off v)

/-- The function of the client window an offset lies in; none where the window does not act (R305). -/
def Dev.windowOf (d : Dev) (h : Half) (off : Nat) : Option Nat :=
  if 0x20000 ≤ off ∧ off < 0x40000 then d.windowFn h ((off - 0x20000) / 0x800) else some 0

/-- A register write takes effect. -/
def Wk.regEffect (w : Wk) (who : Nat) (h : Half) (off : Nat) (v : Word32) : Wk :=
  match findRow off, w.dev.windowOf h off with
  | some row, some fn =>
    match row.part with
    | .lo => w.upd fun d => { d with hold := aput d.hold (holdKey h row off) v }
    | .hi =>
      let key := holdKey h row off
      let live := match findRow (off - 4) with | some r => w.dev.live h r (off - 4) | none => 0
      let lo := (aget w.dev.hold key).getD live
      (w.upd fun d => { d with hold := adel d.hold key }).pairCommit h row off fn lo.toNat v.toNat
    | .plain =>
      if off < 0x40000 then w.writeTopHost h who row off fn v
      else if off < 0x200000 then w.writeEngine h row off v
      else w.writeFar h row off v
  | _, _ => w

/-- A posted write that reaches a half window, from function `who`: it is applied, taken into the next shadow batch, or
ignored (R547 to R551). A VF's writes to its accounting registers are ignored (R346). -/
def Wk.regWrite (w : Wk) (who : Nat) (h : Half) (off : Nat) (v : Word32) : Wk :=
  match findRow off with
  | none => w
  | some row =>
    let d := w.dev
    let vf : Bool := who != 0 && who != 0x40
    let acct : Bool := decide (0x20000 ≤ off ∧ off < 0x40000) && decide (0x700 ≤ (off - 0x20000) % 0x800)
    if row.acc = .ro ∨ ¬ d.windowLives h ∨ (vf = true ∧ acct = true) then w
    else if d.top.stopped then (if off = Reg.TOP_FATAL_STATUS then w.regEffect who h off v else w)
    else if ¬ d.top.ready then w
    else if row.scope ≠ .lead then w.regEffect who h off v
    else if ¬ (d.top.lead.get h).leads h then w
    else if (d.top.lead.get h).st = .degraded then w.regEffect who h off v
    else w.upd (·.onTgu fun t => { t with lwrites := t.lwrites ++ [⟨who, h, off, v, false⟩] })

/-! ### Accesses through BAR0 and BAR2 -/

/-- A write to a word of the MSI-X table (R276, R304). Unmasking a vector sends a message that is pending. -/
def Dev.msixWrite (d : Dev) (k : Nat × Nat × Nat) (v : Word32) : Dev :=
  let (fn, vec, word) := k
  let x := d.vec fn vec
  match word with
  | 0 => d.setVec fn vec { x with addr := setBits x.addr 0 32 v.toNat }
  | 1 => d.setVec fn vec { x with addr := setBits x.addr 32 32 v.toNat }
  | 2 => d.setVec fn vec { x with data := v.toNat }
  | _ =>
    if bit v.toNat 0 then d.setVec fn vec { x with masked := true } else d.unmask fn vec

/-- Whether an access is an aligned 32-bit word; any other is an Unsupported Request (R7). -/
def wordAccess (off size : Nat) : Bool := size == 4 && off % 4 == 0

/-- A host write to BAR0 of a function. -/
def Wk.bar0Write (w : Wk) (fn off size : Nat) (v : Word32) : Wk :=
  if ¬ wordAccess off size then w.upd fun d => { d with resp := .unsupported }
  else
    let w := w.upd fun d => { d with resp := .ok }
    match w.dev.msixWord fn off with
    | some k => if w.dev.msixWrites fn off then w.upd (·.msixWrite k v) else w
    | none =>
      match w.dev.bar0 fn off with
      | none => w
      | some (h, o) => if fn ≠ 0 ∧ fn ≠ 0x40 ∧ 0x800 ≤ off then w else w.regWrite fn h o v

/-- The block of a half window that an offset lies in (R546). -/
def blockOf (off : Nat) : Nat :=
  [0x10000, 0x40000, 0x80000, 0xA0000, 0xC0000, 0xE0000, 0x100000, 0x140000, 0x200000, 0x300000, 0x380000, 0x3C0000, 0x3E0000,
    0x400000].countP fun b => decide (b ≤ off)

/-- The device as a function's read of a block finds it: the function's own earlier writes to lead-only registers of the block
have taken effect, since the read waits for them (R548, R550). -/
def Wk.afterOwn (w : Wk) (fn : Nat) (h : Half) (off : Nat) : Dev :=
  ((w.dev.tgu.lwrites.filter fun x => x.fn = fn ∧ x.half = h ∧ blockOf x.off = blockOf off).foldl
    (fun w x => w.regEffect x.fn x.half x.off x.value) w).dev

/-- Reads a register of a half window for a function, with the capture rule of pairs (R8, R552). -/
def Wk.regRead (w : Wk) (fn : Nat) (h : Half) (off : Nat) : Wk :=
  let seen := w.afterOwn fn h off
  let v := seen.readWindow h off
  w.upd fun d =>
    match findRow off with
    | none => { d with resp := .word v }
    | some row =>
      let key := (fn, holdKey h row off)
      match row.part with
      | .plain => { d with resp := .word v }
      | .lo => { d with resp := .word v, capt := aput d.capt key (seen.readWindow h (off + 4)) }
      | .hi => { d with resp := .word ((aget d.capt key).getD v), capt := adel d.capt key }

/-- What a doorbell page reads: SQ_HEAD and the state of its ring; the rest of a page reads 0 (R290). -/
def Dev.bar2Read (d : Dev) (fn off : Nat) : Word32 :=
  let r := off / 0x1000
  if (d.fnHalf fn).isNone ∨ 16 ≤ r then 0
  else if off % 0x1000 = 0x10 then w32 (d.ring fn r).sqHead
  else if off % 0x1000 = 0x14 then w32 (d.ringStatus fn r)
  else 0

/-- A host read of a register through BAR0 or BAR2. -/
def Wk.hostRead (w : Wk) (fn bar off size : Nat) : Wk :=
  if ¬ wordAccess off size then w.upd fun d => { d with resp := .unsupported }
  else if bar = 2 then w.upd fun d => { d with resp := .word (d.bar2Read fn off) }
  else
    match w.dev.readMsix fn off with
    | some v => w.upd fun d => { d with resp := .word (if d.msixReads fn off then v else 0) }
    | none =>
      match w.dev.bar0 fn off with
      | none => w.upd fun d => { d with resp := .word 0 }
      | some (h, o) => w.regRead fn h o

/-- PAIR_LO_WRITE. -/
def execPairLoWrite (fn off : Nat) (value : Word32) (s : State) : Host.Outcome State Fault Refusal :=
  finish s (s.start.bar0Write fn off 4 value)
/-- PAIR_HI_WRITE. -/
def execPairHiWrite (fn off : Nat) (value : Word32) (now : Nat) (s : State) : Host.Outcome State Fault Refusal :=
  finish s ((s.start.at_ now).bar0Write fn off 4 value)
/-- PAIR_LO_READ: a read of a register; the rules of pairs are those of R8. -/
def execPairLoRead (fn bar off size now : Nat) (s : State) : Host.Outcome State Fault Refusal :=
  finish s ((s.start.at_ now).hostRead fn bar off size)
/-- REGISTER_WRITE. -/
def execRegisterWrite (fn off size : Nat) (value : Word32) (now : Nat) (s : State) : Host.Outcome State Fault Refusal :=
  finish s ((s.start.at_ now).bar0Write fn off size value)

/-! ### Commands that are one register write -/

/-- A write of the PF or standby function to a register of a half window. -/
def winWrite (fn : Nat) (win : Half) (off : Nat) (value : Word32) (now : Nat) (s : State) : Host.Outcome State Fault Refusal :=
  finish s ((s.start.at_ now).bar0Write fn (win.code * 2 ^ 24 + off) 4 value)

/-- A write of a function to a register of its client window: at its own BAR0 offset for a VF, in its half's window for the PF
or standby function. -/
def clientWrite (fn x : Nat) (value : Word32) (now : Nat) (s : State) : Host.Outcome State Fault Refusal :=
  let off := if fn = 0 ∨ fn = 0x40 then (s.dev.fnHome fn).code * 2 ^ 24 + 0x20000 + x else x
  finish s ((s.start.at_ now).bar0Write fn off 4 value)

/-- TOP_FATAL_STATUS_CLEAR. -/
def execTopFatalStatusClear (fn : Nat) (win : Half) (value : Word32) (now : Nat) (s : State) : Host.Outcome State Fault Refusal :=
  winWrite fn win Reg.TOP_FATAL_STATUS value now s
/-- TOP_DEVICE_MODE_WRITE. -/
def execTopDeviceModeWrite (fn : Nat) (win : Half) (value : Word32) (now : Nat) (s : State) : Host.Outcome State Fault Refusal :=
  winWrite fn win Reg.TOP_DEVICE_MODE value now s
/-- TOP_FACET_CLK_WRITE. -/
def execTopFacetClkWrite (fn : Nat) (win : Half) (value : Word32) (now : Nat) (s : State) : Host.Outcome State Fault Refusal :=
  winWrite fn win Reg.TOP_FACET_CLK value now s
/-- TOP_THERM_CFG_WRITE. -/
def execTopThermCfgWrite (fn : Nat) (win : Half) (value : Word32) (now : Nat) (s : State) : Host.Outcome State Fault Refusal :=
  winWrite fn win Reg.TOP_THERM_CFG value now s
/-- PRISM_CTX_HIGH_WRITE. -/
def execPrismCtxHighWrite (fn : Nat) (win : Half) (value : Word32) (now : Nat) (s : State) : Host.Outcome State Fault Refusal :=
  winWrite fn win Reg.PRISM_CTX_HIGH value now s
/-- EFU_PRED_CLEAR. -/
def execEfuPredClear (fn : Nat) (win : Half) (value : Word32) (now : Nat) (s : State) : Host.Outcome State Fault Refusal :=
  winWrite fn win Reg.EFU_PRED_CLEAR value now s
/-- EFU_RESIDENT_LIMIT_WRITE. -/
def execEfuResidentLimitWrite (fn : Nat) (win : Half) (value : Word32) (now : Nat) (s : State) : Host.Outcome State Fault Refusal :=
  winWrite fn win Reg.EFU_RESIDENT_LIMIT value now s
/-- TGU_FACET_RETAIN_WRITE. -/
def execTguFacetRetainWrite (fn : Nat) (win : Half) (value : Word32) (now : Nat) (s : State) : Host.Outcome State Fault Refusal :=
  winWrite fn win Reg.TGU_FACET_RETAIN value now s
/-- TGU_LANE_SPLIT_WRITE. -/
def execTguLaneSplitWrite (fn : Nat) (win : Half) (value : Word32) (now : Nat) (s : State) : Host.Outcome State Fault Refusal :=
  winWrite fn win Reg.TGU_LANE_SPLIT value now s
/-- TGU_TRAIN_TABLE_HI. -/
def execTguTrainTableHi (fn : Nat) (win : Half) (value : Word32) (now : Nat) (s : State) : Host.Outcome State Fault Refusal :=
  winWrite fn win Reg.TGU_TRAIN_TABLE_HI value now s
/-- BPM_POOL_CFG_HI. -/
def execBpmPoolCfgHi (fn : Nat) (win : Half) (pool : Nat) (value : Word32) (now : Nat) (s : State) :
    Host.Outcome State Fault Refusal :=
  winWrite fn win (Reg.BPM_POOL_CFG_HI + 8 * (pool % 16)) value now s
/-- BPM_POOL_RESERVE_WRITE. -/
def execBpmPoolReserveWrite (fn : Nat) (win : Half) (pool client : Nat) (value : Word32) (now : Nat) (s : State) :
    Host.Outcome State Fault Refusal :=
  winWrite fn win (Reg.BPM_POOL_RESERVE + 0x100 * (pool % 16) + 4 * (client % 64)) value now s
/-- CREATE. -/
def execCreate (fn now : Nat) (s : State) : Host.Outcome State Fault Refusal := clientWrite fn 0x50C 1 now s
/-- REMOVE. -/
def execRemove (fn now : Nat) (s : State) : Host.Outcome State Fault Refusal := clientWrite fn 0x50C 2 now s
/-- FORCE_REMOVE. -/
def execForceRemove (fn now : Nat) (s : State) : Host.Outcome State Fault Refusal := clientWrite fn 0x50C 3 now s
/-- RING_ENABLE: a write of HOST_RING_CFG with ENABLE 1. -/
def execRingEnable (fn ring : Nat) (value : Word32) (now : Nat) (s : State) : Host.Outcome State Fault Refusal :=
  clientWrite fn (0x40 * (ring % 16) + 0x18) (value ||| 0x80000000) now s
/-- RING_DISABLE: a write of HOST_RING_CFG with ENABLE 0. -/
def execRingDisable (fn ring : Nat) (value : Word32) (now : Nat) (s : State) : Host.Outcome State Fault Refusal :=
  clientWrite fn (0x40 * (ring % 16) + 0x18) (value &&& 0x7FFFFFFF) now s
/-- EVENT_RING_ENABLE: a write of HOST_EVT_CFG. -/
def execEventRingEnable (fn : Nat) (value : Word32) (now : Nat) (s : State) : Host.Outcome State Fault Refusal :=
  clientWrite fn 0x408 value now s
/-- FAB_REMOTE_ENABLE. -/
def execFabRemoteEnable (fn : Nat) (win : Half) (now : Nat) (s : State) : Host.Outcome State Fault Refusal :=
  winWrite fn win Reg.FAB_REMOTE_CTL 1 now s
/-- FAB_REMOTE_DISABLE. -/
def execFabRemoteDisable (fn : Nat) (win : Half) (now : Nat) (s : State) : Host.Outcome State Fault Refusal :=
  winWrite fn win Reg.FAB_REMOTE_CTL 2 now s
/-- FAB_REGION_INSTALL. -/
def execFabRegionInstall (fn : Nat) (win : Half) (now : Nat) (s : State) : Host.Outcome State Fault Refusal :=
  winWrite fn win Reg.FAB_REGION_CTL 1 now s
/-- FAB_REGION_REMOVE. -/
def execFabRegionRemove (fn : Nat) (win : Half) (now : Nat) (s : State) : Host.Outcome State Fault Refusal :=
  winWrite fn win Reg.FAB_REGION_CTL 2 now s
/-- FAB_REGION_LOOKUP. -/
def execFabRegionLookup (fn : Nat) (win : Half) (now : Nat) (s : State) : Host.Outcome State Fault Refusal :=
  winWrite fn win Reg.FAB_REGION_CTL 3 now s
/-- FAB_ROUTE_ENTRY_HI. -/
def execFabRouteEntryHi (fn : Nat) (win : Half) (value : Word32) (now : Nat) (s : State) : Host.Outcome State Fault Refusal :=
  winWrite fn win Reg.FAB_ROUTE_ENTRY_HI value now s
/-- FAB_READER_WRITE. -/
def execFabReaderWrite (fn : Nat) (win : Half) (now : Nat) (s : State) : Host.Outcome State Fault Refusal :=
  winWrite fn win Reg.FAB_READER_CTL 1 now s
/-- FAB_READER_CLEAR. -/
def execFabReaderClear (fn : Nat) (win : Half) (now : Nat) (s : State) : Host.Outcome State Fault Refusal :=
  winWrite fn win Reg.FAB_READER_CTL 2 now s
/-- FAB_READER_READ. -/
def execFabReaderRead (fn : Nat) (win : Half) (now : Nat) (s : State) : Host.Outcome State Fault Refusal :=
  winWrite fn win Reg.FAB_READER_CTL 3 now s
/-- FAB_SETUP_HASH_HI. -/
def execFabSetupHashHi (fn : Nat) (win : Half) (value : Word32) (now : Nat) (s : State) : Host.Outcome State Fault Refusal :=
  winWrite fn win Reg.FAB_SETUP_HASH_HI value now s
/-- FAB_PORT_CFG_WRITE of block `block` of the device, 0 to 31; its half window is that of the block. -/
def execFabPortCfgWrite (fn : Nat) (win : Half) (block : Nat) (value : Word32) (now : Nat) (s : State) :
    Host.Outcome State Fault Refusal :=
  winWrite fn win (Reg.FAB_PORT_CFG + 4 * (block % 16)) value now s
/-- CE_MEMBER_DATA_WRITE. -/
def execCeMemberDataWrite (fn : Nat) (win : Half) (value : Word32) (now : Nat) (s : State) : Host.Outcome State Fault Refusal :=
  winWrite fn win Reg.CE_MEMBER_DATA value now s
/-- CE_GROUP_INSTALL. -/
def execCeGroupInstall (fn : Nat) (win : Half) (now : Nat) (s : State) : Host.Outcome State Fault Refusal :=
  winWrite fn win Reg.CE_GROUP_CTL 0 now s
/-- CE_GROUP_REFORM. -/
def execCeGroupReform (fn : Nat) (win : Half) (now : Nat) (s : State) : Host.Outcome State Fault Refusal :=
  winWrite fn win Reg.CE_GROUP_CTL 1 now s
/-- CE_GROUP_REMOVE. -/
def execCeGroupRemove (fn : Nat) (win : Half) (now : Nat) (s : State) : Host.Outcome State Fault Refusal :=
  winWrite fn win Reg.CE_GROUP_CTL 2 now s
/-- CE_GROUP_LOOKUP. -/
def execCeGroupLookup (fn : Nat) (win : Half) (now : Nat) (s : State) : Host.Outcome State Fault Refusal :=
  winWrite fn win Reg.CE_GROUP_CTL 3 now s
/-- PROTECT. -/
def execProtect (fn : Nat) (win : Half) (now : Nat) (s : State) : Host.Outcome State Fault Refusal :=
  winWrite fn win Reg.MIR_JOB_CTL 1 now s
/-- UNPROTECT. -/
def execUnprotect (fn : Nat) (win : Half) (now : Nat) (s : State) : Host.Outcome State Fault Refusal :=
  winWrite fn win Reg.MIR_JOB_CTL 2 now s
/-- MIR_PARTNER_ENABLE. -/
def execMirPartnerEnable (fn : Nat) (win : Half) (value : Word32) (now : Nat) (s : State) : Host.Outcome State Fault Refusal :=
  winWrite fn win Reg.MIR_PARTNER value now s
/-- MIR_HOST_ENABLE. -/
def execMirHostEnable (fn : Nat) (win : Half) (value : Word32) (now : Nat) (s : State) : Host.Outcome State Fault Refusal :=
  winWrite fn win Reg.MIR_HOST_DEVICE value now s
/-- RESTORE_START. -/
def execRestoreStart (fn : Nat) (win : Half) (now : Nat) (s : State) : Host.Outcome State Fault Refusal :=
  winWrite fn win Reg.MIR_RESTORE_CTL 1 now s
/-- JSTART_START. -/
def execJstartStart (fn : Nat) (win : Half) (now : Nat) (s : State) : Host.Outcome State Fault Refusal :=
  winWrite fn win Reg.TOP_JSTART_CTL 1 now s
/-- JSTART_CANCEL. -/
def execJstartCancel (fn : Nat) (win : Half) (now : Nat) (s : State) : Host.Outcome State Fault Refusal :=
  winWrite fn win Reg.TOP_JSTART_CTL 2 now s
/-- SEC_MAILBOX_GO: a write of SEC_MAILBOX_CTL. -/
def execSecMailboxGo (fn : Nat) (win : Half) (value : Word32) (now : Nat) (s : State) : Host.Outcome State Fault Refusal :=
  winWrite fn win Reg.SEC_MAILBOX_CTL value now s

/-- FUNCTION_LEVEL_RESET (R281): protection of the jobs it removes ends with them. -/
def execFunctionLevelReset (fn now : Nat) (s : State) : Host.Outcome State Fault Refusal :=
  finish s (((s.start.at_ now).flr fn).mirBufs)

/-! ### The shadow's acknowledgement (R458, R548) -/

/-- The acknowledgement of a batch reaches the lead: its commits may take step 3, and the writes to lead-only registers sent
with it take effect, in order. -/
def Wk.shadowAck (w : Wk) (intact : Bool) : Wk :=
  match w.dev.leadOf with
  | none => w
  | some h =>
    if (w.dev.top.lead.get h).st ≠ .normal ∨ (w.dev.top.lead.get h.other).st ≠ .normal ∨ intact = false then w
    else
      let due := w.dev.tgu.lwrites.filter (·.sent)
      let w := w.upd fun d =>
        let seen := d.tgu.batchSeen
        let d := d.onTgu fun t =>
          { t with shadowAcked := t.shadowAcked ++ seen, batchSeen := [], lwrites := t.lwrites.filter fun x => !x.sent }
        seen.foldl (fun d k => d.onNode k.1 k.2 fun n => if n.st = .committing then { n with acked := true } else n) d
      due.foldl (fun w x => w.regEffect x.fn x.half x.off x.value) w

/-- SHADOW_ACK. -/
def execShadowAck (intact : Bool) (now : Nat) (s : State) : Host.Outcome State Fault Refusal :=
  finish s ((s.start.at_ now).shadowAck intact)

/-! ### LEAD_REPLY (R459 to R463) -/

/-- What a half does on a LEAD_REPLY: 1 GRANT, 2 FENCE. -/
def Wk.leadReply (w : Wk) (h : Half) (result term : Nat) : Wk × Nat :=
  let v := w.dev.top.lead.get h
  let waits : Bool := v.st == .lapsed || v.st == .confirming || (v.st == .electing && (w.dev.top.sc.get h).st == .booted)
  if result ≠ 1 ∧ result ≠ 2 then (w, ccInvalid)
  else if waits = false then (w, ccNotReady)
  else if result = 2 then (w.upd (·.fence h term), ccSuccess)
  else
    let w := ((w.grant h term).mirBufs).mirStale
    (w.upd fun d => (d.fab.dests.map (·.1)).foldl (fun d dest => d.pump dest) d, ccSuccess)

/-- LEAD_REPLY: CRYPTO_OFFICER, over I3C only (R512). One that arrives after SPLIT_HALT is ignored (R462). -/
def execLeadReply (req : Request) (result term : Nat) (s : State) : Host.Outcome State Fault Refusal :=
  finish s <|
    if (s.dev.top.lead.get req.half).st = .splitHalt then s.start.at_ req.now
    else
      s.start.mgmt req 0x06 .officer [] fun w _ =>
        if req.path ≠ .i3c then (w, ccNotPermitted, [])
        else
          let r := w.leadReply req.half (result % 4) (term % 2 ^ 32)
          (r.1, r.2, [])

end Sys2Proof.Machine
end

