-- ==== Sys2Proof/Machine/Dispatch.lean ====
section
/-! DEFINITION. One arm per command: the dispatch of the block (95_what_each_step_holds.md maps each to its rules). -/

namespace Sys2Proof.Machine

open Sys2Proof

def exec (i : Instr) (s : State) : Host.Outcome State Fault Refusal :=
  match i with
  | .pwrGoodRise => Sys2Proof.Machine.execPwrGoodRise s
  | .pwrGoodFall => Sys2Proof.Machine.execPwrGoodFall s
  | .resetNAssert => Sys2Proof.Machine.execResetNAssert s
  | .resetNDeassert pref => Sys2Proof.Machine.execResetNDeassert pref s
  | .scBoot half now selfTestOk firstOk secondOk => Sys2Proof.Machine.execScBoot half now selfTestOk firstOk secondOk s
  | .elect half now msg => Sys2Proof.Machine.execElect half now msg s
  | .electionTimeout half now => Sys2Proof.Machine.execElectionTimeout half now s
  | .stackTrainingDone now up => Sys2Proof.Machine.execStackTrainingDone now up s
  | .baselineDone now failed => Sys2Proof.Machine.execBaselineDone now failed s
  | .configurationRequest req => Sys2Proof.Machine.execConfigurationRequest req s
  | .perstN half now deasserted => Sys2Proof.Machine.execPerstN half now deasserted s
  | .vfEnable now on => Sys2Proof.Machine.execVfEnable now on s
  | .doorbellEnable fn now => Sys2Proof.Machine.execDoorbellEnable fn now s
  | .functionLevelReset fn now => Sys2Proof.Machine.execFunctionLevelReset fn now s
  | .bar4Read fn off len => Sys2Proof.Machine.execBar4Read fn off len s
  | .bar4Write fn off data => Sys2Proof.Machine.execBar4Write fn off data s
  | .hostReadError fn ring inst node descriptor now => Sys2Proof.Machine.execHostReadError fn ring inst node descriptor now s
  | .hostWriteError target job nodeId tag addr now => Sys2Proof.Machine.execHostWriteError target job nodeId tag addr now s
  | .pairLoWrite fn off value => Sys2Proof.Machine.execPairLoWrite fn off value s
  | .pairHiWrite fn off value now => Sys2Proof.Machine.execPairHiWrite fn off value now s
  | .pairLoRead fn bar off size now => Sys2Proof.Machine.execPairLoRead fn bar off size now s
  | .registerWrite fn off size value now => Sys2Proof.Machine.execRegisterWrite fn off size value now s
  | .topFatalStatusClear fn win value now => Sys2Proof.Machine.execTopFatalStatusClear fn win value now s
  | .topDeviceModeWrite fn win value now => Sys2Proof.Machine.execTopDeviceModeWrite fn win value now s
  | .modeChange now => Sys2Proof.Machine.execModeChange now s
  | .topFacetClkWrite fn win value now => Sys2Proof.Machine.execTopFacetClkWrite fn win value now s
  | .topThermCfgWrite fn win value now => Sys2Proof.Machine.execTopThermCfgWrite fn win value now s
  | .prismCtxHighWrite fn win value now => Sys2Proof.Machine.execPrismCtxHighWrite fn win value now s
  | .efuPredClear fn win value now => Sys2Proof.Machine.execEfuPredClear fn win value now s
  | .efuResidentLimitWrite fn win value now => Sys2Proof.Machine.execEfuResidentLimitWrite fn win value now s
  | .tguFacetRetainWrite fn win value now => Sys2Proof.Machine.execTguFacetRetainWrite fn win value now s
  | .tguLaneSplitWrite fn win value now => Sys2Proof.Machine.execTguLaneSplitWrite fn win value now s
  | .tguTrainTableHi fn win value now => Sys2Proof.Machine.execTguTrainTableHi fn win value now s
  | .bpmPoolCfgHi fn win pool value now => Sys2Proof.Machine.execBpmPoolCfgHi fn win pool value now s
  | .bpmPoolReserveWrite fn win pool client value now => Sys2Proof.Machine.execBpmPoolReserveWrite fn win pool client value now s
  | .hostDbSqTail fn ring value now => Sys2Proof.Machine.execHostDbSqTail fn ring value now s
  | .hostDbCqHead fn ring value => Sys2Proof.Machine.execHostDbCqHead fn ring value s
  | .hostDbAbortTagHi fn ring lo value now => Sys2Proof.Machine.execHostDbAbortTagHi fn ring lo value now s
  | .hostDbEvtHead fn ring value now => Sys2Proof.Machine.execHostDbEvtHead fn ring value now s
  | .create fn now => Sys2Proof.Machine.execCreate fn now s
  | .remove fn now => Sys2Proof.Machine.execRemove fn now s
  | .forceRemove fn now => Sys2Proof.Machine.execForceRemove fn now s
  | .ringEnable fn ring value now => Sys2Proof.Machine.execRingEnable fn ring value now s
  | .ringDisable fn ring value now => Sys2Proof.Machine.execRingDisable fn ring value now s
  | .ringDrained fn ring => Sys2Proof.Machine.execRingDrained fn ring s
  | .eventRingEnable fn value now => Sys2Proof.Machine.execEventRingEnable fn value now s
  | .fabRemoteEnable fn win now => Sys2Proof.Machine.execFabRemoteEnable fn win now s
  | .fabRemoteDisable fn win now => Sys2Proof.Machine.execFabRemoteDisable fn win now s
  | .fabRegionInstall fn win now => Sys2Proof.Machine.execFabRegionInstall fn win now s
  | .fabRegionRemove fn win now => Sys2Proof.Machine.execFabRegionRemove fn win now s
  | .fabRegionLookup fn win now => Sys2Proof.Machine.execFabRegionLookup fn win now s
  | .fabRouteEntryHi fn win value now => Sys2Proof.Machine.execFabRouteEntryHi fn win value now s
  | .fabReaderWrite fn win now => Sys2Proof.Machine.execFabReaderWrite fn win now s
  | .fabReaderClear fn win now => Sys2Proof.Machine.execFabReaderClear fn win now s
  | .fabReaderRead fn win now => Sys2Proof.Machine.execFabReaderRead fn win now s
  | .fabSetupHashHi fn win value now => Sys2Proof.Machine.execFabSetupHashHi fn win value now s
  | .fabPortCfgWrite fn win block value now => Sys2Proof.Machine.execFabPortCfgWrite fn win block value now s
  | .ceMemberDataWrite fn win value now => Sys2Proof.Machine.execCeMemberDataWrite fn win value now s
  | .ceGroupInstall fn win now => Sys2Proof.Machine.execCeGroupInstall fn win now s
  | .ceGroupReform fn win now => Sys2Proof.Machine.execCeGroupReform fn win now s
  | .ceGroupRemove fn win now => Sys2Proof.Machine.execCeGroupRemove fn win now s
  | .ceGroupLookup fn win now => Sys2Proof.Machine.execCeGroupLookup fn win now s
  | .protect fn win now => Sys2Proof.Machine.execProtect fn win now s
  | .unprotect fn win now => Sys2Proof.Machine.execUnprotect fn win now s
  | .mirPartnerEnable fn win value now => Sys2Proof.Machine.execMirPartnerEnable fn win value now s
  | .mirHostEnable fn win value now => Sys2Proof.Machine.execMirHostEnable fn win value now s
  | .restoreStart fn win now => Sys2Proof.Machine.execRestoreStart fn win now s
  | .restoreDone now => Sys2Proof.Machine.execRestoreDone now s
  | .jstartStart fn win now => Sys2Proof.Machine.execJstartStart fn win now s
  | .jstartCancel fn win now => Sys2Proof.Machine.execJstartCancel fn win now s
  | .jstartPoll now => Sys2Proof.Machine.execJstartPoll now s
  | .jstartParentTimeout now => Sys2Proof.Machine.execJstartParentTimeout now s
  | .jstartChildCheck now => Sys2Proof.Machine.execJstartChildCheck now s
  | .secMailboxGo fn win value now => Sys2Proof.Machine.execSecMailboxGo fn win value now s
  | .descriptorAdmission fn ring now => Sys2Proof.Machine.execDescriptorAdmission fn ring now s
  | .sqHeadWriteback fn ring now => Sys2Proof.Machine.execSqHeadWriteback fn ring now s
  | .recordWriteback fn ring now => Sys2Proof.Machine.execRecordWriteback fn ring now s
  | .msixMessage fn vector now => Sys2Proof.Machine.execMsixMessage fn vector now s
  | .kernel inst node now => Sys2Proof.Machine.execKernel inst node now s
  | .matmul inst node now => Sys2Proof.Machine.execMatmul inst node now s
  | .route inst node now => Sys2Proof.Machine.execRoute inst node now s
  | .routeScored inst node now => Sys2Proof.Machine.execRouteScored inst node now s
  | .fetchExperts inst node now => Sys2Proof.Machine.execFetchExperts inst node now s
  | .combine inst node now => Sys2Proof.Machine.execCombine inst node now s
  | .copy inst node now => Sys2Proof.Machine.execCopy inst node now s
  | .copyT inst node now => Sys2Proof.Machine.execCopyT inst node now s
  | .ingest inst node now => Sys2Proof.Machine.execIngest inst node now s
  | .windowGather inst node now => Sys2Proof.Machine.execWindowGather inst node now s
  | .alloc inst node now => Sys2Proof.Machine.execAlloc inst node now s
  | .freeBuf inst node now => Sys2Proof.Machine.execFreeBuf inst node now s
  | .release inst node now => Sys2Proof.Machine.execRelease inst node now s
  | .shareBuf inst node now => Sys2Proof.Machine.execShareBuf inst node now s
  | .collective inst node now => Sys2Proof.Machine.execCollective inst node now s
  | .asyncCopyRemote inst node now => Sys2Proof.Machine.execAsyncCopyRemote inst node now s
  | .ownTransfer inst node now => Sys2Proof.Machine.execOwnTransfer inst node now s
  | .invalidate inst node now => Sys2Proof.Machine.execInvalidate inst node now s
  | .fence inst node now => Sys2Proof.Machine.execFence inst node now s
  | .hostSignal inst node now => Sys2Proof.Machine.execHostSignal inst node now s
  | .hostWait inst node now => Sys2Proof.Machine.execHostWait inst node now s
  | .hostWaitPoll inst node now => Sys2Proof.Machine.execHostWaitPoll inst node now s
  | .snapshot inst node now => Sys2Proof.Machine.execSnapshot inst node now s
  | .nopNode inst node now => Sys2Proof.Machine.execNopNode inst node now s
  | .nodeCommit inst node now => Sys2Proof.Machine.execNodeCommit inst node now s
  | .jobFatalStep job status now => Sys2Proof.Machine.execJobFatalStep job status now s
  | .copyBack page now => Sys2Proof.Machine.execCopyBack page now s
  | .shadowDeadlockKill half now => Sys2Proof.Machine.execShadowDeadlockKill half now s
  | .graceTimerExpiry inst node now => Sys2Proof.Machine.execGraceTimerExpiry inst node now s
  | .frameTickIn now => Sys2Proof.Machine.execFrameTickIn now s
  | .internalTick now => Sys2Proof.Machine.execInternalTick now s
  | .deadlineExpiry inst now => Sys2Proof.Machine.execDeadlineExpiry inst now s
  | .facetWatchdog facet now => Sys2Proof.Machine.execFacetWatchdog facet now s
  | .prismGroupAdmit inst node half now => Sys2Proof.Machine.execPrismGroupAdmit inst node half now s
  | .prismSetAside inst node half now => Sys2Proof.Machine.execPrismSetAside inst node half now s
  | .prismAdmitTimeout inst node now => Sys2Proof.Machine.execPrismAdmitTimeout inst node now s
  | .prefetchStaging inst node half now => Sys2Proof.Machine.execPrefetchStaging inst node half now s
  | .expertStart inst node expert now => Sys2Proof.Machine.execExpertStart inst node expert now s
  | .tileMulticast inst node expert now => Sys2Proof.Machine.execTileMulticast inst node expert now s
  | .resultNotice now => Sys2Proof.Machine.execResultNotice now s
  | .codeLoad facet now => Sys2Proof.Machine.execCodeLoad facet now s
  | .waitComplete facet now => Sys2Proof.Machine.execWaitComplete facet now s
  | .facetNop facet now => Sys2Proof.Machine.execFacetNop facet now s
  | .endInst facet now => Sys2Proof.Machine.execEndInst facet now s
  | .br facet now => Sys2Proof.Machine.execBr facet now s
  | .bc facet now => Sys2Proof.Machine.execBc facet now s
  | .loopInst facet now => Sys2Proof.Machine.execLoopInst facet now s
  | .callInst facet now => Sys2Proof.Machine.execCallInst facet now s
  | .retInst facet now => Sys2Proof.Machine.execRetInst facet now s
  | .trap facet now => Sys2Proof.Machine.execTrap facet now s
  | .addS facet now => Sys2Proof.Machine.execAddS facet now s
  | .addi facet now => Sys2Proof.Machine.execAddi facet now s
  | .subS facet now => Sys2Proof.Machine.execSubS facet now s
  | .mulS facet now => Sys2Proof.Machine.execMulS facet now s
  | .andS facet now => Sys2Proof.Machine.execAndS facet now s
  | .orS facet now => Sys2Proof.Machine.execOrS facet now s
  | .xorS facet now => Sys2Proof.Machine.execXorS facet now s
  | .shl facet now => Sys2Proof.Machine.execShl facet now s
  | .shr facet now => Sys2Proof.Machine.execShr facet now s
  | .minS facet now => Sys2Proof.Machine.execMinS facet now s
  | .maxS facet now => Sys2Proof.Machine.execMaxS facet now s
  | .li facet now => Sys2Proof.Machine.execLi facet now s
  | .lih facet now => Sys2Proof.Machine.execLih facet now s
  | .rdspec facet now => Sys2Proof.Machine.execRdspec facet now s
  | .ld64 facet now => Sys2Proof.Machine.execLd64 facet now s
  | .ld32 facet now => Sys2Proof.Machine.execLd32 facet now s
  | .tpset facet now => Sys2Proof.Machine.execTpset facet now s
  | .tload facet now => Sys2Proof.Machine.execTload facet now s
  | .tstore facet now => Sys2Proof.Machine.execTstore facet now s
  | .tcopy facet now => Sys2Proof.Machine.execTcopy facet now s
  | .thdr facet now => Sys2Proof.Machine.execThdr facet now s
  | .tzero facet now => Sys2Proof.Machine.execTzero facet now s
  | .tgather facet now => Sys2Proof.Machine.execTgather facet now s
  | .tldr facet now => Sys2Proof.Machine.execTldr facet now s
  | .tstr facet now => Sys2Proof.Machine.execTstr facet now s
  | .tcvt facet now => Sys2Proof.Machine.execTcvt facet now s
  | .mma facet now => Sys2Proof.Machine.execMma facet now s
  | .accStore facet now => Sys2Proof.Machine.execAccStore facet now s
  | .accLoad facet now => Sys2Proof.Machine.execAccLoad facet now s
  | .accZero facet now => Sys2Proof.Machine.execAccZero facet now s
  | .accAdd facet now => Sys2Proof.Machine.execAccAdd facet now s
  | .vadd facet now => Sys2Proof.Machine.execVadd facet now s
  | .vsub facet now => Sys2Proof.Machine.execVsub facet now s
  | .vmul facet now => Sys2Proof.Machine.execVmul facet now s
  | .vfma facet now => Sys2Proof.Machine.execVfma facet now s
  | .vmax facet now => Sys2Proof.Machine.execVmax facet now s
  | .vmin facet now => Sys2Proof.Machine.execVmin facet now s
  | .vcmplt facet now => Sys2Proof.Machine.execVcmplt facet now s
  | .vsel facet now => Sys2Proof.Machine.execVsel facet now s
  | .vbcast facet now => Sys2Proof.Machine.execVbcast facet now s
  | .vext facet now => Sys2Proof.Machine.execVext facet now s
  | .vrsum facet now => Sys2Proof.Machine.execVrsum facet now s
  | .vrmax facet now => Sys2Proof.Machine.execVrmax facet now s
  | .vld facet now => Sys2Proof.Machine.execVld facet now s
  | .vst facet now => Sys2Proof.Machine.execVst facet now s
  | .vlda facet now => Sys2Proof.Machine.execVlda facet now s
  | .vsta facet now => Sys2Proof.Machine.execVsta facet now s
  | .expV facet now => Sys2Proof.Machine.execExpV facet now s
  | .exp2 facet now => Sys2Proof.Machine.execExp2 facet now s
  | .ln facet now => Sys2Proof.Machine.execLn facet now s
  | .log2 facet now => Sys2Proof.Machine.execLog2 facet now s
  | .rcp facet now => Sys2Proof.Machine.execRcp facet now s
  | .sqrt facet now => Sys2Proof.Machine.execSqrt facet now s
  | .rsqrt facet now => Sys2Proof.Machine.execRsqrt facet now s
  | .tanh facet now => Sys2Proof.Machine.execTanh facet now s
  | .sigmoid facet now => Sys2Proof.Machine.execSigmoid facet now s
  | .silu facet now => Sys2Proof.Machine.execSilu facet now s
  | .erf facet now => Sys2Proof.Machine.execErf facet now s
  | .gelu facet now => Sys2Proof.Machine.execGelu facet now s
  | .waitPiece facet now => Sys2Proof.Machine.execWaitPiece facet now s
  | .waitAny facet now => Sys2Proof.Machine.execWaitAny facet now s
  | .releaseSlot facet now => Sys2Proof.Machine.execReleaseSlot facet now s
  | .waitGroup facet now => Sys2Proof.Machine.execWaitGroup facet now s
  | .rload facet now => Sys2Proof.Machine.execRload facet now s
  | .rloadt facet now => Sys2Proof.Machine.execRloadt facet now s
  | .rstore facet now => Sys2Proof.Machine.execRstore facet now s
  | .rstoret facet now => Sys2Proof.Machine.execRstoret facet now s
  | .ratomic facet now => Sys2Proof.Machine.execRatomic facet now s
  | .postNotice facet now => Sys2Proof.Machine.execPostNotice facet now s
  | .stageQuery facet now => Sys2Proof.Machine.execStageQuery facet now s
  | .dataFlit port seq flit now => Sys2Proof.Machine.execDataFlit port seq flit now s
  | .nak port flit now => Sys2Proof.Machine.execNak port flit now s
  | .initFlit port seq flit now => Sys2Proof.Machine.execInitFlit port seq flit now s
  | .macFlit port seq flit tagOk now => Sys2Proof.Machine.execMacFlit port seq flit tagOk now s
  | .timeFlit port seq flit now => Sys2Proof.Machine.execTimeFlit port seq flit now s
  | .credit port seq flit now => Sys2Proof.Machine.execCredit port seq flit now s
  | .timeExchange now => Sys2Proof.Machine.execTimeExchange now s
  | .linkDown port now => Sys2Proof.Machine.execLinkDown port now s
  | .nullWord port now => Sys2Proof.Machine.execNullWord port now s
  | .readTx port now => Sys2Proof.Machine.execReadTx port now s
  | .readResp port now => Sys2Proof.Machine.execReadResp port now s
  | .writeTx port now => Sys2Proof.Machine.execWriteTx port now s
  | .atomic port now => Sys2Proof.Machine.execAtomic port now s
  | .bulk port now => Sys2Proof.Machine.execBulk port now s
  | .ack port now => Sys2Proof.Machine.execAck port now s
  | .fabInvalidate port now => Sys2Proof.Machine.execFabInvalidate port now s
  | .fabInvalidateDeliver port now => Sys2Proof.Machine.execFabInvalidateDeliver port now s
  | .fabFence port now => Sys2Proof.Machine.execFabFence port now s
  | .fenceAck port now => Sys2Proof.Machine.execFenceAck port now s
  | .ackCoalesce src now => Sys2Proof.Machine.execAckCoalesce src now s
  | .pathTimeout dest slot now => Sys2Proof.Machine.execPathTimeout dest slot now s
  | .slotRevive dest slot now => Sys2Proof.Machine.execSlotRevive dest slot now s
  | .reachTimeout dest now => Sys2Proof.Machine.execReachTimeout dest now s
  | .windowExpiry src now => Sys2Proof.Machine.execWindowExpiry src now s
  | .demand port now => Sys2Proof.Machine.execDemand port now s
  | .repair port now => Sys2Proof.Machine.execRepair port now s
  | .expertTile port now => Sys2Proof.Machine.execExpertTile port now s
  | .readyFrame port now => Sys2Proof.Machine.execReadyFrame port now s
  | .partialFrame port now => Sys2Proof.Machine.execPartialFrame port now s
  | .finalFrame port now => Sys2Proof.Machine.execFinalFrame port now s
  | .resend port now => Sys2Proof.Machine.execResend port now s
  | .presence port now => Sys2Proof.Machine.execPresence port now s
  | .unionFrame port now => Sys2Proof.Machine.execUnionFrame port now s
  | .vote port now => Sys2Proof.Machine.execVote port now s
  | .verdict port now => Sys2Proof.Machine.execVerdict port now s
  | .withdraw port now => Sys2Proof.Machine.execWithdraw port now s
  | .collTimeout group now => Sys2Proof.Machine.execCollTimeout group now s
  | .epochRetry group now => Sys2Proof.Machine.execEpochRetry group now s
  | .lease half msg now => Sys2Proof.Machine.execLease half msg now s
  | .leaseEcho half msg now => Sys2Proof.Machine.execLeaseEcho half msg now s
  | .leaseRenewal now => Sys2Proof.Machine.execLeaseRenewal now s
  | .leaseLapse half now => Sys2Proof.Machine.execLeaseLapse half now s
  | .leadRequestResend half now => Sys2Proof.Machine.execLeadRequestResend half now s
  | .splitHalt half now => Sys2Proof.Machine.execSplitHalt half now s
  | .shadowBatch intact now => Sys2Proof.Machine.execShadowBatch intact now s
  | .shadowAck intact now => Sys2Proof.Machine.execShadowAck intact now s
  | .leadReply req result term => Sys2Proof.Machine.execLeadReply req result term s
  | .detectorReport half island report inst node detail now => Sys2Proof.Machine.execDetectorReport half island report inst node detail now s
  | .hmSample now => Sys2Proof.Machine.execHmSample now s
  | .hmFloorDecay half now => Sys2Proof.Machine.execHmFloorDecay half now s
  | .cutInterval now => Sys2Proof.Machine.execCutInterval now s
  | .epochCut now => Sys2Proof.Machine.execEpochCut now s
  | .mirrorPagePush now => Sys2Proof.Machine.execMirrorPagePush now s
  | .cutClose port now => Sys2Proof.Machine.execCutClose port now s
  | .hello port now => Sys2Proof.Machine.execHello port now s
  | .helloReply port now => Sys2Proof.Machine.execHelloReply port now s
  | .tapResult port now => Sys2Proof.Machine.execTapResult port now s
  | .tempReading half sensor temp now => Sys2Proof.Machine.execTempReading half sensor temp now s
  | .tripRecovery now => Sys2Proof.Machine.execTripRecovery now s
  | .droopEvent half now => Sys2Proof.Machine.execDroopEvent half now s
  | .capStep power west east now => Sys2Proof.Machine.execCapStep power west east now s
  | .telemetrySample stackW stackE now => Sys2Proof.Machine.execTelemetrySample stackW stackE now s
  | .patrolScrub addr dataErrs checkErrs now => Sys2Proof.Machine.execPatrolScrub addr dataErrs checkErrs now s
  | .sliceStart facet now => Sys2Proof.Machine.execSliceStart facet now s
  | .sliceEnd facet pass now => Sys2Proof.Machine.execSliceEnd facet pass now s
  | .forcedRotation facet now => Sys2Proof.Machine.execForcedRotation facet now s
  | .piccoloPeriod half now => Sys2Proof.Machine.execPiccoloPeriod half now s
  | .retirementListAppend facet now => Sys2Proof.Machine.execRetirementListAppend facet now s
  | .scWatchdog half now => Sys2Proof.Machine.execScWatchdog half now s
  | .selfTestPeriodic half pass now => Sys2Proof.Machine.execSelfTestPeriodic half pass now s
  | .refclkSysStop now => Sys2Proof.Machine.execRefclkSysStop now s
  | .serdesRefclkLoss quarter now => Sys2Proof.Machine.execSerdesRefclkLoss quarter now s
  | .ppsIn now => Sys2Proof.Machine.execPpsIn now s
  | .getIdentity req => Sys2Proof.Machine.execGetIdentity req s
  | .telemetryRead req payload => Sys2Proof.Machine.execTelemetryRead req payload s
  | .eventLogRead req payload => Sys2Proof.Machine.execEventLogRead req payload s
  | .powerCeiling req payload => Sys2Proof.Machine.execPowerCeiling req payload s
  | .leadStatus req => Sys2Proof.Machine.execLeadStatus req s
  | .maintStop req => Sys2Proof.Machine.execMaintStop req s
  | .stageBegin req payload => Sys2Proof.Machine.execStageBegin req payload s
  | .stageData req payload => Sys2Proof.Machine.execStageData req payload s
  | .stageCommit req ok info => Sys2Proof.Machine.execStageCommit req ok info s
  | .stageStatus req => Sys2Proof.Machine.execStageStatus req s
  | .lifecycleChallenge req => Sys2Proof.Machine.execLifecycleChallenge req s
  | .lifecycleToken req payload ecdsaOk mldsaOk => Sys2Proof.Machine.execLifecycleToken req payload ecdsaOk mldsaOk s
  | .zeroise req => Sys2Proof.Machine.execZeroise req s
  | .clearRetired req => Sys2Proof.Machine.execClearRetired req s
  | .selftestRun req pass => Sys2Proof.Machine.execSelftestRun req pass s
  | .setEndpointId half path eid now => Sys2Proof.Machine.execSetEndpointId half path eid now s
  | .getEndpointId half path now => Sys2Proof.Machine.execGetEndpointId half path now s
  | .getEndpointUuid half path now => Sys2Proof.Machine.execGetEndpointUuid half path now s
  | .getMctpVersionSupport half path now => Sys2Proof.Machine.execGetMctpVersionSupport half path now s
  | .getMessageTypeSupport half path now => Sys2Proof.Machine.execGetMessageTypeSupport half path now s
  | .keyExchange half use ok officer now => Sys2Proof.Machine.execKeyExchange half use ok officer now s
  | .keyUpdate session now => Sys2Proof.Machine.execKeyUpdate session now s
  | .entdaa half addr => Sys2Proof.Machine.execEntdaa half addr s
  | .setdasa half static addr => Sys2Proof.Machine.execSetdasa half static addr s
  | .rstdaa half => Sys2Proof.Machine.execRstdaa half s
  | .enec half mask => Sys2Proof.Machine.execEnec half mask s
  | .disec half mask => Sys2Proof.Machine.execDisec half mask s
  | .getpid half => Sys2Proof.Machine.execGetpid half s
  | .getbcr half => Sys2Proof.Machine.execGetbcr half s
  | .getdcr half => Sys2Proof.Machine.execGetdcr half s
  | .getstatus half => Sys2Proof.Machine.execGetstatus half s
  | .setmrl half len => Sys2Proof.Machine.execSetmrl half len s
  | .getmrl half => Sys2Proof.Machine.execGetmrl half s
  | .setmwl half len => Sys2Proof.Machine.execSetmwl half len s
  | .getmwl half => Sys2Proof.Machine.execGetmwl half s
  | .rstact half => Sys2Proof.Machine.execRstact half s
  | .bypass => Sys2Proof.Machine.execBypass s
  | .idcode => Sys2Proof.Machine.execIdcode s
  | .samplePreload cells => Sys2Proof.Machine.execSamplePreload cells s
  | .extest => Sys2Proof.Machine.execExtest s
  | .clamp => Sys2Proof.Machine.execClamp s
  | .highz => Sys2Proof.Machine.execHighz s
  | .jtagPrivate code => Sys2Proof.Machine.execJtagPrivate code s
  | .trstN => Sys2Proof.Machine.execTrstN s
  | .portTrainingStart port now => Sys2Proof.Machine.execPortTrainingStart port now s
  | .portTrainingEnd port ok now => Sys2Proof.Machine.execPortTrainingEnd port ok now s
  | .pcieLinkState half speed width flit ide now => Sys2Proof.Machine.execPcieLinkState half speed width flit ide now s
  | .t1BufferZeroed base now => Sys2Proof.Machine.execT1BufferZeroed base now s
  | .spdmSessionEnd session now => Sys2Proof.Machine.execSpdmSessionEnd session now s
  | .entropyHealthFail half now => Sys2Proof.Machine.execEntropyHealthFail half now s
  | .msixVectorUnmask fn vector now => Sys2Proof.Machine.execMsixVectorUnmask fn vector now s

end Sys2Proof.Machine
end

