-- ==== Sys2Proof/Safety.lean ====
section
/-! DEFINITION. What claims are stated in: the invariant of the memories, a step that ends in a next state, and the words
in which the statements about facets, nodes and registers say what a command meets and leaves. -/

namespace Sys2Proof.Machine

open Sys2Proof

/-- Both memories are in canonical form. -/
def State.memOk (s : State) : Prop := s.mem.wf = true ∧ s.host.wf = true

/-- A step that ends in a next state. -/
def State.runs (s : State) : Prop := ∃ t, step s = .next t

/-- A state whose device is replaced and which is otherwise as before: both memories and the queue stay. -/
def State.withDev (s : State) (d : Dev) : State := { s with dev := d }

/-- The device of a state at the time of a command. -/
def State.devAt (s : State) (now : Nat) : Dev := s.dev.at_ now

/-! ### Facets -/

/-- A scalar register as a word; S0 reads 0 (R143). -/
def FacetRun.sreg (r : FacetRun) (i : Nat) : Word64 := if i = 0 then 0 else nth r.s i 0

/-- A scalar register takes a word; S0 ignores writes (R143). -/
def FacetRun.setS (r : FacetRun) (i : Nat) (x : Word64) : FacetRun := if i = 0 then r else { r with s := setNth r.s i x }

/-- The run after an instruction that goes on with the next one. -/
def FacetRun.onward (r : FacetRun) : FacetRun := { r with pc := r.pc + 1, steps := r.steps + 1, waiting := none }

/-- The run after an instruction that goes on at another one. -/
def FacetRun.goto (r : FacetRun) (pc : Int) : FacetRun := { r with pc := pc, steps := r.steps + 1 }

/-- Facet `f` holds the run `r`: its code is loaded, its instance has not ended and its node does not stall on shadow frames
(R328), and the word at its pc is `word`, well encoded, with opcode `op` (R155 to R157). -/
def State.atInstr (s : State) (f op word : Nat) (r : FacetRun) : Prop :=
  s.dev.run f = some r ∧ r.loaded = true ∧ r.drain = false ∧ r.word = some word ∧ encodingOk word = true
    ∧ word / 2 ^ 56 = op ∧ s.dev.nodeStalled r = false

/-- Nothing but the run of facet `f`, and device time, differs. -/
def State.withRun (s : State) (f now : Nat) (r : FacetRun) : State := s.withDev ((s.devAt now).setRun f r)

/-- IMM, sign-extended to 64 bits (R156). -/
def immWord (word : Nat) : Word64 := (BitVec.ofNat 32 word).signExtend 64

/-- The operations of R159 on S[SA], S[SB] and IMM, by opcode. -/
def scalarOps (f now : Nat) : List (Instr × Nat × (Word64 → Word64 → Word64 → Word64)) :=
  [(.addS f now, 0x10, fun a b _ => a + b),
   (.addi f now, 0x11, fun a _ i => a + i),
   (.subS f now, 0x12, fun a b _ => a - b),
   (.mulS f now, 0x13, fun a b _ => a * b),
   (.andS f now, 0x14, fun a b _ => a &&& b),
   (.orS f now, 0x15, fun a b _ => a ||| b),
   (.xorS f now, 0x16, fun a b _ => a ^^^ b),
   (.shl f now, 0x17, fun a b i => a <<< ((b + i).toNat % 64)),
   (.shr f now, 0x18, fun a b i => a >>> ((b + i).toNat % 64)),
   (.minS f now, 0x19, fun a b _ => if a.sle b then a else b),
   (.maxS f now, 0x1A, fun a b _ => if b.sle a then a else b),
   (.li f now, 0x1B, fun _ _ i => i),
   (.lih f now, 0x1C, fun a _ i => (i <<< 32) ||| (a &&& 0xFFFFFFFF))]

/-- The branch conditions of COND (R156), on words. -/
def branchTaken (cond : Nat) (a b : Word64) : Bool :=
  match cond with
  | 0 => a == b
  | 1 => a != b
  | 2 => a.slt b
  | 3 => !a.slt b
  | 4 => a.ult b
  | _ => !a.ult b

/-- OFFSET, signed (R156). -/
def branchOff (word : Nat) : Int := (BitVec.ofNat 24 word).toInt

/-- The special values of R160 but DEVICE_TIME. -/
def specialValues (d : Dev) (r : FacetRun) : List (Nat × Nat) :=
  [(0x00, r.index), (0x01, r.count), (0x02, r.job), (0x03, d.me), (0x05, r.slotBase), (0x06, r.slotSec), (0x07, r.slotTiles),
   (0x08, r.scratchSec), (0x09, ofBytes ((r.nb.drop 0x10).take 8)), (0x0A, if r.strict then 1 else 0)]
    ++ (List.range 12).map fun i => (0x10 + i, ofBytes ((r.nb.drop (0x20 + 8 * i)).take 8))

/-- The lane-by-lane operations of R163, by opcode. -/
def laneOps (f now : Nat) : List (Instr × Nat × (Nat → Nat → Nat → Nat)) :=
  [(.vadd f now, 0x40, fun a b _ => fadd a b),
   (.vsub f now, 0x41, fun a b _ => fsub a b),
   (.vmul f now, 0x42, fun a b _ => fmul a b),
   (.vfma f now, 0x43, fun a b c => ffma a b c),
   (.vmax f now, 0x44, fun a b _ => fmax a b),
   (.vmin f now, 0x45, fun a b _ => fmin a b),
   (.vcmplt f now, 0x46, fun a b _ => if flt a b then 0x3F800000 else 0),
   (.vsel f now, 0x47, fun a b c => if (f32 c).isZero then b else a)]

/-- The functions of R164, by opcode. -/
def specialOps (f now : Nat) : List (Instr × Nat × SpFn) :=
  [(.expV f now, 0x50, .exp), (.exp2 f now, 0x51, .exp2), (.ln f now, 0x52, .ln), (.log2 f now, 0x53, .log2),
   (.rcp f now, 0x54, .rcp), (.sqrt f now, 0x55, .sqrt), (.rsqrt f now, 0x56, .rsqrt), (.tanh f now, 0x57, .tanh),
   (.sigmoid f now, 0x58, .sigmoid), (.silu f now, 0x59, .silu), (.erf f now, 0x5A, .erf), (.gelu f now, 0x5B, .gelu)]

/-- What a remote instruction needs besides its operands: remote access of the job, an aligned offset below 2^40 and a
device that can be reached (R183, R186). -/
def State.remoteOk (s : State) (now : Nat) (r : FacetRun) (word align : Nat) : Prop :=
  (∃ j, s.dev.job r.job = some j ∧ j.remote = true) ∧ r.xOff word % align = 0 ∧ r.xOff word < 2 ^ 40
    ∧ (s.devAt now).reachable (r.xDev word) = true

/-- A working state whose facet `f` holds another run. -/
def Wk.thenRun (w : Wk) (f : Nat) (r : FacetRun) : Wk := w.upd (·.setRun f r)

/-- The working state in which a facet has stored so many bytes for its command. -/
def State.storing (s : State) (f now n : Nat) : Wk := (s.start.at_ now).fcount f Reg.TGU_FACET_EGRESS_BYTES_LO n

/-- A facet's local writes are staged whole: `w` is the working state that holds them, no earlier write of the command waits
for a frame, the frames for these are free, and the command keeps within its shadow space (R187, R326 to R328). -/
def State.stages (s : State) (f now : Nat) (r : FacetRun) (rs : List Run) (w : Wk) : Prop :=
  w = (s.storing f now (sumBy rs fun x => x.bytes.length)).upd
        (fun d => d.onNode r.seq r.node fun n => { n with staged := n.staged ++ rs })
    ∧ ∃ m, (s.storing f now (sumBy rs fun x => x.bytes.length)).dev.node r.seq r.node = some m ∧ m.held = []
      ∧ (s.storing f now (sumBy rs fun x => x.bytes.length)).dev.runsFit m rs = true
      ∧ shadowBytes .west (m.ownRuns ++ rs) ≤ 2 ^ 30 ∧ shadowBytes .east (m.ownRuns ++ rs) ≤ 2 ^ 30

/-! ### Nodes -/

/-- The TGU dispatches node `i` of instance `seq`: the order, successor list, shape and node reads of R310 to R322 hold,
and `w` is the working state that its opcode's own work starts from, with the instance `x`, the node `m` as the attempt
sees it, and the node's bytes `nb`. -/
structure State.Dispatches (s : State) (seq i op now : Nat) (can : Dev → Nat → Nat → Bool) (w : Wk) (x : Inst) (m : Node)
    (nb : List Byte) : Prop where
  inst : (s.devAt now).inst seq = some x
  ready : ∃ n, x.nodes[i]? = some n ∧ n.st = .ready ∧ n.remoteOff = false ∧ n.opcode = op
    ∧ (s.devAt now).dispatching = true ∧ can (s.devAt now) seq i = true
    ∧ ((s.devAt now).ring x.fn x.ring).held.length < 256
    ∧ (s.start.at_ now).outranked seq i x op (can (s.devAt now)) = false
    ∧ strayGradient op n.affinity = false
    ∧ ∃ ss v,
        (s.start.at_ now).succList x n = .ok ss
        ∧ (∀ k ∈ ss, k < x.nodes.length)
        ∧ (((s.start.at_ now).begun seq i x n).linked seq i ss).shapeOf x n = .ok v
        ∧ v ≠ some 0
        ∧ w = (((s.start.at_ now).begun seq i x n).linked seq i ss).shaped seq i v
  bytes : w.rdForm x.job x.fn (x.base + 128 * i) 128 = .ok nb
  node : w.dev.node seq i = some m

/-- What a dispatch leaves when the opcode's own work leaves `w`: grace timers that it makes due are started (R333). -/
def State.dispatchLeaves (s : State) (w : Wk) : State := s.put w.graceScan

/-! ### What arrives from the fabric -/

/-- The transaction that a command about a port handles: the first of its kind with nothing of its class and channel
before it (R366). -/
def State.arrives (s : State) (now port : Nat) (kind : Txn → Bool) (t : Txn) : Prop :=
  (s.devAt now).arrivedTxn port kind = some t

/-- What a command about a transaction starts from: device time moved, the transaction out of its receive buffer (R357). -/
def State.taking (s : State) (now port : Nat) (t : Txn) : Wk := (s.start.at_ now).upd (·.consume port t)

/-- What such a command leaves when its work leaves `w`: the port returns credits and sends what it can. -/
def State.handled (s : State) (port : Nat) (w : Wk) : State := s.put (w.upd fun d => if port = loopPort then d else d.drain port)

/-- No request of this SEQ of its source has been applied (R364). -/
def Wk.fresh (w : Wk) (t : Txn) : Prop := ∀ m ∈ (w.dev.winFor t.src t.seq).marks, m.1 ≠ t.seq

/-- The SEQ is marked with its status, its acknowledgement queued and held FENCEs answered (R364, R365, R381). -/
def Wk.marked (w : Wk) (t : Txn) (status : Nat) : Wk :=
  w.upd (·.seqDone t.src t.seq t.tc t.job status)

/-- A flit of a port is accepted and has its effect (R354): the port carries flits, the flit is whole and of the kind that the command
names, its number is the next, and it is no control flit that comes again behind a failed tag. -/
def Dev.accepts (d : Dev) (p seq : Nat) (ctrl : Option Nat) (flit : List Byte) : Prop :=
  let hdr := ofBytes (flit.take 2)
  d.portExists p = true ∧ (d.fport p).st ∈ [PortSt.training, .securing, .up] ∧ flit.length = 256
    ∧ ofBytes (flit.drop 252) = crc32c (flit.take 252) ∧ (if bit hdr 15 then some (bits hdr 8 7) else none) = ctrl
    ∧ seq = (d.fport p).rxNum ∧ ((d.fport p).redo = 0 ∨ ctrl = none ∨ ctrl = some 3)

/-- The port after an accepted flit: the next number, one more flit owed an acknowledgement, and what its header brings, or, in a tag
group, is to bring once the group is verified. -/
def Dev.acceptedPort (d : Dev) (p : Nat) (flit : List Byte) : FPort :=
  let hdr := ofBytes (flit.take 2)
  (d.fport p).accept (!bit hdr 15) hdr

/-- The payload of a flit. -/
def flitPayload (flit : List Byte) : List Byte := (flit.drop 2).take 250

/-- A MSG with one whole frame `f` arrives from a member of the group `g`, number `k`, for the operation `o` that the group
carries (R398, R399). -/
structure State.FrameComes (s : State) (now port kind : Nat) (t : Txn) (f : CeFrame) (k : Nat) (g : Group64) (o : CeOp) : Prop where
  arrives : s.arrives now port (·.startsWith kind) t
  fresh : (s.taking now port t).fresh t
  group : (s.devAt now).groupOf t = some (k, g)
  entry : (s.devAt now).group k = some g
  member : g.members.contains t.src = true
  frame : readFrames 256 t.data = some [f]
  kind_ : f.kind = kind
  epoch : f.epoch = g.epoch
  op : (s.devAt now).opOf k = some o
  id : (s.devAt now).op o.id = some o
  idx : o.group = k
  seq : f.seq = o.seq
  exch : exchKind kind = o.exch

/-- The stored tile that a data frame makes whole: its body, or both parts of it; none while the other part has not come
(R398). -/
def CeOp.whole (o : CeOp) (f : CeFrame) : Option (List Byte) :=
  if f.parts = 1 then some f.body
  else (o.first.find? fun x => x.kind = f.kind ∧ x.src = f.src ∧ x.index = f.index ∧ x.part ≠ f.part).map fun x =>
    if f.part = 1 then x.body ++ f.body else f.body ++ x.body

/-- What such a frame's work starts from: the operation has heard from a member. -/
def State.hearing (s : State) (now port : Nat) (t : Txn) (o : CeOp) : Wk :=
  (s.taking now port t).upd fun d => d.onOp o.id fun x => { x with heard := d.time }

/-! ### Registers -/

/-- A write of function `fn`, the PF or the standby function, to a half window acts at once (R547 to R551): the port carries
the function, the half's window lives, the device is READY and not stopped, and the half leads alone when the register is
one of the lead's only. -/
structure State.Acts (s : State) (fn : Nat) (win : Half) (now : Nat) (leadOnly : Bool) : Prop where
  port : ((s.devAt now).fnHalf fn).isSome = true
  who : fn = 0 ∨ fn = 0x40
  lives : (s.devAt now).windowLives win = true
  ready : (s.devAt now).top.ready = true
  runs : (s.devAt now).top.stopped = false
  lead : leadOnly = true → ((s.devAt now).top.lead.get win).leads win = true ∧ ((s.devAt now).top.lead.get win).st = .degraded

/-- A write of function `fn`, the PF or the standby function, to a register of the lead's only joins the writes that the next
batch takes to the shadow (R548): as for a write that acts at once, but the half leads in NORMAL. -/
structure State.Joins (s : State) (fn : Nat) (win : Half) (now : Nat) : Prop where
  port : ((s.devAt now).fnHalf fn).isSome = true
  who : fn = 0 ∨ fn = 0x40
  lives : (s.devAt now).windowLives win = true
  ready : (s.devAt now).top.ready = true
  runs : (s.devAt now).top.stopped = false
  leads : ((s.devAt now).top.lead.get win).leads win = true
  normal : ((s.devAt now).top.lead.get win).st = .normal

/-- What a register access that is answered with a Successful Completion starts from. -/
def State.posted (s : State) (now : Nat) : Wk := (s.start.at_ now).upd fun d => { d with resp := .ok }

/-- Such an access once its write has joined the writes for the next batch. -/
def State.joined (s : State) (now fn : Nat) (win : Half) (off : Nat) (v : Word32) : State :=
  s.put ((s.posted now).upd fun d => d.onTgu fun t => { t with lwrites := t.lwrites ++ [⟨fn, win, off, v, false⟩] })

/-- The low word that a pair takes at the write of its _HI: the one held since the last commit, else the live one (R8). -/
def Dev.heldLo (d : Dev) (h : Half) (off : Nat) : Nat :=
  match findRow off with
  | some row => ((aget d.hold (holdKey h row off)).getD (d.live h row off)).toNat
  | none => 0

/-- The device once the holding register of the pair whose _LO stands at an offset has been used. -/
def Dev.dropLo (d : Dev) (h : Half) (off : Nat) : Dev :=
  match findRow off with
  | some row => { d with hold := adel d.hold (holdKey h row off) }
  | none => d

/-! ### Management -/

/-- The message that a request over the mailbox takes from the buffer. -/
def State.boxMsg (s : State) (r : Request) : List Byte :=
  (s.devAt r.now).mailbox r.half (((s.devAt r.now).top.sc.get r.half).mailLen + 1)

/-- A management request of a code reaches an SC that serves it in a role that permits it (R510 to R515, R521): `p` is its
payload and `tag` its tag. -/
structure State.Served (s : State) (r : Request) (code : Nat) (least : Role) (given p : List Byte) (tag : Nat) : Prop where
  serves : (s.devAt r.now).scServes r.half = true
  reach : (s.devAt r.now).pathUp r.half r.path = true
  ready : (s.devAt r.now).endpointReady r.half r.path = true
  payload : p = if r.path = .mailbox then (s.boxMsg r).drop 5 else given
  tag_ : tag = if r.path = .mailbox then fld (s.boxMsg r) 2 1 else r.tag
  size : p.length + 8 ≤ 16384
  box : r.path = .mailbox → fld (s.boxMsg r) 0 1 = code
  life : (s.devAt r.now).top.lifecycle = .decommissioned → code ∈ [1, 2, 3]
  role : ∃ role, (s.devAt r.now).roleOf r = some role ∧ least.allows role = true

/-- What a served request leaves when its own work leaves `w`: its answer goes out, unless the SC has stopped. -/
def State.answers (s : State) (r : Request) (code tag : Nat) (w : Wk) (completion : Nat) (body : List Byte) : State :=
  s.put (if (w.dev.top.sc.get r.half).st ≠ .booted then w
         else w.upd (·.sendMctp r.half r.path (mgmtResponse code tag completion body)))

end Sys2Proof.Machine
end

