-- ==== Sys2Proof/Certificates/Slice0/Obligations.lean ====
section
/-! DEFINITION. The statements for the provers. -/

open Sys2Proof Sys2Proof.Machine

/-- A step runs the command at the front of the queue with the queue's rest, and idles on an empty queue. For every
command c and state s, a step of s with c put at the front of its queue is exec of c on s. The queue of waiting
commands is the model's own (assumption 6). A step of a state whose queue is empty answers that state unchanged.
DESIGN CHOICE of the model, assumption 6: the spec gives no queue and the model no tick. (Derived from R308, R547,
R22, R24.) -/
def Obligations.FrontCommandRuns : Prop :=
  (∀ (c : Instr) (s : State), step { s with pending := c :: s.pending } = exec c s)
  ∧ (∀ s : State, s.pending = [] → step s = .next s)

/-- Every command ends in a next state and leaves the queue of waiting commands alone. For every command and every state,
exec answers a next state, never a fault or a refusal, whose queue is the queue before, and whose two memories are the
memories before with a list of stores made in order: no command changes a byte of memory that it does not store to.
(Derived from R445, R548.) -/
def Obligations.EveryCommandCompletes : Prop :=
  ∀ (c : Instr) (s : State), ∃ (t : State) (mw hw : List Run), exec c s = .next t ∧ t.pending = s.pending
    ∧ t.mem = s.mem.setRuns mw ∧ t.host = s.host.setRuns hw
    ∧ (s.memOk → ∀ a,
        ((∀ r ∈ mw, a < r.addr ∨ r.addr + r.bytes.length ≤ a) → t.mem.get a = s.mem.get a)
        ∧ ((∀ r ∈ hw, a < r.addr ∨ r.addr + r.bytes.length ≤ a) → t.host.get a = s.host.get a))

/-- Every step keeps both memories in canonical form. For every state whose device memory and host memory are in canonical
form (addresses strictly rising, no byte listed that equals what an unlisted address reads as), any next state of a
step is again such a state. The canonical form is the model's representation of the memories (assumption 3). (Derived
from R237, R31.) -/
def Obligations.StepKeepsMemoriesCanonical : Prop :=
  ∀ s t : State, s.memOk → step s = .next t → t.memOk

/-- The memories are in canonical form at reset, and nothing waits. State.reset has both memories in canonical form with
nothing listed, and an empty queue. (Derived from R499, R491.) -/
def Obligations.ResetMemoriesCanonical : Prop :=
  State.reset.memOk ∧ State.reset.mem = [] ∧ State.reset.host = [] ∧ State.reset.pending = []

/-- The scalar operations work modulo 2^64 and the vector operations lane by lane, and change only their destination. For
ADD, ADDI, SUB, MUL, AND, OR, XOR, SHL, SHR, MIN, MAX, LI and LIH: when a facet stands at a well encoded word of that
opcode, the command answers the state in which S[SD] holds the result of R159 on S[SA], S[SB] and IMM (S0 reads 0 and
ignores the write), the pc is one instruction further, and every other register, all of memory and the rest of the
device are unchanged but for the time. VADD, VSUB, VMUL, VFMA, VMAX, VMIN, VCMPLT and VSEL: lane i of VD becomes the
operation of R163 on lanes i of VA, VB and VC, for every lane that VA and VB both have; the pc goes on and nothing
else of the state changes but the time. VBCAST, VEXT, VRSUM, VRMAX, VLDA, VSTA and the special functions complete too,
and are framed: the run goes on at the next instruction with its tile pointers, scratch, call stack and log as they
were; VEXT changes S[SS] alone, VSTA its accumulator slot alone, the others VD alone. (Derived from R143, R155, R156,
R159, R163, R164, R177.) -/
def Obligations.FacetArithmetic : Prop :=
  (∀ (s : State) (f now word op : Nat) (r : FacetRun) (c : Instr) (res : Word64 → Word64 → Word64 → Word64),
       (c, op, res) ∈ scalarOps f now → s.atInstr f op word r →
         exec c s = .next (s.withRun f now
           (r.setS (bits word 51 5) (res (r.sreg (bits word 46 5)) (r.sreg (bits word 41 5)) (immWord word))).onward))
  ∧ ((∀ (s : State) (f now word op : Nat) (r : FacetRun) (c : Instr) (lane : Nat → Nat → Nat → Nat),
       (c, op, lane) ∈ laneOps f now → s.atInstr f op word r →
         ∃ l : List Nat, exec c s = .next (s.withRun f now (r.setVec (bits word 51 5) l).onward)
           ∧ l.length = min (r.vec (bits word 46 5)).length (r.vec (bits word 41 5)).length
           ∧ ∀ i, i < l.length → nth l i 0 =
               lane (nth (r.vec (bits word 46 5)) i 0) (nth (r.vec (bits word 41 5)) i 0) (nth (r.vec (bits word 36 5)) i 0))
     ∧ (∀ (s : State) (f now word op : Nat) (r : FacetRun) (c : Instr),
       (c, op) ∈ [(Instr.vbcast f now, 0x48), (Instr.vext f now, 0x49), (Instr.vrsum f now, 0x4A), (Instr.vrmax f now, 0x4B),
         (Instr.vlda f now, 0x4E), (Instr.vsta f now, 0x4F), (Instr.expV f now, 0x50), (Instr.exp2 f now, 0x51), (Instr.ln f now, 0x52),
         (Instr.log2 f now, 0x53), (Instr.rcp f now, 0x54), (Instr.sqrt f now, 0x55), (Instr.rsqrt f now, 0x56), (Instr.tanh f now, 0x57),
         (Instr.sigmoid f now, 0x58), (Instr.silu f now, 0x59), (Instr.erf f now, 0x5A), (Instr.gelu f now, 0x5B)] →
       s.atInstr f op word r →
         ∃ q : FacetRun, exec c s = .next (s.withRun f now q) ∧ q.pc = r.pc + 1 ∧ q.tp = r.tp ∧ q.scratch = r.scratch ∧ q.calls = r.calls
           ∧ q.logUsed = r.logUsed
           ∧ (∀ i, ¬ (op = 0x49 ∧ i = bits word 10 5) → q.sreg i = r.sreg i)
           ∧ (∀ i, ¬ (op = 0x4F ∧ i = bits word 30 4) → q.slot i = r.slot i)
           ∧ (∀ i, op = 0x49 ∨ op = 0x4F ∨ i ≠ bits word 51 5 → q.vec i = r.vec i)))

/-- Control flow moves the pc as R158 says, and TRAP, a misused call stack or an ill-encoded word fails the command. At a
well encoded word: NOP goes on; BR goes to pc + OFFSET; BC branches when its condition holds on S[SA] and S[SB], else
goes on; LOOP writes S[SA] - 1 and branches while the register then reads non-zero (with S0 it never does); CALL with
fewer than 8 return addresses pushes the next address and branches; RET goes to the newest return address and drops
it. Nothing else of the state changes but the time. TRAP fails the command with KERNEL_TRAP (0x3A), its event carrying
OFFSET. CALL with 8 return addresses held, RET with none, any command of a facet instruction at a word that is not
well encoded, and one at a pc past the loaded code fail it with ILLEGAL_INSTRUCTION (0x39), the event carrying the
instruction's address. (Derived from R156, R157, R158, R444.) -/
def Obligations.FacetControlFlow : Prop :=
  (∀ (s : State) (f now word : Nat) (r : FacetRun),
       (s.atInstr f 0x00 word r → exec (.facetNop f now) s = .next (s.withRun f now r.onward))
       ∧ (s.atInstr f 0x02 word r → exec (.br f now) s = .next (s.withRun f now (r.goto (r.pc + branchOff word))))
       ∧ (s.atInstr f 0x03 word r → exec (.bc f now) s = .next (s.withRun f now
           (if branchTaken (bits word 43 3) (r.sreg (bits word 51 5)) (r.sreg (bits word 46 5)) then r.goto (r.pc + branchOff word)
            else r.onward)))
       ∧ (s.atInstr f 0x04 word r → exec (.loopInst f now) s = .next (s.withRun f now
           (let q := r.setS (bits word 51 5) (r.sreg (bits word 51 5) - 1)
            if q.sreg (bits word 51 5) ≠ 0 then q.goto (r.pc + branchOff word) else q.onward)))
       ∧ (s.atInstr f 0x05 word r → r.calls.length < 8 → exec (.callInst f now) s = .next (s.withRun f now
           ({ r with calls := (r.pc + 1) :: r.calls }.goto (r.pc + branchOff word))))
       ∧ (∀ a l, s.atInstr f 0x06 word r → r.calls = a :: l → exec (.retInst f now) s = .next (s.withRun f now
           ({ r with calls := l }.goto a))))
  ∧ (∀ (s : State) (f now word : Nat) (r : FacetRun),
       (s.atInstr f 0x07 word r →
         exec (.trap f now) s = .next (s.put ((s.start.at_ now).facetFail r 0x3A (bits word 0 24))))
       ∧ (s.atInstr f 0x05 word r → 8 ≤ r.calls.length →
         exec (.callInst f now) s = .next (s.put ((s.start.at_ now).facetFail r 0x39 (r.addr r.pc))))
       ∧ (s.atInstr f 0x06 word r → r.calls = [] →
         exec (.retInst f now) s = .next (s.put ((s.start.at_ now).facetFail r 0x39 (r.addr r.pc))))
       ∧ (s.dev.run f = some r → r.loaded = true → r.drain = false → s.dev.nodeStalled r = false → (∀ v, r.word = some v → encodingOk v = false) →
         exec (.addS f now) s = .next (s.put ((s.start.at_ now).facetFail r 0x39 (r.addr r.pc)))))

/-- RDSPEC, LD64, LD32 and STAGE_QUERY write what they read to S[SD]. RDSPEC writes the special value of its IMM;
DEVICE_TIME, allowed in Default mode only, is also counted as a timing-dependent choice; another IMM fails
ILLEGAL_INSTRUCTION. LD64 and LD32 write the 8 or 4 little-endian bytes that the command sees at S[SA] + IMM, zero-
extended, when the address is LOCAL, aligned and readable. STAGE_QUERY writes the bytes left of the 64 KiB commit-log
allowance. No other register and no memory changes. (Derived from R160, R159, R187, R167.) -/
def Obligations.FacetReads : Prop :=
  ∀ (s : State) (f now word : Nat) (r : FacetRun),
    (∀ x, s.atInstr f 0x1D word r → (bits word 0 32, x) ∈ specialValues (s.devAt now) r →
      exec (.rdspec f now) s = .next (s.withRun f now (r.setS (bits word 51 5) (BitVec.ofNat 64 x)).onward))
    ∧ (s.atInstr f 0x1D word r → bits word 0 32 = 4 → r.strict = false →
      exec (.rdspec f now) s = .next (s.put (((s.start.at_ now).facetTdc f r).thenRun f
        (r.setS (bits word 51 5) (BitVec.ofNat 64 (max s.dev.time now))).onward)))
    ∧ (s.atInstr f 0x1D word r → bits word 0 32 ≠ 4 → (∀ x, (bits word 0 32, x) ∉ specialValues (s.devAt now) r) →
      exec (.rdspec f now) s = .next (s.put ((s.start.at_ now).facetFail r 0x39 (r.addr r.pc))))
    ∧ (∀ (n op : Nat) (c : Instr) (m : Node) (bs : List Byte), (n, op, c) ∈ [(8, 0x1E, Instr.ld64 f now), (4, 0x1F, Instr.ld32 f now)] →
      s.atInstr f op word r →
      let a := (r.sreg (bits word 46 5) + immWord word).toNat
      isLocal a = true → a % n = 0 → (s.devAt now).node r.seq r.node = some m → (s.start.at_ now).rdNode r.job m a n = .ok bs →
      exec c s = .next (s.withRun f now (r.setS (bits word 51 5) (BitVec.ofNat 64 (ofBytes bs))).onward))
    ∧ (s.atInstr f 0x81 word r → exec (.stageQuery f now) s = .next (s.withRun f now
        (r.setS (bits word 51 5) (BitVec.ofNat 64 (65536 - r.logUsed))).onward))

/-- VBCAST, VEXT, VRSUM, VRMAX, VLDA, VSTA and the twelve special functions write only their destination. VBCAST puts the
low 32 bits of S[SS] in all 128 lanes; VEXT puts a lane, zero-extended, in S[SS]; VRSUM and VRMAX put the sum or
maximum by the fixed tree in lane 0 and +0 elsewhere; VLDA copies a chunk of 128 elements of an accumulator slot to VD
and VSTA a vector into a chunk of a slot; EXP, EXP2, LN, LOG2, RCP, SQRT, RSQRT, TANH, SIGMOID, SILU, ERF and GELU
apply their function to every lane of VA. Nothing else changes but the time. (Derived from R163, R177, R164, R178.) -/
def Obligations.FacetVectorMoves : Prop :=
  ∀ (s : State) (f now word : Nat) (r : FacetRun),
    (s.atInstr f 0x48 word r → exec (.vbcast f now) s = .next (s.withRun f now
      (r.setVec (bits word 51 5) (List.replicate 128 ((r.sreg (bits word 10 5)).toNat % 2 ^ 32))).onward))
    ∧ (s.atInstr f 0x49 word r → exec (.vext f now) s = .next (s.withRun f now
      (r.setS (bits word 10 5) (BitVec.ofNat 64 (nth (r.vec (bits word 46 5)) (bits word 3 7) 0))).onward))
    ∧ (s.atInstr f 0x4A word r → exec (.vrsum f now) s = .next (s.withRun f now
      (r.setVec (bits word 51 5) (tree fadd (r.vec (bits word 46 5)) :: List.replicate 127 0)).onward))
    ∧ (s.atInstr f 0x4B word r → exec (.vrmax f now) s = .next (s.withRun f now
      (r.setVec (bits word 51 5) (tree fmax (r.vec (bits word 46 5)) :: List.replicate 127 0)).onward))
    ∧ (s.atInstr f 0x4E word r → exec (.vlda f now) s = .next (s.withRun f now
      (r.setVec (bits word 51 5) (((r.slot (bits word 30 4)).drop (128 * bits word 25 5)).take 128)).onward))
    ∧ (s.atInstr f 0x4F word r → exec (.vsta f now) s = .next (s.withRun f now
      (r.setSlot (bits word 30 4) ((r.slot (bits word 30 4)).take (128 * bits word 25 5) ++ r.vec (bits word 46 5)
        ++ (r.slot (bits word 30 4)).drop (128 * bits word 25 5 + 128))).onward))
    ∧ (∀ c op fn, (c, op, fn) ∈ specialOps f now → s.atInstr f op word r → exec c s = .next (s.withRun f now
      (r.setVec (bits word 51 5) ((r.vec (bits word 46 5)).map (special fn))).onward))

/-- ACC_ZERO, ACC_LOAD, ACC_ADD, ACC_STORE and MMA write their slot or tile alone. ACC_ZERO makes the slot 4,096 zeros.
ACC_LOAD and ACC_ADD, on a dense tile at TPA, put fl(value) or fl(acc + value) in rows H × ARB to H × ARB + H - 1 and
keep every other element. ACC_STORE writes those rows, converted, to a dense tile at TPA that lies in the scratch.
MMA, on operand tiles that it accepts, leaves the slot as the pairs taken in order leave it and counts itself; a
dropped index under FAULT_ON_DROP fails it with SPARSE_FAULT, and a false zero-map makes its rows free values (R54).
(Derived from R54, R162, R172, R175, R207, R209.) -/
def Obligations.FacetAccumulators : Prop :=
  ∀ (s : State) (f now word : Nat) (r : FacetRun),
    let H := 64 / 2 ^ bits word 38 2
    let top := H * bits word 36 2
    let acc := bits word 52 4
    (s.atInstr f 0x33 word r → exec (.accZero f now) s = .next (s.withRun f now (r.setSlot acc (List.replicate 4096 0)).onward))
    ∧ (∀ c op add (t : Tile), (c, op, add) ∈ [(Instr.accLoad f now, 0x32, false), (Instr.accAdd f now, 0x34, true)] → s.atInstr f op word r →
      r.tile (r.ptr (bits word 46 6)) = .ok t → t.hdr.sparsity = 0 →
      ∃ l : List Nat, exec c s = .next (s.withRun f now (r.setSlot acc l).onward) ∧ l.length = (r.slot acc).length
        ∧ ∀ i, i < l.length → nth l i 0 =
            (if top ≤ i / 64 ∧ i / 64 < top + H then
              (if add then flc ((f32 (nth (r.slot acc) i 0)).add (t.view.val (i / 64 - top) (i % 64)))
               else fl (t.view.val (i / 64 - top) (i % 64)))
             else nth (r.slot acc) i 0))
    ∧ (∀ (t : Tile) (q : FacetRun), s.atInstr f 0x31 word r → r.tile (r.ptr (bits word 46 6)) = .ok t → t.hdr.sparsity = 0 →
      r.putTile (r.ptr (bits word 46 6))
        (storeAcc t.hdr ((s.start.at_ now).conv r (bits word 32 2) (bits word 24 8)) (r.slot acc) top H) = .ok q →
      exec (.accStore f now) s = .next (s.withRun f now q.onward))
    ∧ (∀ as bs : List Tile, s.atInstr f 0x30 word r →
      r.tiles (bits word 46 6) (2 ^ bits word 38 2) = .ok as → r.tiles (bits word 40 6) (2 ^ bits word 38 2) = .ok bs →
      ((as.zip bs).all fun p => pairOk p.1.hdr p.2.hdr (bit word 35) H) = true →
      let o := mmaPairs top H (bit word 35) r.sfod (if bit word 34 then setRows (r.slot acc) top H fun _ => 0 else r.slot acc) (as.zip bs)
      let w := (s.start.at_ now).mmaCount f r (2 ^ bits word 38 2) o
      let free := w.dev.drawMany (64 * H)
      exec (.mma f now) s = .next (s.put
        (if o.stop then w.facetFail r 0x31 0
         else if o.undef then { w with dev := free.1 }.thenRun f (r.setSlot acc (setRows o.acc top H fun i => nth free.2 (i - 64 * top) 0)).onward
         else w.thenRun f (r.setSlot acc o.acc).onward)))

/-- TPSET, TCOPY, TZERO, THDR, TCVT, VLD and VST move and convert tiles of the tile store. TPSET writes (S[SA] + IMM) mod
65,536 to the tile pointer. TCOPY copies the tile at TP2 to TP; TZERO zeroes a dense tile's payload and records its
zero-map; THDR rewrites header words 0x00 (ZMAP cleared), 0x08 and 0x0C when SPARSITY stays; TCVT converts the tile at
TP2 into a dense TP; VLD reads a chunk of a tile as values; VST converts VA into a chunk of a dense row-major tile and
clears its map. Each needs its tile readable and its target in the scratch; memory is unchanged. TCVT and VLD add the
decode counts of a sparse source to the command. (Derived from R161, R163, R176, R201.) -/
def Obligations.FacetTilesInTheStore : Prop :=
  ∀ (s : State) (f now word : Nat) (r : FacetRun),
    let tp := r.ptr (bits word 50 6)
    let vtp := r.ptr (bits word 30 6)
    let w := s.start.at_ now
    (s.atInstr f 0x20 word r → exec (.tpset f now) s = .next (s.withRun f now
      { r with tp := setNth r.tp (bits word 50 6) ((r.sreg (bits word 39 5) + immWord word).toNat % 65536) }.onward))
    ∧ (∀ (t : Tile) (q : FacetRun), s.atInstr f 0x23 word r → r.tile (r.ptr (bits word 44 6)) = .ok t → r.putTile tp t = .ok q →
      exec (.tcopy f now) s = .next (s.withRun f now q.onward))
    ∧ (∀ (t : Tile) (q : FacetRun), s.atInstr f 0x25 word r → r.tile tp = .ok t → t.hdr.sparsity = 0 →
      r.putTile tp ({ t with body := List.replicate t.body.length 0 } : Tile).mapped = .ok q →
      exec (.tzero f now) s = .next (s.withRun f now q.onward))
    ∧ (∀ (hb : List Byte) (q : FacetRun), s.atInstr f 0x24 word r → r.readSec tp 1 = .ok hb →
      let a := (r.sreg (bits word 39 5)).toNat
      let w0 := setBits (a % 2 ^ 32) 22 1 0
      sparsityFault (bits (ofBytes (hb.take 4)) 23 2) (bits w0 23 2) = false →
      r.writeSec tp (toBytes 4 w0 ++ (hb.drop 4).take 4 ++ toBytes 4 (a / 2 ^ 32 % 2 ^ 32)
        ++ toBytes 4 ((r.sreg (bits word 34 5)).toNat % 2 ^ 32) ++ toBytes 8 0
        ++ toBytes 4 (setBits (ofBytes ((hb.drop 24).take 4)) 0 8 0) ++ (hb.drop 28).take 4) = .ok q →
      exec (.thdr f now) s = .next (s.withRun f now q.onward))
    ∧ (∀ (t src : Tile) (q : FacetRun), s.atInstr f 0x29 word r → r.tile tp = .ok t → t.hdr.sparsity = 0 →
      r.tile (r.ptr (bits word 44 6)) = .ok src →
      let v := src.view
      let h := { t.hdr with rows := src.hdr.rows, cols := src.hdr.cols }
      ¬ (r.sfod = true ∧ v.drop ≠ 0) →
      let w' := (w.sparse f r Reg.TGU_SPARSE_BAD_GROUP_LO v.bad).sparse f r Reg.TGU_SPARSE_DROP_INDEX_LO v.drop
      r.putTile tp ({ hdr := h, body := packVals h (w'.conv r (bits word 32 2) (bits word 0 8)) v.val } : Tile).mapped = .ok q →
      exec (.tcvt f now) s = .next (s.put (w'.thenRun f q.onward)))
    ∧ (∀ t : Tile, s.atInstr f 0x4C word r → r.tile vtp = .ok t →
      let c := bits word 25 5
      let v := t.viewOf (chunkPick t.hdr c)
      ¬ (r.sfod = true ∧ v.drop ≠ 0) →
      exec (.vld f now) s = .next (s.put
        (((w.sparse f r Reg.TGU_SPARSE_BAD_GROUP_LO v.bad).sparse f r Reg.TGU_SPARSE_DROP_INDEX_LO v.drop).thenRun f
          (r.setVec (bits word 51 5) ((List.range 128).map fun i => fl (v.val (2 * c + i / 64) (i % 64)))).onward)))
    ∧ (∀ (t : Tile) (q : FacetRun), s.atInstr f 0x4D word r → r.tile vtp = .ok t → t.hdr.sparsity = 0 → t.hdr.byCol = false →
      let body := storeChunk t (w.conv r (bits word 23 2) (bits word 15 8)) (bits word 25 5) (r.vec (bits word 46 5))
      r.putTile vtp ({ t with body := body } : Tile).unmapped = .ok q →
      exec (.vst f now) s = .next (s.withRun f now q.onward))

/-- TLOAD, TLDR and TGATHER read tiles from memory; TSTORE and TSTR stage tiles for the commit. TLOAD of a whole stored
tile whose header tells its length and which opens without error puts the tile at TP and counts its bytes through
ingress. TSTORE stages the stored form of the tile at TP, with its zero-map and CRC, at a LOCAL, 32-byte aligned
address. TLDR fills the rows of a dense non-MX tile from strided rows; TSTR stages its rows; TGATHER gathers listed
rows of a grid. Staged writes stand in the node until its commit: memory itself is unchanged by every one of the five.
(Derived from R56, R57, R161, R187.) -/
def Obligations.FacetTilesAndMemory : Prop :=
  ∀ (s : State) (f now word : Nat) (r : FacetRun),
    let tp := r.ptr (bits word 50 6)
    let w := s.start.at_ now
    let a := (r.sreg (bits word 39 5) + immWord word).toNat
    (∀ (hb bs : List Byte) (n : Nat) (t : Tile) (q : FacetRun), s.atInstr f 0x21 word r → w.fread r a 32 32 = .ok hb →
      storedSectors hb = some n → w.fread r a (32 + 32 * n) 32 = .ok bs → openTile false bs = .ok t → r.putTile tp t = .ok q →
      exec (.tload f now) s = .next (s.put ((w.ingress f (32 + 32 * n)).thenRun f q.onward)))
    ∧ (∀ (t : Tile) (w' : Wk), s.atInstr f 0x22 word r → r.tile tp = .ok t → isLocal a = true → a % 32 = 0 →
      s.stages f now r [⟨a, t.facetStored⟩] w' → exec (.tstore f now) s = .next (s.put (w'.thenRun f r.onward)))
    ∧ (∀ (t : Tile) (b : List Byte) (q : FacetRun), s.atInstr f 0x27 word r → r.tile tp = .ok t → t.hdr.sparsity = 0 →
      isMx t.hdr.ty = false →
      let eb := elemBits t.hdr.ty / 8
      w.rowsIn r eb (t.hdr.cols * eb) (r.sreg (bits word 39 5)).toNat (r.sreg (bits word 34 5)).toNat t.hdr.rows t.body = .ok b →
      r.putTile tp ({ t with body := b } : Tile).unmapped = .ok q →
      exec (.tldr f now) s = .next (s.put ((w.ingress f (t.hdr.rows * (t.hdr.cols * eb))).thenRun f q.onward)))
    ∧ (∀ (t : Tile) (w' : Wk), s.atInstr f 0x28 word r → r.tile tp = .ok t → t.hdr.sparsity = 0 → isMx t.hdr.ty = false →
      let rs := rowsOut t (r.sreg (bits word 39 5)).toNat (r.sreg (bits word 34 5)).toNat
      (∀ x ∈ rs, isLocal x.addr = true) → s.stages f now r rs w' → exec (.tstr f now) s = .next (s.put (w'.thenRun f r.onward)))
    ∧ (∀ (t : Tile) (ent : List Byte) (rows : List (List Nat)) (n : Nat) (q : FacetRun), s.atInstr f 0x26 word r → r.tile tp = .ok t →
      t.hdr.sparsity = 0 → isMx t.hdr.ty = false →
      let es := if bits word 6 2 = 0 then 8 else 4
      let g := (r.sreg (bits word 39 5 + 1)).toNat
      w.fread r (r.sreg (bits word 34 5)).toNat (t.hdr.rows * es) 1 = .ok ent →
      let ix := (chunks es ent).map fun e => if es = 8 then ofBytes (e.drop 4) else ofBytes e
      w.gatherRows r t.hdr.ty (r.sreg (bits word 39 5)).toNat (bits g 0 16) (bits g 16 16) (bits g 32 32) ix = .ok (rows, n) →
      let body := packElems (elemBits t.hdr.ty) (rows.flatten ++ List.replicate (4096 - rows.flatten.length) 0)
      r.putTile tp ({ hdr := { t.hdr with cols := 64 }, body := body } : Tile).mapped = .ok q →
      exec (.tgather f now) s = .next (s.put (((w.sparse f r Reg.TGU_SPARSE_DROP_INDEX_LO n).ingress f
        ((ix.length - n) * 64 * (elemBits t.hdr.ty / 8))).thenRun f q.onward)))

/-- WAIT_PIECE, WAIT_ANY, RELEASE_SLOT, WAIT_GROUP, WAIT_COMPLETE and CODE_LOAD do what their operand is ready for.
WAIT_PIECE goes on when its slot of the ring holds a tile, or its piece of the arrival bitmap is done; else the facet
waits from now. WAIT_ANY returns the lowest unreturned piece of its window when that piece is done (in both modes),
and all ones when every piece has been returned. RELEASE_SLOT frees its slot, which a replay fills again. WAIT_GROUP
goes on when its group has no outstanding load. WAIT_COMPLETE takes a waiting instruction up again, to the same
outcome as the instruction's own command. CODE_LOAD puts the code that it reads into the instruction memory and counts
it through ingress. (Derived from R165, R179, R180, R182, R184, R147.) -/
def Obligations.FacetWaits : Prop :=
  ∀ (s : State) (f now word : Nat) (r : FacetRun),
    let w := s.start.at_ now
    let p := (r.sreg (bits word 41 5) + immWord word).toNat
    (s.atInstr f 0x60 word r → bit word 40 = false → r.slotTiles ≠ 0 →
      exec (.waitPiece f now) s = .next (if (nth r.ring (r.slotIdx word) none).isSome then s.put ((w.waited f r).thenRun f r.onward)
        else s.withRun f now { r with waiting := some (r.waiting.getD (max s.dev.time now)) }))
    ∧ (∀ b, s.atInstr f 0x60 word r → bit word 40 = true → s.dev.bitmap r.job (r.sreg (bits word 46 5)).toNat = some b → p ∈ b.done →
      exec (.waitPiece f now) s = .next (s.put (((w.waitsFor r b).waited f r).thenRun f r.onward)))
    ∧ (∀ b x, s.atInstr f 0x61 word r → s.dev.bitmap r.job (r.sreg (bits word 46 5)).toNat = some b → r.window = some x →
      x.handle = (r.sreg (bits word 46 5)).toNat → x.base = (r.sreg (bits word 41 5)).toNat → x.count = bits word 0 32 →
      match ((List.range x.count).map fun i => (x.base + i) % 2 ^ 64).filter fun p => ¬ x.returned.contains p with
      | [] => exec (.waitAny f now) s = .next (s.put (((w.waitsFor r b).waited f r).thenRun f (r.setS (bits word 51 5) (BitVec.allOnes 64)).onward))
      | low :: _ => low ∈ b.done → exec (.waitAny f now) s = .next (s.put (((w.waitsFor r b).waited f r).thenRun f
          ({ r with window := some { x with returned := x.returned ++ [low] } }.setS (bits word 51 5) (BitVec.ofNat 64 low)).onward)))
    ∧ (s.atInstr f 0x62 word r → r.slotTiles ≠ 0 →
      exec (.releaseSlot f now) s = .next (s.withRun f now ({ r with ring := setNth r.ring (r.slotIdx word) none }.refill).onward))
    ∧ (s.atInstr f 0x63 word r → nth r.groups (bits word 0 4) 0 = 0 →
      exec (.waitGroup f now) s = .next (s.put ((w.waited f r).thenRun f r.onward))
      ∧ (r.waiting.isSome = true → exec (.waitComplete f now) s = .next (s.put ((w.waited f r).thenRun f r.onward))))
    ∧ (∀ op c, (op, c) ∈ [(0x60, Instr.waitPiece f now), (0x61, Instr.waitAny f now), (0x63, Instr.waitGroup f now),
        (0x70, Instr.rload f now), (0x71, Instr.rloadt f now)] → s.atInstr f op word r → r.waiting.isSome = true →
      exec (.waitComplete f now) s = exec c s)
    ∧ (∀ (x : Inst) (bs : List Byte), s.dev.run f = some r → s.dev.inst r.seq = some x → r.loaded = false →
      let n := bits (fld r.nb 0x28 4) 0 13 + 1
      w.rdLocal r.job (fld r.nb 0x20 8) (8 * n) = .ok bs →
      exec (.codeLoad f now) s = .next (s.put ((w.ingress f (8 * n)).thenRun f
        { r with loaded := true, code := (chunks 8 bs).map fun c => BitVec.ofNat 64 (ofBytes c), started := max s.dev.time now })))

/-- RLOAD and RLOADT issue a counted load; RSTORE, RSTORET, RATOMIC and POST_NOTICE write the commit log alone. With
remote access enabled, an aligned offset below 2^40 and a reachable device: RLOAD and RLOADT, with fewer than 512
loads outstanding, count one load in their group, note what is awaited and send its reads. RSTORE and RSTORET log
their bytes, cut at 256 B, and RATOMIC its operands, after a probe of the region's rights; the log takes its cost from
the 64 KiB allowance. POST_NOTICE logs the 32-byte notice. With remote access disabled a remote instruction fails
REMOTE_DISABLED, to be re-run. (Derived from R166, R167, R183, R184, R185, R186, R188.) -/
def Obligations.FacetRemoteAccess : Prop :=
  ∀ (s : State) (f now word : Nat) (r : FacetRun),
    let w := s.start.at_ now
    let dev := r.xDev word
    let reg := r.xReg word
    let off := r.xOff word
    let probed (q : FacetRun) (w : Wk) (rights : Nat) : Wk := w.upd fun d => d.probe (facetHalf f) q.seq q.node q.job dev reg off rights q.index
    (∀ c op tile sec n, (c, op, tile, sec, n) ∈
        [(Instr.rload f now, 0x70, false, r.xSec word + bits word 0 16, bits word 16 3 + 1), (Instr.rloadt f now, 0x71, true, r.xSec word, 1)] →
      s.atInstr f op word r → s.remoteOk now r word 32 → (tile = false → r.inScratch sec n = true) → r.outstanding < 512 →
      let g := bits word 31 4
      let x : Incoming := { id := r.nextLoad, group := g, sector := sec, tile := tile, len := 32 * n, loads := 1, dev := dev,
                            region := reg, off := off, parts := [] }
      let q := { r with groups := setNth r.groups g (nth r.groups g 0 + 1), incoming := r.incoming ++ [x], nextLoad := r.nextLoad + 1 }
      exec c s = .next (s.put (((w.fcount f Reg.TGU_FACET_RLOADS_LO 1).sendLoad f q x 0).thenRun f q.onward)))
    ∧ (∀ c op bs, (c, op, bs) ∈
        [(Instr.rstore f now, 0x72, r.readSec (r.xSec word + bits word 0 16) (bits word 16 3 + 1)),
         (Instr.rstoret f now, 0x73, (r.tile (r.xSec word)).map fun t => t.facetStored)] →
      s.atInstr f op word r → s.remoteOk now r word 32 → ∀ b : List Byte, bs = .ok b →
      let cost := sumBy (chunks 256 b) fun c => storeCost c.length
      r.logUsed + cost ≤ 65536 →
      let q := { r with logUsed := r.logUsed + cost, logAll := r.logAll + cost }
      exec c s = .next (s.put ((((probed q w (probeRights false true false)).fcount f Reg.TGU_FACET_EGRESS_BYTES_LO b.length).log q
        ((chunks 256 b).zipIdx.map fun c => LogEntry.write dev reg (off + 256 * c.2) c.1)).thenRun f q.onward)))
    ∧ (let op := bits word 27 4
       s.atInstr f 0x74 word r → s.remoteOk now r word (aopWidth op) → (dev = s.dev.me ∨ (s.devAt now).level dev ≠ 3) → r.logUsed + 32 ≤ 65536 →
       let v := (r.sreg (bits word 51 5)).toNat
       let bs := if op = 6 then toBytes 8 v ++ toBytes 8 (r.sreg (bits word 51 5 + 1)).toNat else toBytes 8 (v % 2 ^ (8 * aopWidth op))
       let q := { r with logUsed := r.logUsed + 32, logAll := r.logAll + 32 }
       exec (.ratomic f now) s = .next (s.put ((((probed q w (probeRights false false true)).fcount f Reg.TGU_FACET_EGRESS_BYTES_LO bs.length).log q [.atomic dev reg off op bs]).thenRun f q.onward)))
    ∧ (s.atInstr f 0x80 word r → r.logUsed + 32 ≤ 65536 →
       let a := bits word 46 5
       let x := (r.sreg a).toNat
       let q := { r with logUsed := r.logUsed + 32, logAll := r.logAll + 32 }
       exec (.postNotice f now) s = .next (s.put (((w.fcount f Reg.TGU_FACET_EGRESS_BYTES_LO 32).log q [.notice
         (toBytes 4 (bits x 48 16 * 2 ^ 16 + bits x 32 16) ++ toBytes 4 (bits x 0 32) ++ toBytes 4 ((r.sreg (a + 1)).toNat % 2 ^ 32)
           ++ toBytes 4 r.job ++ toBytes 8 (r.sreg (a + 2)).toNat ++ toBytes 8 (r.sreg (a + 3)).toNat)]).thenRun f q.onward)))
    ∧ (∀ c op, (c, op) ∈ [(Instr.rload f now, 0x70), (Instr.rloadt f now, 0x71), (Instr.rstore f now, 0x72), (Instr.rstoret f now, 0x73),
        (Instr.ratomic f now, 0x74)] → s.atInstr f op word r → (∀ j, s.dev.job r.job = some j → j.remote = false) →
      exec c s = .next (s.put (w.remoteDisabled f r)))

/-- END takes the facet to the next instance of its command, or ends the command when it was the last. For an instance
without a slot ring. While instances are left and the facet may go on (not quarantined, no READY node of higher
priority that could use it, log space left), END starts the next logical index in the state of R151. Otherwise the
facet leaves the command, and when every instance has ended the engine reports the command complete. In both cases the
instance is counted. FACET_WATCHDOG fails a command whose instance has run longer than TGU_FACET_WATCHDOG with
WATCHDOG. (Derived from R152, R188, R191, R321.) -/
def Obligations.FacetInstanceEnds : Prop :=
  ∀ (s : State) (f now word : Nat) (r : FacetRun) (x : Inst) (n : Node),
    s.dev.inst r.seq = some x → s.dev.node r.seq r.node = some n →
    let w := ((s.start.at_ now).fcount f Reg.TGU_FACET_INSTANCES_LO 1).upd fun d =>
      (d.addActs r.seq r.node [.count (facetHalf f) Reg.TGU_FACET_LOG_BYTES_LO r.logUsed]).onNode r.seq r.node fun n =>
        { n with ended := n.ended + 1, logBy := if r.logUsed = 0 then n.logBy else n.logBy ++ [(f, r.logUsed, r.index)] }
    let goesOn := n.nextIndex < r.count ∧ (w.dev.picOf f).quar = false ∧ w.higherWants f x = false ∧ (w.dev.dropRun f).withRoom [f] ≠ []
    (s.atInstr f 0x01 word r → r.slotTiles = 0 → goesOn →
      exec (.endInst f now) s = .next (s.put (w.upd fun d =>
        (d.setRun f { ({ r with steps := r.steps + 1 } : FacetRun).reset n.nextIndex d.time with logAll := r.logAll, nextLoad := r.nextLoad }).onNode
          r.seq r.node fun n => { n with nextIndex := n.nextIndex + 1 })))
    ∧ (s.atInstr f 0x01 word r → r.slotTiles = 0 → ¬ goesOn →
      exec (.endInst f now) s = .next (s.put
        (if n.ended + 1 = r.count then (w.upd (·.leaveFacet f)).upd (·.engineDone r.seq r.node) else w.upd (·.leaveFacet f))))
    ∧ (let us := (s.devAt now).rn (facetHalf f) Reg.TGU_FACET_WATCHDOG
       s.dev.run f = some r → r.loaded = true → r.drain = false → us ≠ 0 → r.started + 1000 * us < max s.dev.time now →
       exec (.facetWatchdog f now) s = .next (s.put ((s.start.at_ now).facetFail r stWatchdog 0)))

/-- A node whose operands break its opcode's check fails with the status of that check. For NOP, HOST_SIGNAL, HOST_WAIT
(DESCRIPTOR_FORMAT), FREE, RELEASE, SHARE (BPM_OPERAND, 0x1A), COPY_T (TRANSPOSE_OPERAND), INGEST and WINDOW_GATHER
(MOVE_OPERAND): when the TGU dispatches the node and the check of its 128 bytes fails, the command answers the state
in which the attempt that has begun is ended with that status of class JOB_FATAL, and due grace timers start. (Derived
from R153, R216, R260, R270, R301, R302, R444.) -/
def Obligations.NodeFaultyOperandsFail : Prop :=
  ∀ (s : State) (i j now op status : Nat) (c : Instr) (can : Dev → Nat → Nat → Bool) (ok : List Byte → Bool) (w : Wk) (x : Inst) (m : Node)
    (nb : List Byte), (c, op, can, ok, status) ∈
      [(Instr.nopNode i j now, 0xF00, always, fun b => zeroFrom b 0x20, stFormat),
       (.hostSignal i j now, 0x601, always, signalOk, stFormat), (.hostWait i j now, 0x602, pollFree, waitOk, stFormat),
       (.freeBuf i j now, 0x401, always, bpmOperandsOk 0x401, 0x1A), (.release i j now, 0x402, always, bpmOperandsOk 0x402, 0x1A),
       (.shareBuf i j now, 0x403, always, bpmOperandsOk 0x403, 0x1A), (.copyT i j now, 0x301, always, copyTOk, stTranspose),
       (.ingest i j now, 0x302, always, ingestOk, stMove), (.windowGather i j now, 0x303, always, windowOk, stMove)] →
    s.Dispatches i j op now can w x m nb → ok nb = false → exec c s = .next (s.dispatchLeaves (w.fail i j status 0))

/-- NOP, HOST_SIGNAL, HOST_WAIT, HOST_WAIT_POLL and SNAPSHOT leave their node as R301, R302 and R480 say. Once dispatched
with sound operands: NOP is complete at once. HOST_SIGNAL is complete with its 8-byte write held for the commit (in
the commit log for a HOST address, as a staged write, or as an addition), and its interrupt when asked. HOST_WAIT
whose word already satisfies the condition is complete; a poll of it that falls due and reads a satisfying word
completes it. SNAPSHOT on a 16-byte aligned result asks for a cut and waits for it, or is woken at once when nothing
is protected. (Derived from R301, R302, R324, R480.) -/
def Obligations.HostNodesComplete : Prop :=
  ∀ (s : State) (i j now : Nat) (w : Wk) (x : Inst) (m : Node) (nb : List Byte),
    (s.Dispatches i j 0xF00 now always w x m nb → zeroFrom nb 0x20 = true →
      exec (.nopNode i j now) s = .next (s.dispatchLeaves (w.upd (·.engineDone i j))))
    ∧ (s.Dispatches i j 0x601 now always w x m nb → signalOk nb = true →
      let a := fld nb 0x20 8
      let v := fld nb 0x28 8
      let c := fld nb 0x30 4
      let irq := if bit c 7 then [(0, LogEntry.irq (bits c 2 5))] else []
      exec (.hostSignal i j now) s = .next (s.dispatchLeaves
        ((if addrForm a = 2 then w.upd fun d => d.onNode i j fun n => { n with log := (0, LogEntry.hostWrite (busAddr a) (toBytes 8 v)) :: irq }
          else if bits c 0 2 = 1 then w.upd fun d => d.onNode i j fun n => { n with acts := [.add64 a v], log := irq }
          else (w.upd fun d => d.onNode i j fun n => { n with log := irq }).stage i j [⟨a, toBytes 8 v⟩]).upd (·.engineDone i j))))
    ∧ (∀ bs, s.Dispatches i j 0x602 now pollFree w x m nb → waitOk nb = true →
      w.rdForm x.job x.fn (fld nb 0x20 8) 8 = .ok bs → condHolds (bits (fld nb 0x30 4) 0 3) (ofBytes bs) (fld nb 0x28 8) = true →
      exec (.hostWait i j now) s = .next (s.dispatchLeaves (w.upd (·.engineDone i j))))
    ∧ (∀ next addr value cond poll timeout bs, s.dev.inst i = some x → s.dev.node i j = some m → m.st = .running →
      m.eng = .polling next addr value cond poll timeout → next ≤ max s.dev.time now →
      (s.start.at_ now).rdForm x.job x.fn addr 8 = .ok bs → condHolds cond (ofBytes bs) value = true →
      exec (.hostWaitPoll i j now) s = .next (s.withDev ((s.devAt now).engineDone i j)))
    ∧ (s.Dispatches i j 0x700 now always w x m nb → addrForm (fld nb 0x20 8) = 0 → fld nb 0x20 8 % 16 = 0 →
      zeroFrom nb 0x28 = true →
      let guarded := match w.dev.job x.job with | some k => k.guarded | none => false
      let v := (w.cutRequest 4).upd fun d => (d.onNode i j fun k => { k with eng := .cutting }).onMir fun q =>
        { q with waits := q.waits.filter (fun y => ¬ (y.inst = i ∧ y.node = j)) ++ [⟨i, j, w.dev.mir.openCut, fld nb 0x20 8, guarded⟩] }
      exec (.snapshot i j now) s = .next (s.dispatchLeaves (if w.dev.mirLive then v else v.mirWake (2 ^ 64) false)))

/-- KERNEL takes facets for its instances and MATMUL runs its C tiles. Once dispatched, past the training checks of its
handle and with sound operands, a KERNEL that is no stream consumer notes its count and FAULT_ON_DROP and spreads its
instances over free facets, lowest index first; a stream consumer with a feeding FETCH_EXPERTS is seated on one facet.
A MATMUL whose instances all end leaves its node complete with M_TILES × N_TILES instances ended. A RUNNING KERNEL
with instances left takes the facets that have become free. (Derived from R149, R150, R152, R153, R154, R209, R321.) -/
def Obligations.FacetNodesDispatch : Prop :=
  ∀ (s : State) (i j now : Nat) (w v : Wk) (x : Inst) (m : Node) (nb : List Byte),
    (s.Dispatches i j 0x100 now (s.start.at_ now).facetsFree w x m nb → (∀ k : Wk → Wk, w.withGradient i j x m none k = k v) →
      v.dev.kernelOk i j m nb = true → bit (kFlags nb) 1 = false →
      exec (.kernel i j now) s = .next (s.put (((((v.upd (·.latchSparse i j)).upd fun d => d.onNode i j fun n =>
        { n with count := bits (fld nb 0x30 4) 0 24 + 1 }).spread i j x nb).graceScan).upd (·.fetchScan))))
    ∧ (∀ ft n, s.Dispatches i j 0x100 now (s.start.at_ now).facetsFree w x m nb → (∀ k : Wk → Wk, w.withGradient i j x m none k = k v) →
      v.dev.kernelOk i j m nb = true → bit (kFlags nb) 1 = true → (v.dev.latchSparse i j).feeder i j m = some ft →
      (v.dev.latchSparse i j).node i j = some n →
      exec (.kernel i j now) s = .next (s.put ((((v.upd (·.latchSparse i j)).seatAlone i j x n nb ft (bits n.affinity 0 16)).graceScan).upd (·.fetchScan))))
    ∧ (s.dev.inst i = some x → s.dev.node i j = some m → m.st = .running → m.opcode = 0x100 → m.nextIndex < m.count →
      (s.devAt now).dispatching = true → (s.start.at_ now).outranked i j x 0x100 ((s.start.at_ now).facetsFree (s.devAt now)) = false →
      (s.start.at_ now).rdForm x.job x.fn (x.base + 128 * j) 128 = .ok nb →
      exec (.kernel i j now) s = .next (s.put ((s.start.at_ now).spread i j x nb)))
    ∧ (let b := matmulBytes m nb
       let total := mmM b * mmN b
       let a := (v.upd (·.latchSparse i j)).matmulAll i j x m b
       s.Dispatches i j 0x101 now (s.start.at_ now).facetsFree w x m nb →
       (∀ k : Wk → Wk, w.withGradient i j x m (some (bits (mmC b) 16 8, fld b 0x38 8, fld b 0x30 8, mmM b, mmN b)) k = k v) →
       matmulOk b = true → a.2 = false →
       exec (.matmul i j now) s = .next (s.put (((a.1.upd fun d =>
         (d.onNode i j fun n => { n with count := total, nextIndex := total, ended := total }).engineDone i j).graceScan).upd (·.fetchScan))))

/-- COPY, COPY_T, INGEST and WINDOW_GATHER hold what they wrote for the commit. Once dispatched with sound operands and
readable sources: COPY in bytes mode ends with the bytes of its source at DST; in TILES mode and in COPY_T, INGEST and
WINDOW_GATHER the work of the opcode is what their own functions give. Local writes are staged and the counts of R273
wait for the commit, so device memory itself is unchanged by the dispatch of each of the four. For runs of the LOCAL
and HOST forms and, where some are HOST addresses, a port that delivers: the TM's shared end of work sends the HOST
runs in order, adds the local runs to the node's staged writes and the counts to its acts, and reports the engine
complete. The local runs touch no byte of device memory before the commit. (Derived from R215, R216, R217, R218, R267,
R268, R269, R270, R273, R187, R237, R326.) -/
def Obligations.MoveNodesComplete : Prop :=
  (∀ (s : State) (i j now : Nat) (w : Wk) (x : Inst) (m : Node) (nb : List Byte),
       (∀ bs, s.Dispatches i j 0x300 now always w x m nb → copyOk nb = true →
         (bits (cpWord nb) 6 3 = 0 ∨ w.dev.compressible (fld nb 0x28 8) = true) → bit (cpWord nb) 0 = false →
         w.rdForm x.job x.fn (fld nb 0x20 8) (fld nb 0x30 8) = .ok bs →
         exec (.copy i j now) s = .next (s.dispatchLeaves (w.tmWrite i j x [⟨fld nb 0x28 8, bs⟩]
           [.count (w.dev.tmHalf x.fn (fld nb 0x28 8)) Reg.TM_BYTES_OUT_LO (fld nb 0x30 8)])))
       ∧ (s.Dispatches i j 0x300 now always w x m nb → copyOk nb = true →
         (bits (cpWord nb) 6 3 = 0 ∨ w.dev.compressible (fld nb 0x28 8) = true) → bit (cpWord nb) 0 = true →
         exec (.copy i j now) s = .next (s.dispatchLeaves (w.copyTiles i j x nb)))
       ∧ (∀ ts : List Tile, s.Dispatches i j 0x301 now always w x m nb → copyTOk nb = true →
         let rows := fld nb 0x30 2
         let cols := fld nb 0x32 2
         let dst := fld nb 0x28 8
         let ty := bits (fld nb 0x34 4) 24 8
         w.tmTiles x.job x.fn false (rows * cols) (fld nb 0x20 8) = .ok ts →
         (∀ p ∈ ts.zipIdx, p.1.hdr.sparsity = 0 ∧ p.1.hdr.trow = p.2 / cols ∧ p.1.hdr.tcol = p.2 % cols
           ∧ ((p.1.hdr.ty = tyInt32) ↔ ty = tyInt32)) → addrForm dst = 0 →
         let outs := ts.zipIdx.map fun t => (dst + (t.2 % cols * rows + t.2 / cols) * (32 * (1 + plainSectors ty 0)),
           (convTile t.1 (w.tmConv x.job (bits (fld nb 0x34 4) 2 2) (bits (fld nb 0x34 4) 16 8)) ty (bit (fld nb 0x34 4) 1) true
             (t.2 % cols) (t.2 / cols)).stored)
         exec (.copyT i j now) s = .next (s.dispatchLeaves (w.tmWrite i j x (outs.map fun o => ⟨o.1, o.2⟩)
           (tmCounts (w.dev.tmHalf x.fn dst) (outs.map (·.2))))))
       ∧ (s.Dispatches i j 0x302 now always w x m nb → ingestOk nb = true →
         exec (.ingest i j now) s = .next (s.dispatchLeaves (w.runIngest i j x nb)))
       ∧ (s.Dispatches i j 0x303 now always w x m nb → windowOk nb = true →
         exec (.windowGather i j now) s = .next (s.dispatchLeaves (w.runWindow i j x nb))))
  ∧ (∀ (w : Wk) (i j : Nat) (x : Inst) (rs : List Run) (acts : List CommitAct),
       (∀ r ∈ rs, addrForm r.addr ≠ 2 → isLocal r.addr = true) →
       ((∀ r ∈ rs, addrForm r.addr ≠ 2) ∨ w.dev.fnDelivers x.fn = true) →
       w.tmWrite i j x rs acts =
         ((((rs.filter fun r => addrForm r.addr = 2).foldl (fun w r => w.wrH (busAddr r.addr) r.bytes) w).upd fun d =>
           d.onNode i j fun n => { n with acts := n.acts ++ acts }).stage i j (rs.filter fun r => addrForm r.addr ≠ 2)).upd (·.engineDone i j))

/-- ALLOC takes a buffer at its dispatch, and FREE, RELEASE and SHARE wait for their commit. Once dispatched with sound
operands: an ALLOC that finds a place marks the buffer taken for its job and client, stages its 16-byte result record,
and leaves the page's commit act; one that is refused counts its refusal, and under ON_REFUSE RECORD stages a record
with the refusal's status and is complete, else fails with that status. FREE, RELEASE and SHARE leave only the act
that their commit takes. T1_BUFFER_ZEROED of a T1 buffer being freed, with no copy-back under way, makes its bytes 0
and returns it. (Derived from R258, R260, R261, R262, R263, R264, R272.) -/
def Obligations.BufferNodesComplete : Prop :=
  ∀ (s : State) (i j now : Nat) (w : Wk) (x : Inst) (m : Node) (nb : List Byte),
    let c := fld nb 0x38 4
    let place := if bit (bits c 0 16) 3 then w.dev.placePinned x.client (fld nb 0x30 8)
                 else w.dev.place x.client (fld nb 0x28 8) (bits c 0 16) (bits c 16 2)
    let ask := if bit (bits c 0 16) 3 then halfOf (fld nb 0x30 8) else if bits c 16 2 = 1 then Half.east else Half.west
    (∀ h p k, s.Dispatches i j 0x400 now always w x m nb → w.dev.allocOperandsOk nb = true → place = .ok (h, p, k) →
      let z := w.dev.poolSize h p
      let base := w.dev.poolBase h p + k * z
      let b : Buf := { half := h, pool := p, idx := k, base := base, size := z, st := .taken, holders := [x.job], owner := x.job,
                       client := x.client, flags := bits c 0 16, isSealed := false,
                       keyEpoch := match w.dev.job x.job with | some q => q.keyEpoch | none => 0 }
      let v := w.upd fun d => (d.onHost fun t => { t with bufs := t.bufs ++ [b] }).onNode i j fun n =>
        { n with result := 0, acts := [.alloc h p k (bits c 0 16), .count h Reg.BPM_ALLOC_OK_LO 1] }
      exec (.alloc i j now) s = .next (s.dispatchLeaves
        ((v.stage i j [⟨fld nb 0x20 8, allocRecord base (z / 4096) (if p < 8 then 1 else 2) h.code p 0⟩]).upd (·.engineDone i j))))
    ∧ (∀ st, s.Dispatches i j 0x400 now always w x m nb → w.dev.allocOperandsOk nb = true → place = .error st →
      exec (.alloc i j now) s = .next (s.dispatchLeaves
        (if bit c 18 then
          ((w.stage i j [⟨fld nb 0x20 8, allocRecord 0 0 0 ask.code 0 st⟩]).upd fun d =>
            d.onNode i j fun n => { n with result := st, acts := [.count ask (refusalCounter st) 1] }).upd (·.engineDone i j)
         else (w.upd fun d => d.count ask (refusalCounter st) 1).fail i j st 0)))
    ∧ (∀ cc op, (cc, op) ∈ [(Instr.freeBuf i j now, 0x401), (.release i j now, 0x402), (.shareBuf i j now, 0x403)] →
      s.Dispatches i j op now always w x m nb → bpmOperandsOk op nb = true →
      exec cc s = .next (s.dispatchLeaves ((w.upd fun d => d.onNode i j fun n =>
        { n with acts := [.bpm op (fld nb 0x20 8) (bits (fld nb 0x28 4) 0 20) (bits (fld nb 0x2C 4) 0 20) (bit (fld nb 0x30 4) 0)] }).upd
          (·.engineDone i j))))
    ∧ (let w := s.start.at_ now
       ∀ b, w.dev.host.bufs.find? (fun b => decide (b.base = i ∧ b.st = .freeing ∧ b.pool < 8)) = some b → w.dev.copyPending b.base b.size = false →
       exec (.t1BufferZeroed i now) s = .next (s.put ((w.wr b.base (List.replicate b.size 0)).upd fun d =>
         (d.onHost fun s => { s with bufs := s.bufs.filter fun c => ¬ (c.base = i ∧ c.st = .freeing) }).dropGoneSlots)))

/-- ROUTE, ROUTE_SCORED, FETCH_EXPERTS, COMBINE and COLLECTIVE take their place in their engine. Once dispatched with
sound operands: a route node of T > 0 tokens within its client's contexts enters the Prisms with nothing admitted and
asks for a generation; one of 0 tokens writes its empty area at once. A FETCH_EXPERTS with a readable demand begins
with it. A COMBINE whose area header is sound takes its slots and the notices held for it. A COLLECTIVE whose checks
pass begins its operation. (Derived from R68, R73, R90, R91, R101, R103, R119, R127, R130, R137, R400, R401.) -/
def Obligations.ExpertNodesDispatch : Prop :=
  ∀ (s : State) (i j now : Nat) (w : Wk) (x : Inst) (m : Node) (nb : List Byte),
    let w0 := s.start.at_ now
    (∀ c op scored, (c, op, scored) ∈ [(Instr.route i j now, 0x200, false), (.routeScored i j now, 0x201, true)] →
      s.Dispatches i j op now (fun d a b => { w0 with dev := d }.routeFree d a b) w x m nb →
      let t := m.shape.getD (rtTokens nb)
      let cut := w.dev.routeCut nb t
      routeOk scored nb t = true → cut ≤ w.dev.ctxLimit .west x.client → t - cut ≤ w.dev.ctxLimit .east x.client →
      let r : Route := { seq := i, node := j, job := x.job, client := x.client, scored := scored, nb := nb, t := t, cut := cut, gen := none,
                         admitted := ⟨0, 0⟩, aside := ⟨false, false⟩, stallAt := ⟨none, none⟩, stall := ⟨0, 0⟩, ord := m.dispOrd }
      let v := w.upd (·.onPrism fun p => { p with routes := p.routes ++ [r] })
      exec c s = .next (s.dispatchLeaves (if t = 0 then v.routeWrite r 0 [] [] else v.upd (·.drawGen i j))))
    ∧ (∀ dm, s.Dispatches i j 0x202 now (fun d a b => { w0 with dev := d }.fetchFree d a b) w x m nb → fetchOk nb = true →
      ((fetchOf i j x nb).mode = 2 → ∃ g, w.dev.group (fetchOf i j x nb).group = some g ∧ g.job = x.job) → w.demandOf (fetchOf i j x nb) = .ok dm →
      exec (.fetchExperts i j now) s = .next (s.dispatchLeaves (w.fetchBegin i j nb (fetchOf i j x nb) dm)))
    ∧ (∀ hdr, s.Dispatches i j 0x203 now (fun d a b => w0.lensFree d a b) w x m nb → w.rdLocal x.job (cbArea nb) 64 = .ok hdr →
      combineOk nb hdr x.job = true → (cbGrid nb = true ∨ (fld hdr 0 2 ≠ 0 ∧ (w.dev.liveBatch x.job (fld hdr 0 2)).isSome = true)) →
      exec (.combine i j now) s = .next (s.dispatchLeaves (w.combBegin i j x nb (fld hdr 0 2))))
    ∧ (∀ g o, s.Dispatches i j 0x500 now (fun d a b => { w0 with dev := d }.collFree d a b) w x m nb → w.collCheck i j x nb = .ok g o →
      exec (.collective i j now) s = .next (s.dispatchLeaves (w.collBegin i j x nb g o)))

/-- ASYNC_COPY_REMOTE, INVALIDATE, OWN_TRANSFER and FENCE leave their request for the commit or send their FENCEs. Once
dispatched with sound operands: ASYNC_COPY_REMOTE, its local range permitted and its device reachable, holds the
transfer in its commit log and probes the region; INVALIDATE and OWN_TRANSFER, the home device in reach of no gateway,
hold their INVALIDATE and wait for the job's released writes; FENCE with every destination reachable waits, and each
destination of its scope that holds unacknowledged requests of its job is sent a FENCE whose MARK is the SEQ of the
last request released toward it, once that request has taken its SEQ. (Derived from R370, R378, R379, R381, R385,
R386.) -/
def Obligations.FabricNodesDispatch : Prop :=
  ∀ (s : State) (i j now : Nat) (w : Wk) (x : Inst) (m : Node) (nb : List Byte),
    (let l := fld nb 0x20 8
     let r := fld nb 0x28 8
     let n := fld nb 0x30 8
     let c := fld nb 0x38 8
     let put := bit (fld nb 0x40 4) 18
     let dev := bits (fld nb 0x40 4) 0 18
     s.Dispatches i j 0x501 now always w x m nb → w.dev.asyncOk nb = true → w.dev.checkRange x.job l n (!put) = 0 →
     (put = false → c ≠ 0 → w.dev.checkRange x.job c 8 true = 0) → (put = true → w.dev.poisoned l n = false) → w.dev.reachable dev = true →
     exec (.asyncCopyRemote i j now) s = .next (s.dispatchLeaves (w.upd fun d =>
       ((d.onNode i j fun k => { k with log := [(0, if put then .put dev (regionId r) (regionOff r) l n c else .get dev (regionId r) (regionOff r) l n c)],
                                        eng := .complete }).probe d.leadHalf i j x.job dev (regionId r) (regionOff r)
         (if put then probeRights false true (c != 0) else probeRights true false false) 0))))
    ∧ (∀ cc op own, (cc, op, own) ∈ [(Instr.invalidate i j now, 0x503, false), (.ownTransfer i j now, 0x502, true)] →
      let home := fld nb 0x20 4
      let region := fld nb 0x24 4
      s.Dispatches i j op now always w x m nb → home < 2 ^ 18 → region < 2 ^ 18 →
      (if own then fld nb 0x28 4 < 2 ^ 18 ∧ zeroFrom nb 0x2C = true else zeroFrom nb 0x28 = true) →
      (if home = w.dev.me then (w.dev.regionOf x.job region).isSome = true else w.dev.level home ≠ 3) →
      exec cc s = .next (s.dispatchLeaves ((w.upd fun d => d.onNode i j fun k =>
        { k with log := [(0, .invalidate home region (if own then some (fld nb 0x28 4) else none))] }).invalidateCheck)))
    ∧ (let c := fld nb 0x20 4
       let scope := if bit c 31 then c % 2 ^ 18 else 2 ^ 18
       let dests := (w.dev.fab.dests.filter fun e => (bit c 31 = false ∨ e.1 = scope) ∧ e.2.owes fun t f => t.covered f x.job).map (·.1)
       let ask (d : Dev) (e : Nat) : Dev :=
         let y := d.dest e
         (d.setDest e { y with fences := y.fences ++ [⟨i, j, x.job, (y.nextSeq + 16383) % 16384, y.waiting.length, none, 0⟩] }).pump e
       s.Dispatches i j 0x600 now always w x m nb → bits c 18 13 = 0 → zeroFrom nb 0x24 = true →
       (bit c 31 = true → w.dev.reachable scope = true) → (∀ e ∈ dests, w.dev.reachable e = true) →
       exec (.fence i j now) s = .next (s.dispatchLeaves ((dests.foldl (fun w e => w.upd fun d => ask d e)
         (w.upd fun d => d.onNode i j fun k => { k with eng := .fencing [(scope, 0)] })).fenceCheck)))

/-- A node ready to commit takes the next slot, and commits when the shadow has acknowledged it or there is no shadow.
With a half in charge and the device not stopped. In NORMAL the running node that comes first in commit order becomes
COMMITTING and joins the batch for the shadow: no byte of memory changes. The acknowledged committing node that comes
first, or in DEGRADED the running one, with no epoch cut due, room for its notices, no frozen page under its writes
and no refusal of a write or of a buffer operation, takes steps 3 to 6. (Derived from R324, R325, R458, R470, R548.) -/
def Obligations.CommitTakesItsSlot : Prop :=
  ∀ (s : State) (i j now k : Nat) (h : Half) (x : Inst) (n : Node),
    let d := s.devAt now
    let cutDue := d.mir.asked.isSome && d.mirLive && d.mir.cut.isNone
    d.leadOf = some h → d.node i j = some n → d.inst i = some x → d.top.stopped = false → n.readyOrd = some k →
    (n.st = .running → d.top.degraded = false → d.nextToCommit .running k = true →
      exec (.nodeCommit i j now) s = .next (s.dispatchLeaves ((s.start.at_ now).upd fun d =>
        (d.onNode i j fun n => { n with st := .committing }).onTgu fun t => { t with batchOut := t.batchOut ++ [(i, j)] })))
    ∧ ((n.st = .running ∧ d.top.degraded = true ∧ d.nextToCommit .running k = true) ∨
       (n.st = .committing ∧ n.acked = true ∧ d.nextToCommit .committing k = true) → cutDue = false →
      let m := d.stampStatus n
      let w := m.writes.foldl (fun w r => w.mirHold r.1 r.2) (s.start.at_ now)
      w.noticesFit m = true → (∀ r ∈ m.writes, w.dev.frozen r.1 r.2 = []) → w.dev.writesRefused x.job m = none → w.dev.bpmRefused x.job m = none →
      exec (.nodeCommit i j now) s = .next (s.dispatchLeaves (w.commitNow i j x m)))

/-- COPY_BACK, SHADOW_DEADLOCK_KILL, GRACE_TIMER_EXPIRY, DEADLINE_EXPIRY, MODE_CHANGE and JOB_FATAL_STEP act on what is
due. COPY_BACK of a waiting frame takes it out of the frames that await copy-back and lets stalled attempts go on.
When every holder of frames in a half waits for shadow space that is not free, SHADOW_DEADLOCK_KILL kills the most
recently dispatched of the lowest priority and counts it. A grace timer of a READY node that has expired, with those
that have come due started first, pre-empts. An instance past its deadline is abandoned. With no instance in flight
ACTIVE takes STRICT. A JOB_FATAL status found after a commit halts the job. (Derived from R327, R328, R333, R335,
R341, R429, R447.) -/
def Obligations.SchedulerEvents : Prop :=
  ∀ (s : State) (now : Nat),
    let d := s.devAt now
    (∀ page, (∃ f ∈ s.dev.tgu.outFrames, f.page = page) → exec (.copyBack page now) s = .next (s.withDev
      (((d.onTgu fun t => { t with outFrames := t.outFrames.filter (·.page ≠ page) }).returnFreed).unstall)))
    ∧ (∀ h v, d.frameHolders h ≠ [] → (∀ u ∈ d.frameHolders h, u.2.2.2.2 = true) → pickVictim (d.frameHolders h) = some v →
      exec (.shadowDeadlockKill h now) s = .next (s.put
        (((s.start.at_ now).killRerun v.2.2.1 v.2.2.2.1 false).upd fun d => (d.count .west Reg.TGU_SHADOW_KILLS_LO 1).unstall)))
    ∧ (∀ i j g x n, let w := (s.start.at_ now).graceScan
      (w.dev.tgu.graces.find? fun g => g.inst = i ∧ g.node = j) = some g → w.dev.inst i = some x → w.dev.node i j = some n → g.dropped = none →
      g.due ≤ w.dev.time → n.st = .ready → w.dev.ringFull x = false → bit (w.dev.rn .west Reg.TGU_PREEMPT_CFG) 31 = true →
      exec (.graceTimerExpiry i j now) s = .next (s.dispatchLeaves
        (Wk.preempt i j x n (1 + sumBy w.dev.tgu.insts fun p => p.2.nodes.length) w)))
    ∧ (∀ i, i ∈ d.overdue d.time → exec (.deadlineExpiry i now) s = .next (s.put (((s.start.at_ now).abandon i).armWaiting)))
    ∧ (s.dev.top.strictReq ≠ s.dev.top.strict → s.dev.tgu.insts = [] →
      exec (.modeChange now) s = .next (s.withDev (d.onTop fun t => { t with strict := t.strictReq })))
    ∧ (∀ job status, (s.dev.job job).isSome = true → isJobFatal status = true →
      exec (.jobFatalStep job status now) s = .next (s.put ((s.start.at_ now).jobFatal job status)))

/-- FRAME_TICK_IN and INTERNAL_TICK run the tick, and DESCRIPTOR_ADMISSION admits the next sound descriptor. An edge under
SOURCE pin with RESET_N high, no nearer to the last accepted tick than MIN_US, and a device time that is a whole
multiple of PERIOD_US under SOURCE internal, run the tick; a nearer edge is only counted as ignored. The next exposed
descriptor of an enabled ring, with the TGU dispatching and no mode change open, sound, of the device's set-up and
with space for its nodes, leaves the ring, is counted, and becomes an instance or, under FRAME, an armed frame-locked
graph. (Derived from R293, R308, R309, R337, R339, R340.) -/
def Obligations.TicksAndAdmission : Prop :=
  ∀ (s : State) (now : Nat),
    let d := s.devAt now
    let w := s.start.at_ now
    let cfg := d.rn d.leadHalf Reg.TGU_TICK_CFG
    (bits cfg 30 2 = 1 → s.dev.top.resetN = true → (∀ t, s.dev.tgu.lastTick = some t → t + 1000 * bits cfg 0 16 ≤ d.time) →
      exec (.frameTickIn now) s = .next (s.put (w.tick d.time)))
    ∧ (∀ t, bits cfg 30 2 = 1 → s.dev.top.resetN = true → s.dev.tgu.lastTick = some t → d.time < t + 1000 * bits cfg 0 16 →
      exec (.frameTickIn now) s = .next (s.withDev (d.count .west Reg.TGU_TICKS_IGNORED_LO 1)))
    ∧ (bits cfg 30 2 = 2 → d.time % (1000 * d.rn d.leadHalf Reg.TGU_TICK_PERIOD) = 0 → s.dev.tgu.lastTick ≠ some d.time →
      exec (.internalTick now) s = .next (s.put (w.tick d.time)))
    ∧ (∀ fn r, let v := w.armWaiting
      let x := v.dev.ring fn r
      let g := v.rdH (v.dev.gsdAddr fn r x.sqHead) 64
      x.st = .enabled → x.exposed ≠ [] → v.dev.dispatching = true → (v.dev.func fn).pagesOn = true → v.dev.modeChanging = false →
      x.sqHead ∉ x.skip → v.dev.fnDelivers fn = true → gsdOk g (v.dev.ringJob fn r) = true → v.dev.setupOk (fld g 0x18 8) = true →
      v.dev.hasSpace (fld g 8 4) = true →
      let u := v.upd fun d => (d.passHead fn r).count (d.fnHome fn) Reg.HOST_GRAPHS_ADMITTED_LO 1
      exec (.descriptorAdmission fn r now) s = .next (s.dispatchLeaves
        (if bit (fld g 0x28 4) 0 then u.upd fun d => d.onTgu fun t =>
           { t with frames := t.frames ++ [(t.nextFrame, { fn := fn, ring := r, job := bits (fld g 0xC 4) 0 20, gsd := g, seq := t.nextFrame,
                                                            armed := true, given := 0, ticks := 0, waiting := [] })],
                    nextFrame := t.nextFrame + 1 }
         else u.createInst fn r g none 0 0 none)))

/-- The Prism, EFU and Lens events take effect on a node that waits for them. A route node whose turn it is but that
cannot be admitted notes the start of its stall; stalled for 4,096 facet clk it is set aside, and past
PRISM_ADMIT_TIMEOUT it fails CONTEXT_LIMIT; an admitted group takes contexts. A running fetch starts the next demanded
expert. A checked tile goes to every facet of its stream's plan once each has room. A fetch in the prefetch state
stages the next predicted expert. The oldest notice in transit reaches the Lens once there is room. (Derived from R90,
R91, R92, R106, R109, R111, R118, R130.) -/
def Obligations.PrismEfuLensEvents : Prop :=
  ∀ (s : State) (i j now : Nat) (h : Half),
    let d := s.devAt now
    let w := s.start.at_ now
    (∀ r, d.route_ i j = some r → r.open_ h = true → d.prismTurn h r = true → d.canAdmit h r = false → r.stallAt.get h = none →
      exec (.prismGroupAdmit i j h now) s = .next (s.withDev (d.onRoute i j fun r => { r with stallAt := r.stallAt.set h (some d.time) })))
    ∧ (∀ r, d.route_ i j = some r → r.open_ h = true → d.prismTurn h r = true → d.canAdmit h r = true →
      exec (.prismGroupAdmit i j h now) s = .next (s.put (w.groupTake i j h r)))
    ∧ (∀ r t, d.route_ i j = some r → r.stallAt.get h = some t → 4096 ≤ (d.time - t) * d.halfMhz h / 1000 →
      exec (.prismSetAside i j h now) s = .next (s.withDev (d.onRoute i j fun r => { r with aside := r.aside.set h true })))
    ∧ (∀ r k, d.route_ i j = some r → d.rn k Reg.PRISM_ADMIT_TIMEOUT ≠ 0 → 1000 * d.rn k Reg.PRISM_ADMIT_TIMEOUT < r.stalled k d.time →
      exec (.prismAdmitTimeout i j now) s = .next (s.put (w.fail i j stContext 0)))
    ∧ (∀ f n e, d.fetch i j = some f → d.node i j = some n → n.st = .running → f.st = .running → d.fetchNext f = some e →
      exec (.expertStart i j e now) s = .next (s.dispatchLeaves (w.expertBegin i j f e)))
    ∧ (∀ f e k t bs n raw first, d.fetch i j = some f → (f.streams.zipIdx.find? fun p => p.1.expert = e ∧ ¬ p.1.ended) = some (t, k) →
      (∀ u ∈ t.users, ∀ r, d.run u.2 = some r → r.hasRoom = true) → w.nextTile f t = .tile bs n raw first →
      exec (.tileMulticast i j e now) s = .next (s.put (w.sendTile f k t bs n raw first)))
    ∧ (∀ f, d.fetch i j = some f → f.st = .prefetch → exec (.prefetchStaging i j h now) s = .next (s.put (w.stageNext f h)))
    ∧ (∀ q l, s.dev.lens.transit = q :: l → w.noticeRoom q = true →
      exec (.resultNotice now) s = .next (s.put ((w.upd fun d => { d with lens := { d.lens with transit := l } }).handleNotice q)))

/-- READ, WRITE, ATOMIC, BULK and a delivered INVALIDATE act on memory at the translated address and are answered. For the
transaction that such a command handles, with its address translated to LOCAL address a: a READ, a BULK GET answers OK
with the bytes that stand at a. A WRITE of a SEQ not applied before, and a BULK segment that writes, puts its data at
a (but a WRITE that is the late DONE of a member declared lost stores nothing, R504); an ATOMIC that is not an ordered
addition puts the result of its AOP there; a MASKED segment writes the sectors that its mask names; a delivered
INVALIDATE adds 1 to the 64-bit counter. Each of these is marked with OK and acknowledged. Writes that a copy-back
holds up wait, so the statement asks that none does. (Derived from R361, R364, R365, R366, R368, R377, R378, R384.) -/
def Obligations.RequestsAreServed : Prop :=
  ∀ (s : State) (port now a : Nat) (t : Txn),
    let w := s.taking now port t
    let v := w.upd (·.winSeen t.src)
    (s.arrives now port (·.op == opRead) t → v.dev.translate t t.region t.off t.readBytes t.readNeed (t.readNeed.w || t.readNeed.a) = .ok a →
      (t.readBytes = 0 ∨ v.dev.poisonIn a t.readBytes = none) →
      exec (.readTx port now) s = .next (s.handled port (v.upd (·.respond (readResp v.dev.me t stOk (v.rdN a t.readBytes))))))
    ∧ (s.arrives now port (·.op == opBulk) t → bit t.len 7 = true →
      v.dev.translate t t.region t.off t.readBytes { r := true } false = .ok a → v.dev.poisonIn a t.readBytes = none →
      exec (.bulk port now) s = .next (s.handled port (v.upd (·.respond (readResp v.dev.me t stOk (v.rdN a t.readBytes))))))
    ∧ (s.arrives now port (·.op == opWrite) t → (s.devAt now).mustWait t = false → w.fresh t →
      w.dev.translate t t.region t.off t.data.length { w := true } true = .ok a →
      exec (.writeTx port now) s = .next (s.handled port
        ((if w.dev.startIgnores t then w else w.applyWrite a t.data).marked t stOk)))
    ∧ (s.arrives now port (·.op == opBulk) t → bit t.len 7 = false → (s.devAt now).mustWait t = false → w.fresh t →
      w.dev.translate t t.region t.off (if t.masked then 4096 else t.data.length) { w := true } true = .ok a →
      exec (.bulk port now) s = .next (s.handled port
        ((if t.masked then (maskedWrites a t.data).foldl (fun w r => w.applyWrite r.1 r.2) w else w.applyWrite a t.data).marked t stOk)))
    ∧ (s.arrives now port (·.op == opAtomic) t → (s.devAt now).mustWait t = false → w.fresh t →
      let n := aopWidth (t.len % 16)
      t.off % n = 0 → ¬ (t.ordered = true ∧ (t.len % 16 = 1 ∨ t.len % 16 = 2)) →
      w.dev.translate t t.region t.off n { a := true } true = .ok a →
      exec (.atomic port now) s = .next (s.handled port ((w.applyWrite a (toBytes n (atomicResult (t.len % 16) (ofBytes (w.rdN a n))
        (ofBytes (t.data.take 8)) (ofBytes (t.data.drop 8))))).marked t stOk)))
    ∧ (s.arrives now port (fun t => t.op == opInv && bit t.len 1) t → w.fresh t →
      w.dev.translate t t.region t.off 8 { inv := true } true = .ok a →
      exec (.fabInvalidateDeliver port now) s = .next (s.handled port
        ((w.applyWrite a (toBytes 8 ((ofBytes (w.rdN a 8) + 1) % 2 ^ 64))).marked t stOk)))

/-- A request whose checks fail changes no memory, and a repeated one is only acknowledged again. For a WRITE, an ATOMIC
at an aligned OFFSET and a delivered INVALIDATE: when its SEQ has not been applied and its translation answers a
status, the request is counted refused (in MEM_ACCESS_DENIED too when the refusal is that of R242, R271), marked with
that status and acknowledged with it. When its SEQ has been applied, the duplicate is counted and acknowledged again
with the status kept. Neither stores to memory. (Derived from R364, R365, R368, R370.) -/
def Obligations.RequestsRefusedOrRepeated : Prop :=
  ∀ (s : State) (port now n st : Nat) (t : Txn) (c : Instr) (kind : Txn → Bool) (need : Need),
    (c, kind, n, need) ∈ [(Instr.writeTx port now, (fun t => t.op == opWrite), t.data.length, { w := true }),
      (.atomic port now, (fun t => t.op == opAtomic), aopWidth (t.len % 16), { a := true }),
      (.fabInvalidateDeliver port now, (fun t => t.op == opInv && bit t.len 1), 8, { inv := true })] →
    s.arrives now port kind t → (c ≠ .fabInvalidateDeliver port now → (s.devAt now).mustWait t = false) →
    let w := s.taking now port t
    (w.fresh t → (c = .atomic port now → t.off % n = 0) → w.dev.translate t t.region t.off n need true = .error st → st ≠ stOk →
      exec c s = .next (s.handled port (((w.upd (·.localRefused t t.region t.off n need true)).upd fun d =>
        d.count (d.countHalf port) Reg.FAB_REFUSED_LO 1).marked t st)))
    ∧ (∀ m, (w.dev.winFor t.src t.seq).marks.find? (fun m => m.1 = t.seq) = some m →
      let x := w.dev.winFor t.src t.seq
      exec c s = .next (s.handled port ((w.upd fun d =>
        (d.setWin t.src { x with lastAt := d.time }).count (d.countHalf port) Reg.FAB_DUP_DISCARD_LO 1).upd fun d =>
          d.respond (ackTxn t.src d.me t.tc m.2 t.seq t.seq t.job))))

/-- An INVALIDATE at its home device goes to every reader, and a FENCE is held until its MARK is reached. A FAB_INVALIDATE
of a SEQ neither applied nor under way, for a region it may write, goes to each valid member of the region's reader
set, and its acknowledgement is held; with TRANSFER set, from the owner, OWNER becomes the device named. A FAB_FENCE
is kept with its source's window, once, and every FENCE whose MARK has been reached is answered. (Derived from R365,
R377, R378, R379, R381.) -/
def Obligations.InvalidateAndFenceAreHeld : Prop :=
  ∀ (s : State) (port now : Nat) (t : Txn),
    let w := s.taking now port t
    let x := w.dev.winFor t.src t.seq
    (∀ a e, s.arrives now port (fun t => t.op == opInv && !bit t.len 1) t → w.fresh t →
      (∀ h ∈ w.dev.fab.homes, ¬ (h.src = t.src ∧ h.seq = t.seq)) →
      w.dev.translate t t.region 0 1 { w := true } true = .ok a → w.dev.regionOf t.job t.region = some e →
      (bit t.len 0 = true → t.src = e.owner) →
      let v := w.upd fun d => d.setWin t.src { x with lastAt := d.time }
      exec (.fabInvalidate port now) s = .next (s.handled port
        ((if bit t.len 0 then v.upd fun d => (d.onFab fun f =>
            { f with regions := f.regions.map fun g => if g = e then { g with owner := t.off % 2 ^ 18 } else g }).setupChanged
          else v).deliverAll t (w.dev.readersOf e.readers))))
    ∧ (s.arrives now port (·.op == opFence) t →
      let y := { x with fences := if x.fences.any fun f => f.seq = t.seq then x.fences else x.fences ++ [t] }
      exec (.fabFence port now) s = .next (s.handled port (w.upd fun d => (d.setWin t.src y).fenceAcks t.src)))

/-- ACK, READ_RESP and FENCE_ACK settle what they answer, and a silent destination loses everything. An ACK that covers
the one request held for its source's device ends it: with OK it leaves nothing, with a refusal of a command's effect
it is listed, the FENCEs that cover it complete with its status, and the job fails. A READ_RESP that need not wait for
a page of the Mirror ends the read of its tag, done or failed by its status. A FENCE_ACK for the one FENCE out ends
it, with the status that the FENCE_ACK carries. REACH_TIMEOUT of a destination silent for REACH_MS with no live slot
ends everything toward it with MEMBER_LOST; of one whose route has become unreachable, what has not been sent (R372).
(Derived from R360, R363, R365, R370, R381, R382.) -/
def Obligations.AnswersReachTheirRequests : Prop :=
  ∀ (s : State) (port now dest : Nat) (t : Txn),
    let w := s.taking now port t
    let x := w.dev.dest t.src
    let st := bits t.word 56 8
    (∀ h, s.arrives now port (·.op == opAck) t → x.held = [h] → h.slot.isSome = true → bits t.word 14 14 = h.seq → bits t.word 0 14 = h.seq →
      st ≠ stParity → (∃ a b c e, h.for_ = .node a b c e) →
      let y : Dest := { x with heard := w.dev.time, held := [], refused := if st = stOk then x.refused else x.refused ++ [(h.txn.job, h.seq, st)] }
      let u := w.upd (·.setDest t.src { x with heard := w.dev.time })
      let v := u.upd (·.setDest t.src y)
      exec (.ack port now) s = .next (s.handled port
        ((((if st = stOk then v else v.refusedAfter h.for_ t.src st (u.dev.coveringFences h.txn.job t.src h.seq)).upd
          (·.pump t.src)).fenceCheck).invalidateCheck)))
    ∧ (∀ r, s.arrives now port (fun t => t.op == opReadResp && !(s.devAt now).respWaits t) t → x.reads.find? (fun r => r.tag = t.seq) = some r →
      let v := w.upd (·.setDest t.src { x with heard := w.dev.time, reads := x.reads.filter fun q => q.tag ≠ t.seq })
      exec (.readResp port now) s = .next (s.handled port
        ((if st = stOk then v.readDone r t.data else v.readFails r t.src st).upd fun d => (d.pump t.src).efuPump)))
    ∧ (∀ f, s.arrives now port (·.op == opFenceAck) t → x.fences = [f] → f.mark = t.seq → f.ahead = 0 → f.job = t.job → x.held = [] →
      let v := w.upd (·.setDest t.src { x with heard := w.dev.time, fences := [] })
      exec (.fenceAck port now) s = .next (s.handled port
        ((((if st = stOk then v else v.fail f.seq f.node st t.src).upd (·.pump t.src)).fenceCheck).invalidateCheck)))
    ∧ ((s.devAt now).unreachable dest = true →
      let z := (s.devAt now).dest dest
      let u := (s.start.at_ now).upd (·.setDest dest { z with reads := [], fences := [], waiting := [] })
      let u := z.fences.foldl (fun w f => w.fail f.seq f.node stMemberLost dest) u
      let u := z.reads.foldl (fun w r => w.readFails r dest stMemberLost) u
      let u := z.held.foldl (fun w h => w.settle engineHook dest h stMemberLost) u
      let u := z.waiting.foldl (fun w r => w.settle engineHook dest ⟨z.nextSeq, r.1, none, 0, r.2⟩ stMemberLost) u
      exec (.reachTimeout dest now) s = .next (s.put (((u.fenceCheck).invalidateCheck).upd (·.efuPump))))
    ∧ ((s.devAt now).unreachable dest = false → (s.devAt now).reachable dest = false →
      exec (.reachTimeout dest now) s = .next (s.put ((s.start.at_ now).giveUp dest Option.isNone)))

/-- An accepted flit advances the port by one and does what its kind says. A flit accepted on a port moves the port to the
next number. DATA_FLIT: unkeyed, its payload joins the stream and is parsed; keyed, it is held for its tag group. MAC
with a good tag of the next group takes the headers of the group held, lets its payloads join the stream, and owes its
acknowledgements. CREDIT adds its 14 counts. INIT while TRAINING takes the peer's identity and credits, and the port
goes UP when the revisions agree and neither side encrypts. TIME from the upstream port of a follower with an echo
gives the offset; on a port that is UP and not upstream it is answered. (Derived from R350, R351, R353, R354, R355,
R356, R392.) -/
def Obligations.FlitsAreAccepted : Prop :=
  ∀ (s : State) (port seq now : Nat) (flit : List Byte),
    let w := s.start.at_ now
    let d := s.devAt now
    let x := d.acceptedPort port flit
    let pl := flitPayload flit
    (d.accepts port seq none flit → x.keyed = false →
      exec (.dataFlit port seq flit now) s = .next (s.put
        (((w.upd (·.setPort port { x with stream := x.stream ++ pl })).parsePort port).upd (·.drain port))))
    ∧ (d.accepts port seq none flit → x.keyed = true →
      exec (.dataFlit port seq flit now) s = .next (s.put
        ((w.upd (·.setPort port { x with heldGroup := x.heldGroup ++ [(seq, flit.take 2 ++ pl)] })).upd (·.drain port))))
    ∧ (d.accepts port seq (some 3) flit → x.keyed = true → x.heldGroup ≠ [] → ofBytes (pl.take 8) = x.rxGroups →
      let y := x.heldGroup.foldl (fun (z : FPort) g => z.takeHdr (ofBytes (g.2.take 2))) x
      exec (.macFlit port seq flit true now) s = .next (s.put (((w.upd (·.setPort port
        { y with stream := y.stream ++ x.heldGroup.flatMap (·.2.drop 2), heldGroup := [], rxGroups := x.rxGroups + 1,
                 ackOwed := y.ackOwed + x.ackHeld, ackHeld := 0, nakOut := 0 })).parsePort port).upd (·.drain port))))
    ∧ (d.accepts port seq (some 5) flit →
      exec (.credit port seq flit now) s = .next (s.put ((w.upd (·.setPort port
        ((List.range 14).foldl (fun (x : FPort) i => x.addCredit i (ofBytes ((pl.drop (2 * i)).take 2))) x))).upd (·.drain port))))
    ∧ (d.accepts port seq (some 2) flit → x.st = .training → ofBytes (pl.take 2) = d.rn (portHalf port) Reg.FAB_REVISION →
      ofBytes ((pl.drop 8).take 1) % 2 = 0 → bit (d.portCfg port) 29 = false →
      exec (.initFlit port seq flit now) s = .next (s.put ((w.upd (·.setPort port
        { x with peerDev := ofBytes ((pl.drop 2).take 4) % 2 ^ 18, peerPort := ofBytes ((pl.drop 6).take 1),
                 peerKind := ofBytes ((pl.drop 7).take 1), peerEncrypt := false,
                 credits := (List.range 14).map fun i => ofBytes ((pl.drop (9 + 2 * i)).take 2), retrains := 0, again := false })).portTo
          port .up)))
    ∧ (d.accepts port seq (some 4) flit →
      let v := d.setPort port { x with timeRecv := some (ofBytes (pl.take 8), d.time) }
      (d.timeCfg = (false, port) → ofBytes ((pl.drop 8).take 8) ≠ 0 →
        let t1 : Int := ofBytes ((pl.drop 8).take 8)
        let t2 : Int := ofBytes ((pl.drop 16).take 8)
        let t3 : Int := ofBytes (pl.take 8)
        let t4 : Int := d.time
        exec (.timeFlit port seq flit now) s = .next (s.withDev (v.takeOffset (t3 + ((t4 - t1) - (t3 - t2)) / 2 - t4))))
      ∧ (d.timeCfg.1 = true → x.st = .up → exec (.timeFlit port seq flit now) s = .next (s.withDev (v.sendTime port))))

/-- A damaged or out-of-order flit is answered with one NAK, a NAK resends, and a bad tag discards its group. On a port
that carries flits and is not already discarding: a flit of 256 bytes whose CRC is wrong is counted, as a corrected
error too, and answered with a NAK of the next number expected; a sound data flit with another number than the next is
answered so too; the 16th NAK of one flit retrains the port (`Wk.nakLimit`). A sound NAK is counted, and the flits
from the one it names on go out again; the 16th that names one flit retrains. A tag that does not verify counts,
discards the group held and asks for its first flit. (Derived from R354, R355.) -/
def Obligations.DamagedFlitsAreAskedForAgain : Prop :=
  ∀ (s : State) (port seq now : Nat) (flit : List Byte),
    let w := s.start.at_ now
    let d := s.devAt now
    let x := d.fport port
    let sound := ofBytes (flit.drop 252) = crc32c (flit.take 252)
    d.portExists port = true → x.st ∈ [PortSt.training, .securing, .up] → flit.length = 256 →
    (x.discarding = false → ¬ sound →
      exec (.dataFlit port seq flit now) s = .next (s.put ((w.upd fun d =>
        ((d.count (portHalf port) Reg.FAB_FLIT_CRC_ERR_LO 1).count .west Reg.TOP_ERR_CORRECTED_LO 1).sendNak port).nakLimit port)))
    ∧ (x.discarding = false → sound → bit (ofBytes (flit.take 2)) 15 = false → seq ≠ x.rxNum →
      exec (.dataFlit port seq flit now) s = .next (s.put ((w.upd (·.sendNak port)).nakLimit port)))
    ∧ (sound → ofBytes (flit.take 2) / 2 ^ 8 = 0x81 →
      let num := ofBytes ((flit.drop 2).take 2)
      let y := x.takeHdr (ofBytes (flit.take 2))
      let again := y.replay.dropWhile fun f => f.num ≠ num
      (y.nakNum ≠ num ∨ y.nakCount < 15) → again ≠ [] →
      exec (.nak port flit now) s = .next (s.withDev (again.foldl (fun d f => (d.count (portHalf port) Reg.FAB_FLITS_TX_LO 1).emit (.flit port f.bytes))
        ((d.setPort port { y with nakNum := num, nakCount := if y.nakNum = num ∧ y.nakCount > 0 then y.nakCount + 1 else 1 }).count
          (portHalf port) Reg.FAB_REPLAYS_LO 1))))
    ∧ (sound → ofBytes (flit.take 2) / 2 ^ 8 = 0x81 →
      let num := ofBytes ((flit.drop 2).take 2)
      let y := x.takeHdr (ofBytes (flit.take 2))
      y.nakNum = num → 15 ≤ y.nakCount → (y.replay.any fun f => f.num == num) = true →
      exec (.nak port flit now) s = .next (s.put
        ((w.upd (·.setPort port { y with nakNum := num, nakCount := y.nakCount + 1 })).portTo port .retraining)))
    ∧ (∀ g l, d.accepts port seq (some 3) flit → x.keyed = true → x.heldGroup = g :: l →
      let y := d.acceptedPort port flit
      exec (.macFlit port seq flit false now) s = .next (s.put ((w.upd fun d => (((d.setPort port
        { y with heldGroup := [], rxNum := g.1, redo := (y.rxNum + 65536 - g.1) % 65536, ackHeld := 0 }).count (portHalf port)
          Reg.FAB_TAG_FAIL_LO 1).count .west Reg.TOP_ERR_CORRECTED_LO 1).sendNak port).nakLimit port)))

/-- Training, link failure, the NULL word and the time exchange act on their port alone. PORT_TRAINING_START takes a DOWN
or RETRAINING port to TRAINING. PORT_TRAINING_END that succeeds sets the flit numbers to 0 and sends an INIT flit; a
first training that fails leaves the port DOWN, a retrain that fails the third time leaves it FAILED. LINK_DOWN takes
a live port DOWN, and only what had arrived stays. A NULL word is passed over. TIME_EXCHANGE sends a TIME flit on a
follower's UP upstream port. (Derived from R350, R353, R354, R359, R375, R392.) -/
def Obligations.PortsTrainAndFall : Prop :=
  ∀ (s : State) (port now : Nat),
    let w := s.start.at_ now
    let d := s.devAt now
    let x := d.fport port
    (d.portExists port = true → x.st ∈ [PortSt.down, .retraining] →
      exec (.portTrainingStart port now) s = .next (s.put
        ((w.upd (·.setPort port { x with again := decide (x.st = .retraining) })).portTo port .training)))
    ∧ (x.st = .training →
      let y := { x with txNum := 0, rxNum := 0, owed := 0, nakNum := 0, nakCount := 0, nakOut := 0, nakName := 0, txGroup := 0, txGroups := 0,
                        txOpen := [], rxGroups := 0, discarding := false, ackOwed := 0, ackHeld := 0, redo := 0, stream := [], heldGroup := [],
                        queue := x.replay.flatMap (·.ends) ++ x.queue, replay := [], freed := List.replicate 14 0,
                        deficit := List.replicate 5 0, turn := 1, mgmtDebt := 0 }
      let v := d.setPort port y
      exec (.portTrainingEnd port true now) s = .next (s.withDev (v.sendFlit port (some 2) (v.initPayload port) [])))
    ∧ (x.st = .training → x.again = false → exec (.portTrainingEnd port false now) s = .next (s.put (w.portTo port .down)))
    ∧ (x.st = .training → x.again = true →
      exec (.portTrainingEnd port false now) s = .next (s.put
        ((w.upd (·.setPort port { x with retrains := x.retrains + 1 })).portTo port (if x.retrains ≥ 2 then .failed else .retraining))))
    ∧ (d.portExists port = true → x.st ∈ [PortSt.up, .securing, .training, .retraining] →
      exec (.linkDown port now) s = .next (s.put
        ((w.portTo port .down).upd (·.setPort port { FPort.cold with upAt := x.upAt, arrived := x.arrived, refused := x.refused }))))
    ∧ (x.stream = List.replicate 4 0 →
      exec (.nullWord port now) s = .next (s.withDev (d.setPort port { x with stream := [] })))
    ∧ (d.timeCfg = (false, port) → x.st = .up → exec (.timeExchange now) s = .next (s.withDev (d.sendTime port)))

/-- The timers of the fabric and of the collectives act when their time has come. Of a source's runs, those whose first
SEQ came 1 µs ago or more are acknowledged. A path slot on which a request has waited PATH_US dies. A dead slot whose
port has been UP for 1 ms, and which died 1 ms ago or more, is live again. The window of a source that has been silent
for REACH_MS + PATH_US + 1 ms, at least 10 ms, is dropped. A COLLECTIVE's operation, not verified, that has heard
nothing for COLL_MS reports the first member it awaits, unless its member has left it, and ends MEMBER_LOST.
EPOCH_RETRY of a group with one frame due sends it again when it still bears the group's EPOCH and its device can be
reached. (Derived from R364, R365, R373, R375, R382, R399, R419, R420.) -/
def Obligations.FabricAndCollectiveTimers : Prop :=
  (∀ (s : State) (n slot now : Nat),
       let d := s.devAt now
       let z := d.dest n
       (∀ x, d.win n = some x →
         exec (.ackCoalesce n now) s = .next (s.withDev ((x.runs.filter fun r => r.at_ + 1000 ≤ d.time).foldl (fun d r => d.sendRun n r)
           (d.setWin n { x with runs := x.runs.filter fun r => ¬ r.at_ + 1000 ≤ d.time }))))
       ∧ (∀ h ∈ z.held, h.slot = some slot → h.at_ + d.pathNs ≤ d.time →
         exec (.pathTimeout n slot now) s = .next (s.withDev (d.killSlot n slot)))
       ∧ (∀ e, z.dead.find? (fun e => e.1 = slot) = some e →
         let p := d.fport (d.slotPort n slot)
         p.st = .up → max p.upAt e.2 + 1000000 ≤ d.time →
         exec (.slotRevive n slot now) s = .next (s.withDev ((d.setDest n { z with dead := z.dead.filter fun g => g.1 ≠ slot }).pump n)))
       ∧ (∀ x, d.win n = some x → x.lastAt + max 10000000 (d.reachNs + d.pathNs + 1000000) ≤ d.time →
         exec (.windowExpiry n now) s = .next (s.withDev (d.onFab fun f => { f with wins := adel f.wins n }))))
  ∧ (∀ (s : State) (k now : Nat) (g : Group64),
       let w := s.start.at_ now
       let d := s.devAt now
       d.group k = some g →
       (∀ o, d.opOf k = some o → o.verified = false → o.exch = false →
         o.heard + 1000000 * d.rn d.leadHalf Reg.CE_TIMEOUT ≤ d.time →
         let m := ((o.sources g ++ g.children g.me ++ (if g.me = 0 then [] else [(g.me - 1) / g.fan])).head?).getD 0
         exec (.collTimeout k now) s = .next (s.put ((if o.left then w else w.memberLost o m).ceEnd o.id stMemberLost m)))
       ∧ (∀ r o, d.ce.retries = [r] → r.group = k → r.due ≤ d.time → d.op r.op = some o → fld r.data 0 4 = g.epoch →
         d.reachable r.dest = true →
         exec (.epochRetry k now) s = .next (s.withDev
           ((((d.onCe fun c => { c with retries := [] }).holdReq ((d.onCe fun c => { c with retries := [] }).msgTxn g r.dest r.tc r.data)
             (.engine o.half)).count o.half Reg.CE_EPOCH_RETRY_LO 1).count o.half Reg.CE_BYTES_SENT_LO r.data.length))))

/-- A frame of the operation under way is applied by its kind and its MSG is acknowledged. For a MSG with one whole frame
of the group's operation, EPOCH and COLL_SEQ matching: READY with the operation's own operands notes its sender as
ready. The first of a tile's two parts is kept. The PARTIAL that makes a sound tile whole, not used before, adds it to
what has come, and such a FINAL writes its tile and sets its piece. RESEND owes the named frame again. PRESENCE adds
its sender's bitmap, UNION starts the tiles, VOTE is joined, VERDICT is acted on, and WITHDRAW is passed toward member
0, which ends the operation ABORTED. Each then does all that it makes possible, and the MSG is marked with OK. An
operation that its member has left takes only VERDICT and WITHDRAW; a FINAL whose page the Mirror has still to push
waits. (Derived from R398, R399, R404, R405, R416, R417, R418, R420.) -/
def Obligations.CollectiveFramesApply : Prop :=
  ∀ (s : State) (port now k : Nat) (t : Txn) (f : CeFrame) (g : Group64) (o : CeOp),
    let v := s.hearing now port t o
    let again := Wk.ceAgain ceRounds
    (s.FrameComes now port 0x10 t f k g o → o.left = false → f.body.take 12 = (o.nb.drop 0x3C).take 12 → fld f.body 12 4 = o.c →
      exec (.readyFrame port now) s = .next (s.handled port
        (((v.upd (·.onOp o.id fun o => { o with ready := o.ready ++ [f.src] })).ceAgain ceRounds o.id).marked t stOk)))
    ∧ (s.FrameComes now port 0x11 t f k g o → o.left = false → o.whole f = none →
      exec (.partialFrame port now) s = .next (s.handled port
        (((v.upd (·.onOp o.id fun o => { o with first := o.first ++ [f] })).ceProgress o.id again).marked t stOk)))
    ∧ (∀ tile bs, s.FrameComes now port 0x11 t f k g o → o.left = false → o.whole f = some bs → o.used g f = false → openTile false bs = .ok tile →
      o.formOk { f with parts := 1, part := 0, body := bs } tile = true →
      exec (.partialFrame port now) s = .next (s.handled port
        ((((v.upd (·.onOp o.id fun o => { o with first := o.first.filter fun x => ¬ (x.kind = f.kind ∧ x.src = f.src ∧ x.index = f.index) })).upd
          (·.onOp o.id fun o => { o with inbox := o.inbox ++ [(f.src, f.index, bs)] })).ceProgress o.id again).marked t stOk)))
    ∧ (∀ tile bs x, let p := { o with size := bs.length }
      s.FrameComes now port 0x12 t f k g o → o.left = false → o.whole f = some bs → o.list.isSome = true → o.used g f = false → openTile false bs = .ok tile →
      o.formOk { f with parts := 1, part := 0, body := bs } tile = true → v.dev.inst o.inst = some x →
      v.dev.checkRange x.job (p.dstAt (p.dstTile g f.index)) p.size true = 0 → v.dev.mirFull (p.dstAt (p.dstTile g f.index)) p.size = false →
      exec (.finalFrame port now) s = .next (s.handled port
        ((((((v.upd (·.onOp o.id fun o => { o with first := o.first.filter fun x => ¬ (x.kind = f.kind ∧ x.src = f.src ∧ x.index = f.index) })).upd
          (·.onOp o.id fun o => { o with size := bs.length })).ceWrite p (p.dstTile g f.index) bs).ceTap p g f.index bs).ceProgress
            o.id again).marked t stOk)))
    ∧ (s.FrameComes now port 0x13 t f k g o → o.left = false →
      exec (.resend port now) s = .next (s.handled port
        (((v.upd (·.onOp o.id fun o => { o with sent := o.sent.filter fun x => ¬ (x.2.1 = f.src ∧ x.2.2 = f.index) })).ceProgress o.id again).marked
          t stOk)))
    ∧ (s.FrameComes now port 0x18 t f k g o → o.left = false →
      exec (.presence port now) s = .next (s.handled port
        (((v.upd (·.onOp o.id fun o => { o with presence := o.presence ++ [(f.src, f.body)] })).cePresence o.id).marked t stOk)))
    ∧ (s.FrameComes now port 0x19 t f k g o → o.left = false →
      exec (.unionFrame port now) s = .next (s.handled port
        ((v.ceUnion o.id (f.body ++ List.replicate (bitmapBytes o.experts - f.body.length) 0)).marked t stOk)))
    ∧ (s.FrameComes now port 0x20 t f k g o → o.left = false →
      exec (.vote port now) s = .next (s.handled port
        (((v.upd (·.onOp o.id fun o => { o with votes := o.votes ++ [voteOf f.src f.body] })).ceVote o.id again).marked t stOk)))
    ∧ (s.FrameComes now port 0x21 t f k g o →
      exec (.verdict port now) s = .next (s.handled port
        ((v.verdict o.id (fld f.body 0 4) ((chunks 4 (f.body.drop 8)).map ofBytes) again).marked t stOk)))
    ∧ (s.FrameComes now port 0x22 t f k g o →
      exec (.withdraw port now) s = .next (s.handled port
        ((if g.me = 0 then v.verdict o.id 3 [] again else v.ceTell o g ((g.me - 1) / g.fan) 0x22 []).marked t stOk)))
    ∧ (∀ c kind, (c, kind) ∈ [(Instr.readyFrame port now, 0x10), (.partialFrame port now, 0x11), (.finalFrame port now, 0x12),
        (.resend port now, 0x13), (.presence port now, 0x18), (.unionFrame port now, 0x19), (.vote port now, 0x20)] →
      s.FrameComes now port kind t f k g o → o.left = true → exec c s = .next (s.handled port (v.marked t stOk)))

/-- DEMAND, REPAIR and EXPERT_TILE serve the exchange of a FETCH_EXPERTS. For a MSG with one whole exchange frame of the
group's exchange, whose number, epoch, range and slot agree with the fetch: a first DEMAND of its sender is recorded
and what is owed is served. A REPAIR sends the named expert again to its sender. A one-part EXPERT_TILE of an expert
awaited that is sound is kept, after entries are evicted to make room; the last one wanted stages the expert. A tile
that the uncarved space or the client's quota has no room for waits beside it. (Derived from R122, R123, R124, R398,
R399.) -/
def Obligations.ExchangeFramesApply : Prop :=
  ∀ (s : State) (port now k : Nat) (t : Txn) (f : CeFrame) (g : Group64) (o : CeOp) (q : Fetch),
    let v := s.hearing now port t o
    let b := f.body
    (s.devAt now).fetch o.inst o.node = some q →
    (s.FrameComes now port 0x01 t f k g o → fld b 0 4 = o.seq → fld b 4 4 = g.epoch → fld b 8 2 = q.first → fld b 0xA 2 = q.last →
      fld b 0xE 1 = q.slot → (∀ x ∈ q.demands, x.1 ≠ f.src) →
      exec (.demand port now) s = .next (s.handled port
        ((((v.upd (·.onFetch q.seq q.node fun q => { q with demands := q.demands ++ [(f.src, b.drop 0x10)] })).exchServe q.seq q.node).upd
          (·.fetchScan)).marked t stOk)))
    ∧ (s.FrameComes now port 0x02 t f k g o → fld b 0 4 = o.seq → fld b 4 4 = g.epoch → fld b 8 2 = q.first → fld b 0xA 2 = q.last →
      fld b 0xE 1 = q.slot →
      exec (.repair port now) s = .next (s.handled port ((v.exchServeOne o g q (fld b 0xC 2) [f.src]).marked t stOk)))
    ∧ (∀ x tile, s.FrameComes now port 0x03 t f k g o → f.parts = 1 → q.exch.find? (fun x => x.expert = fld b 0 2) = some x →
      f.index < x.want → (∀ y ∈ x.tiles ++ x.parked, y.1 ≠ f.index) → openTile true (b.drop 4) = .ok tile →
      let h := stageHalf x.expert
      let bs := b.drop 4
      let onExch (y : ExchIn → ExchIn) (d : Dev) : Dev :=
        d.onFetch q.seq q.node fun q => { q with exch := q.exch.map fun z => if z.expert = x.expert then y z else z }
      let u := v.dev.onFetch q.seq q.node fun q => { q with exch := q.exch.map fun z =>
        if z.expert = x.expert then { x with parts := x.parts.filter fun p => p.1.1 ≠ f.index } else z }
      let d := u.evictUntil h fun d => decide (d.uncarvedFree h < bs.length)
      let held := onExch (fun z => { z with tiles := z.tiles ++ [(f.index, bs)], parked := z.parked.filter (·.1 ≠ f.index) }) d
      let whole : Bool := (((held.fetch q.seq q.node).bind fun q => q.exch.find? fun z => z.expert = x.expert).map fun z =>
        z.tiles.length == z.want).getD false
      let e := if d.uncarvedFree h < bs.length ∨ d.quotaAllows q.client true bs.length = false then
          onExch (fun z => { z with parked := z.parked.filter (·.1 ≠ f.index) ++ [(f.index, bs)] }) d
        else if whole = true then held.fetchCount q.seq q.node h Reg.EFU_EXCHANGE_RECV_LO 1 else held
      exec (.expertTile port now) s = .next (s.handled port (({ v with dev := e.fetchScan } : Wk).marked t stOk)))

/-- A frame of an operation to come is kept, a frame of another epoch is discarded, and a damaged MSG is not marked.
Whatever its kind: a sound frame of a group that carries no operation, with a COLL_SEQ at or after the next, is kept
for its operation; one with an older EPOCH is counted stale; both MSGs are acknowledged with OK. A MSG with a frame
whose CRC is wrong counts a corrected error and is answered PARITY, without marking its SEQ; one with a newer EPOCH is
answered GROUP_REFORMED. (Derived from R398, R399, R420.) -/
def Obligations.FramesOfOtherOperations : Prop :=
  ∀ (s : State) (port now kind k : Nat) (c : Instr) (t : Txn) (f : CeFrame) (g : Group64),
    (c, kind) ∈ [(Instr.demand port now, 0x01), (.repair port now, 0x02), (.expertTile port now, 0x03), (.readyFrame port now, 0x10),
      (.partialFrame port now, 0x11), (.finalFrame port now, 0x12), (.resend port now, 0x13), (.presence port now, 0x18),
      (.unionFrame port now, 0x19), (.vote port now, 0x20), (.verdict port now, 0x21), (.withdraw port now, 0x22)] →
    s.arrives now port (·.startsWith kind) t →
    let w := s.taking now port t
    w.fresh t → (s.devAt now).groupOf t = some (k, g) → (s.devAt now).group k = some g → g.members.contains t.src = true →
    (readFrames 256 t.data = some [f] → f.epoch = g.epoch → (s.devAt now).opOf k = none → (f.seq + 2 ^ 32 - g.nextSeq) % 2 ^ 32 < 2 ^ 31 →
      exec c s = .next (s.handled port ((w.upd (·.onCe fun c => { c with held := c.held ++ [(k, f)] })).marked t stOk)))
    ∧ (readFrames 256 t.data = some [f] → f.epoch < g.epoch →
      exec c s = .next (s.handled port ((w.upd fun d =>
        d.count (match d.opOf k with | some o => o.half | none => d.leadHalf) Reg.CE_STALE_DISCARD_LO 1).marked t stOk)))
    ∧ (readFrames 256 t.data = none →
      exec c s = .next (s.handled port ((w.upd (·.count .west Reg.TOP_ERR_CORRECTED_LO 1)).upd fun d =>
        d.respond (ackTxn t.src d.me t.tc stParity t.seq t.seq t.job))))
    ∧ (readFrames 256 t.data = some [f] → f.epoch > g.epoch →
      exec c s = .next (s.handled port ((w.upd fun d => d.count (d.countHalf port) Reg.FAB_REFUSED_LO 1).marked t stReformed)))

/-- Lease messages renew each half's view, 2 ms without one lapse it, and 100 ms more stop the half. A LEASE of the half's
own TERM at the shadow notes its SEQ and mark and is answered with a LEASE_ECHO; a LEASE_ECHO at the lead notes its
own. A message of another TERM, or one whose CRC is wrong, changes only device time. The lead in NORMAL whose last
LEASE went 100 µs ago sends the next. A half in NORMAL that has heard nothing valid for 2 ms asks the BMC and waits,
CONFIRMING; every 20 ms without an answer it asks again. A half that still waits 100 ms after its lapse enters
SPLIT_HALT with BMC_RESULT no reply, the doorbell pages of the functions that its port carries are fenced, FAULT_N is
asserted, TOP_FATAL_STATUS names SPLIT_HALT with the unknown island, and unless the other half is in DEGRADED the
device is not READY and its stage is STOPPED. (Derived from R457, R459, R460, R462, R464.) -/
def Obligations.LeaseKeepsTheLead : Prop :=
  (∀ (s : State) (h : Half) (m : List Byte) (now term seq mark : Nat),
       let d := s.devAt now
       let v := d.top.lead.get h
       (parseBridge m = some (term, seq, mark) → v.st = .normal → term = v.term →
         let x := d.onLead h fun v => { v with lastValid := d.time, seenSeq := seq, seenMark := mark }
         (v.lead ≠ h → exec (.lease h m now) s = .next (s.withDev (x.emit (.bridge h (bridgeMsg term seq d.tgu.ackedCommits)))))
         ∧ (v.lead = h → exec (.leaseEcho h m now) s = .next (s.withDev x)))
       ∧ ((parseBridge m = none ∨ (parseBridge m = some (term, seq, mark) ∧ term ≠ v.term)) →
         exec (.lease h m now) s = .next (s.withDev d) ∧ exec (.leaseEcho h m now) s = .next (s.withDev d))
       ∧ (d.leadOf = some h → v.st = .normal → (∀ t, v.leaseAt = some t → t + 100000 ≤ d.time) →
         exec (.leaseRenewal now) s = .next (s.withDev ((d.emit (.bridge h (bridgeMsg v.term v.leaseSeq d.tgu.commits))).onLead h fun v =>
           { v with leaseAt := some d.time, leaseSeq := (v.leaseSeq + 1) % 2 ^ 32 })))
       ∧ (v.st = .normal → v.lastValid + 2000000 ≤ d.time →
         exec (.leaseLapse h now) s = .next (s.withDev (((d.onLead h fun v => { v with st := .lapsed, lapseAt := some d.time }).leadRequest h
           (if v.lead = h then 1 else 2)).onLead h fun v => { v with st := .confirming })))
       ∧ (∀ t, v.reqAt = some t → v.st = .confirming → v.reqKind ≠ 0 → v.bmc = 0 → t + 20000000 ≤ d.time →
         exec (.leadRequestResend h now) s = .next (s.withDev (d.leadRequest h v.reqKind))))
  ∧ (∀ (s : State) (h : Half) (now t : Nat),
       let d := s.devAt now
       let v := d.top.lead.get h
       v.lapseAt = some t → (v.st = .confirming ∨ v.st = .electing) → t + 100000000 ≤ d.time →
       ∃ u, exec (.splitHalt h now) s = .next u ∧ (u.dev.top.lead.get h).st = .splitHalt ∧ (u.dev.top.lead.get h).bmc = 3
         ∧ (∀ fn ∈ allFns, d.fnHalf fn = some h → (u.dev.func fn).pagesOn = false)
         ∧ u.dev.top.faultN = true ∧ u.dev.top.fatal = ⟨true, 0, 5, 0x3F⟩
         ∧ ((u.dev.top.lead.get h.other).st ≠ .degraded → u.dev.top.ready = false ∧ u.dev.top.stage = .stopped))

/-- A batch reaches the shadow whole, and its acknowledgement lets commits and register writes act. With both halves in
NORMAL: an intact SHADOW_BATCH hands the commits sent to the shadow and takes every waiting write to a lead-only
register into it; a SHADOW_ACK marks the commits seen as acknowledged, and the writes sent act in order. A batch or
acknowledgement that is not intact changes only device time. (Derived from R324, R458, R548.) -/
def Obligations.ShadowBatchesAreAcknowledged : Prop :=
  ∀ (s : State) (h : Half) (now : Nat),
    let d := s.devAt now
    let due := d.tgu.lwrites.filter (·.sent)
    d.leadOf = some h → (d.top.lead.get h).st = .normal → (d.top.lead.get h.other).st = .normal →
    (∃ u, exec (.shadowBatch true now) s = .next u ∧ u.dev.tgu.batchSeen = d.tgu.batchSeen ++ d.tgu.batchOut ∧ u.dev.tgu.batchOut = []
      ∧ u.dev.tgu.ackedCommits = d.tgu.ackedCommits + d.tgu.batchOut.length
      ∧ u.dev.tgu.lwrites = d.tgu.lwrites.map (fun x => { x with sent := true }) ∧ u.dev.tgu.insts = d.tgu.insts)
    ∧ exec (.shadowAck true now) s = .next (s.put (due.foldl (fun w x => w.regEffect x.fn x.half x.off x.value)
        ((s.start.at_ now).upd fun d =>
          d.tgu.batchSeen.foldl (fun d k => d.onNode k.1 k.2 fun n => if n.st = .committing then { n with acked := true } else n)
            (d.onTgu fun t =>
              { t with shadowAcked := t.shadowAcked ++ t.batchSeen, batchSeen := [], lwrites := t.lwrites.filter fun x => !x.sent }))))
    ∧ exec (.shadowBatch false now) s = .next (s.withDev d) ∧ exec (.shadowAck false now) s = .next (s.withDev d)

/-- A LEAD_REPLY from the BMC grants or fences a half that waits for it. Served over I3C in the officer's role, for a half
that is LAPSED, CONFIRMING, or ELECTING with its image running: GRANT makes it the survivor with the TERM of the
reply, and requests to every destination go out again; FENCE puts it in FENCED with that TERM; both are answered
SUCCESS. In any other state but SPLIT_HALT the answer is NOT_READY, and in SPLIT_HALT the reply changes only device
time. (Derived from R460, R461, R462, R463, R512.) -/
def Obligations.LeadReplyDecides : Prop :=
  ∀ (s : State) (r : Request) (result term tag : Nat),
    let w := s.start.at_ r.now
    let d := s.devAt r.now
    let v := d.top.lead.get r.half
    let waits := v.st = .lapsed ∨ v.st = .confirming ∨ (v.st = .electing ∧ (d.top.sc.get r.half).st = .booted)
    (s.Served r 0x06 .officer [] [] tag → r.path = .i3c → term < 2 ^ 32 →
      (waits → result = 1 →
        exec (.leadReply r result term) s = .next (s.answers r 6 tag
          ((((w.grant r.half term).mirBufs).mirStale).upd fun d => (d.fab.dests.map (·.1)).foldl (fun d dest => d.pump dest) d) ccSuccess []))
      ∧ (waits → result = 2 →
        exec (.leadReply r result term) s = .next (s.answers r 6 tag (w.upd (·.fence r.half term)) ccSuccess []))
      ∧ (¬ waits → v.st ≠ .splitHalt → (result = 1 ∨ result = 2) →
        exec (.leadReply r result term) s = .next (s.answers r 6 tag w ccNotReady [])))
    ∧ (v.st = .splitHalt → exec (.leadReply r result term) s = .next (s.withDev d))

/-- A detector's report takes the step of its class, and a failing Secure Controller stops the device. A CORRECTED report
counts in its own counter and in TOP_ERR_CORRECTED. A CONTAINED one kills the attempt for a re-run (one that meets a
node not yet dispatched is counted and reported; of no node, PARITY in a facet evicts what it retained), a JOB_FATAL
one fails the command's job, a DEVICE_FATAL one stops a device that runs; a dropped register write is reported as a
PARITY event of no class, a dropped read is answered Completer Abort, and an uncorrectable block of stacked memory is
poisoned. The fifth attempt at a stack's interface stops the device, an earlier one is CORRECTED. Data that no re-run
can restore fails its job. A released request found corrupted is sent again, one lost ends UNCORRECTABLE; a
transaction corrupted on arrival is answered PARITY unmarked; a CE repeats its step up to 3 times. A booted SC that
has gone 100 ms without a watchdog reset, whose known-answer tests fail when they are due after 24 h, or whose entropy
source fails, enters its error state, and a device that runs stops with DEVICE_FATAL, cause SC_FAULT and the SC's
island. Tests that pass only note their time. REFCLK_SYS stopping stops a running device with the same cause. (Derived
from R243, R244, R444, R445, R446, R447, R448, R449, R495, R524, R543, R569.) -/
def Obligations.ErrorsAreClassed : Prop :=
  (∀ (s : State) (h : Half) (island seq i detail now c n st cause off a : Nat) (f : Option Nat) (wb : Bool),
       let w := s.start.at_ now
       let run (r : Report) := exec (.detectorReport h island r seq i detail now) s
       run (.corrected c n false) = .next (s.withDev ((if c = 0 then s.devAt now else (s.devAt now).count h c n).count .west
           Reg.TOP_ERR_CORRECTED_LO n))
       ∧ (∀ m, (s.devAt now).node seq i = some m → run (.contained st f) = .next (s.put
           (if m.st = .waiting ∨ m.st = .ready then w.containedIdle seq i st detail f h island else w.contained seq i st detail f h island)))
       ∧ (∀ k, (s.devAt now).node seq i = none → f = some k → st = stParity → run (.contained st f) = .next (s.put (w.upd (·.evictBad k))))
       ∧ run (.jobFatal st) = .next (s.put (w.fail seq i st detail))
       ∧ ((s.devAt now).top.stopped = false → run (.deviceFatal st cause wb) = .next (s.put (w.deviceFatal h st cause island wb detail)))
       ∧ (∀ fn, run (.droppedWrite fn off) = .next (s.put (w.post h fn { kind := 1, status := stParity, island := island, d0 := off })))
       ∧ run .droppedRead = .next (s.withDev { s.devAt now with resp := .completerAbort })
       ∧ (∀ k a, a < 5 → run (.stackError k a) = .next (s.withDev ((s.devAt now).count .west Reg.TOP_ERR_CORRECTED_LO 1)))
       ∧ (∀ k a, 5 ≤ a → (s.devAt now).top.stopped = false → bit (s.devAt now).top.stackUp k = true →
         run (.stackError k a) = .next (s.put ((w.upd fun d => d.onTop fun t => { t with stackUp := t.stackUp - 2 ^ k }).deviceFatal
           (if k < 8 then .west else .east) stUncorrectable 4 (stackIsland k) true 0)))
       ∧ (∀ job a, ((s.devAt now).job job).isSome = true → run (.jobData job a) = .next (s.put
           ((w.postJob h { kind := 1, cls := 3, status := stUncorrectable, job := job, island := island, d0 := eventDetail stUncorrectable a }).jobFatal
             job stUncorrectable)))
       ∧ (∀ dest k r, ((s.devAt now).dest dest).held.find? (fun r => r.seq = k) = some r →
         run (.releasedParity dest k) = .next (s.withDev ((s.devAt now).sendAgain dest r))
         ∧ run (.heldLost dest k) = .next (s.put ((w.settle engineHook dest r stUncorrectable).upd (·.pump dest))))
       ∧ (∀ port chan t, s.arrives now port (fun t => t.chan == chan) t → run (.txnParity port chan) = .next (s.handled port
           (if t.ackable then (s.taking now port t).upd fun d => d.respond (ackTxn t.src d.me t.tc stParity t.seq t.seq t.job)
            else s.taking now port t)))
       ∧ (∀ k x o, (s.devAt now).opOf k = some o → o.exch = false → o.left = false → o.voted = false → o.verified = false →
         (aget o.faults x).getD 0 < 3 → run (.collParity k x) = .next (s.withDev (((s.devAt now).onOp o.id fun o =>
           { o with faults := aput o.faults x ((aget o.faults x).getD 0 + 1) }).count .west Reg.TOP_ERR_CORRECTED_LO 1)))
       ∧ (localMapped a = true → isSram a = false →
         run (.uncorrectable a) = .next (s.withDev (if (s.devAt now).host.poison.contains (a / 64) then s.devAt now
           else ((s.devAt now).onHost fun x => { x with poison := x.poison ++ [a / 64] }).count (halfOf a) Reg.MEM_ECC_UE_LO 1))))
  ∧ (∀ (s : State) (h : Half) (now : Nat),
       let w := s.start.at_ now
       let d := s.devAt now
       let sc := d.top.sc.get h
       let fails (w : Wk) := (w.upd (·.onSc h fun s => { s with st := .error })).deviceFatal h 0 6 (scIsland h) true 0
       (sc.st = .booted → d.top.stopped = false →
         (sc.watchdog + 100000000 ≤ d.time → exec (.scWatchdog h now) s = .next (s.put (fails w)))
         ∧ exec (.entropyHealthFail h now) s = .next (s.put (fails w))
         ∧ (sc.selfTest + 86400000000000 ≤ d.time →
           exec (.selfTestPeriodic h false now) s = .next (s.put (fails (w.upd fun d => d.onSc h fun s => { s with selfTest := d.time })))
           ∧ exec (.selfTestPeriodic h true now) s = .next (s.withDev (d.onSc h fun s => { s with selfTest := d.time }))))
       ∧ (d.top.pwrGood = true → d.top.stopped = false →
         exec (.refclkSysStop now) s = .next (s.put ((w.deviceFatal .west 0 6 39 false 0).upd fun d => d.onTop fun t => { t with refclkOk := false }))))

/-- RESET_N clears the device but for its fuses, flash and fatal record, and PWR_GOOD falling clears that record too. With
PWR_GOOD high and RESET_N asserted, its deassertion leaves time 0, no register off its reset value, no instance, job,
buffer, port or group, both halves ELECTING with the sampled preference, both SCs starting, and keeps grade, stepping,
fused-off facets, owner hash, minimum SVN and TOP_FATAL_STATUS. Its assertion clears a running device in the same way,
with the SCs off. PWR_GOOD falling also clears TOP_FATAL_STATUS; rising, it only raises XSPI_RESET_N's hold. Both
memories stay. A level that the pin has already, or RESET_N released without PWR_GOOD, changes nothing. (Derived from
R490, R491, R494, R499, R526, R564.) -/
def Obligations.ResetStartsTheDevice : Prop :=
  ∀ (s : State) (pref : Half),
    let kept (u : State) := u.dev.top.grade = s.dev.top.grade ∧ u.dev.top.stepping = s.dev.top.stepping
      ∧ u.dev.top.fusedOff = s.dev.top.fusedOff ∧ u.dev.top.ownerHash = s.dev.top.ownerHash ∧ u.dev.top.minSvn = s.dev.top.minSvn
      ∧ u.mem = s.mem ∧ u.host = s.host
    let cold (u : State) := u.dev.time = 0 ∧ u.dev.regs = [] ∧ u.dev.tgu = .cold ∧ u.dev.fab = .cold ∧ u.dev.ce = .cold ∧ u.dev.mir = .cold
      ∧ u.dev.host.jobs = [] ∧ u.dev.host.bufs = [] ∧ u.dev.host.rings = [] ∧ u.dev.top.ready = false ∧ u.dev.top.faultN = false
      ∧ u.dev.top.stopped = false
    (s.dev.top.pwrGood = true → s.dev.top.resetN = false → ∃ u, exec (.resetNDeassert pref) s = .next u ∧ kept u ∧ cold u
      ∧ u.dev.top.fatal = s.dev.top.fatal ∧ u.dev.top.resetN = true ∧ u.dev.top.lead = ⟨.cold pref, .cold pref⟩
      ∧ u.dev.top.sc.w.st = .starting ∧ u.dev.top.sc.e.st = .starting)
    ∧ (s.dev.top.resetN = true → ∃ u, exec .resetNAssert s = .next u ∧ kept u ∧ cold u ∧ u.dev.top.fatal = s.dev.top.fatal
      ∧ u.dev.top.resetN = false ∧ u.dev.top.sc.w.st = .off ∧ u.dev.top.sc.e.st = .off)
    ∧ (s.dev.top.pwrGood = true → ∃ u, exec .pwrGoodFall s = .next u ∧ kept u ∧ cold u ∧ u.dev.top.fatal = ⟨false, 0, 0, 0⟩
      ∧ u.dev.top.pwrGood = false ∧ u.dev.top.resetN = false)
    ∧ exec .pwrGoodRise s = .next (if s.dev.top.pwrGood then s
        else s.withDev (s.dev.onTop fun t => { t with pwrGood := true, xspiReset := true }))
    ∧ (s.dev.top.pwrGood = false → exec .pwrGoodFall s = .next s) ∧ (s.dev.top.resetN = false → exec .resetNAssert s = .next s)
    ∧ (s.dev.top.pwrGood = false ∨ s.dev.top.resetN = true → exec (.resetNDeassert pref) s = .next s)

/-- An SC boots, the halves elect a lead, the stacks train, and the baseline rotation makes the device READY. The package
follows its pins: PWR_GOOD and RESET_N take the level of their edge, RESET_N rising only under PWR_GOOD. SC_BOOT of a
starting SC whose first image verifies leaves it booted from that slot with its ELECT sent; one whose self-test fails
leaves it in its error state. The first ELECT of a good peer with the same digest puts a good half in NORMAL with the
preferred lead and TERM 1. 200 ms without one, the half asks the BMC for a takeover. With every needed stack trained
the stage is BASELINE; BASELINE_DONE then retires the facets that failed and sets READY. (Derived from R492, R495,
R496, R497, R498, R533.) -/
def Obligations.BootAndElection : Prop :=
  ∀ (s : State) (h : Half) (now : Nat),
    let d := s.devAt now
    let sc := d.top.sc.get h
    let v := d.top.lead.get h
    (sc.st = .starting → d.top.resetN = true → (h = .east → d.top.sc.w.st ≠ .starting) →
      (∀ k b second, bootOrder d.top = (some k, b) →
        ∃ u, exec (.scBoot h now true true second) s = .next u ∧ (u.dev.top.sc.get h).st = .booted ∧ (u.dev.top.sc.get h).slot = k
          ∧ (u.dev.top.lead.get h).electAt.isSome = true)
      ∧ (∀ a b, ∃ u, exec (.scBoot h now false a b) s = .next u ∧ (u.dev.top.sc.get h).st = .error
          ∧ u.dev.top.lead = d.top.lead))
    ∧ (∀ m a dg c, parseBridge m = some (a, dg, c) → a / 2 ^ 24 = 1 → a % 2 = h.other.code → bits a 2 1 = 0 → dg = sc.digest % 2 ^ 32 →
      sc.st = .booted → v.st = .electing → v.granted = false → v.reqKind = 0 → v.health = 0 → v.peerElect ≠ some (0, dg) →
      ∃ u, exec (.elect h now m) s = .next u ∧ (u.dev.top.lead.get h).st = .normal ∧ (u.dev.top.lead.get h).lead = v.pref
        ∧ (u.dev.top.lead.get h).term = 1 ∧ u.dev.top.portLead = some v.pref)
    ∧ (∀ t, v.electAt = some t → v.st = .electing → v.peerElect = none → v.reqKind = 0 → v.granted = false → t + 200000000 ≤ d.time →
      exec (.electionTimeout h now) s = .next (s.withDev ((d.leadRequest h 2).onLead h fun v => { v with lapseAt := some d.time })))
    ∧ (∀ up : BitVec 16, d.top.stage = .training → d.top.stopped = false → (∀ k ∈ d.stacksNeeded, bit up.toNat k = true) →
      exec (.stackTrainingDone now up) s = .next (s.withDev (d.onTop fun t => { t with stackUp := up.toNat, stage := .baseline })))
    ∧ (∀ failed, d.top.stage = .baseline → d.top.stopped = false →
      ∃ u, exec (.baselineDone now failed) s = .next u ∧ u.dev.top.ready = true ∧ u.dev.top.stage = .ready
        ∧ u.dev.top.baselineDone = true ∧ u.dev.pic = ((failed.filter d.facetOn).foldl (fun w f => w.retire f) (s.start.at_ now)).dev.pic)
    ∧ (∃ u, exec .pwrGoodRise s = .next u ∧ u.dev.top.pwrGood = true) ∧ (∃ u, exec .pwrGoodFall s = .next u ∧ u.dev.top.pwrGood = false)
    ∧ (∃ u, exec .resetNAssert s = .next u ∧ u.dev.top.resetN = false)
    ∧ (∀ pref, s.dev.top.pwrGood = true → ∃ u, exec (.resetNDeassert pref) s = .next u ∧ u.dev.top.resetN = true)

/-- HM_SAMPLE takes both halves' rates and asks for a RISK cut, HM_FLOOR_DECAY lowers the floor, and DROOP_EVENT is
counted. With both halves in the device, HM_SAMPLE takes the west and the east half's ms; when the device risk has
reached BASE + HM_RISK_STEP, BASE becomes it and a RISK cut is requested; when it has fallen below BASE, BASE follows.
HM_FLOOR_DECAY after its interval lowers a raised floor by 1. DROOP_EVENT adds 1 to its half's droops. (Derived from
R465, R466, R467, R468, R469, R572.) -/
def Obligations.HealthMonitorSamples : Prop :=
  ∀ (s : State) (h : Half) (now : Nat),
    let d := s.devAt now
    let e := (d.hmHalf .west).hmHalf .east
    let v := (s.start.at_ now).upd fun d => (d.hmHalf .west).hmHalf .east
    let step := e.rn e.leadHalf Reg.HM_RISK_STEP
    (d.top.degraded = false →
      (step ≠ 0 → e.hmBase + step ≤ e.deviceRisk →
        exec (.hmSample now) s = .next (s.put ((v.upd fun d => { d with hmBase := e.deviceRisk }).cutRequest 1)))
      ∧ (¬ (step ≠ 0 ∧ e.hmBase + step ≤ e.deviceRisk) →
        exec (.hmSample now) s = .next (s.withDev (if e.deviceRisk < e.hmBase then { e with hmBase := e.deviceRisk } else e))))
    ∧ (let x := d.hm.get h
       let ns := 1000000 * bits (d.rn h Reg.HM_CFG) 16 16
       x.floor ≠ 0 → x.floorAt + ns ≤ d.time →
       exec (.hmFloorDecay h now) s = .next (s.withDev { d with hm := d.hm.set h { x with floor := x.floor - 1, floorAt := x.floorAt + ns } }))
    ∧ exec (.droopEvent h now) s = .next (s.withDev (d.onSc h fun x => { x with droops := x.droops + 1 }))

/-- A requested cut freezes the dirty set, its pages and record are pushed, and CUT_CLOSE follows. EPOCH_CUT with a
request and none draining takes the open cut: the dirty pages, ascending, are frozen, the dirty set is empty, and the
next number is open; one whose record passes 2^28 bytes ends TOO_LARGE. CUT_INTERVAL asks once its ms have passed.
MIRROR_PAGE_PUSH pushes the first frozen page when the remote ring has room, else writes the record to its slot, else,
with nothing of the Mirror unacknowledged, sends CUT_CLOSE. (Derived from R469, R470, R472, R476, R478.) -/
def Obligations.CutsAreTakenAndPushed : Prop :=
  ∀ (s : State) (now : Nat),
    let w := s.start.at_ now
    let d := s.devAt now
    let m := d.mir
    (∀ cause, m.asked = some cause → d.mirLive = true → m.cut = none → (d.cutRecord m.openCut cause).length ≤ 2 ^ 28 →
      ∃ u c, exec (.epochCut now) s = .next u ∧ u.dev.mir.cut = some c ∧ c.n = m.openCut ∧ c.cause = cause
        ∧ c.pages = sortBy (fun a b => decide (a < b)) m.dirty ∧ c.all = c.pages ∧ c.record = d.cutRecord m.openCut cause
        ∧ u.dev.mir.dirty = [] ∧ u.dev.mir.openCut = nextCut m.openCut ∧ u.dev.mir.asked = none ∧ u.mem = s.mem)
    ∧ (∀ cause, m.asked = some cause → d.mirLive = true → m.cut = none → 2 ^ 28 < (d.cutRecord m.openCut cause).length →
      exec (.epochCut now) s = .next (s.put ((w.upd fun d => d.onMir fun m =>
        { m with asked := none, lastCause := cause, lastResult := 4 }).mirWake m.openCut false)))
    ∧ (let ms := bits (d.rn d.leadHalf Reg.MIR_CUT_CFG) 0 16
       ms ≠ 0 → m.closedAt + 1000000 * ms ≤ d.time → m.cut = none → m.asked = none →
       exec (.cutInterval now) s = .next (s.put (w.cutRequest 2)))
    ∧ (∀ c p l v, m.cut = some c → c.pages = p :: l → w.mirPush p = some v → exec (.mirrorPagePush now) s = .next (s.put v.ceResume))
    ∧ (∀ c, m.cut = some c → c.pages = [] → c.sent = 0 →
      exec (.mirrorPagePush now) s = .next (s.put (w.upd fun d => (d.mirWrite (cutSlotOff c.n)
        (c.record ++ List.replicate ((32 - c.record.length % 32) % 32) 0)).onMir fun m =>
          { m with cut := some { c with sent := c.record.length } }).ceResume))
    ∧ (∀ c, m.cut = some c → c.pages = [] → c.sent ≠ 0 → c.closing = false →
      (d.dest m.partner).owes (fun t f => t.tc == 5 && (match f with | .engine _ => true | _ => false)) = false →
      exec (.mirrorPagePush now) s = .next (s.put (w.upd fun d =>
        (d.mirMsg m.partner msgCutClose c.n c.record.length m.pos (m.openAt.getD m.pos)).onMir fun m =>
          { m with cut := some { c with closing := true } }).ceResume))

/-- HELLO, HELLO_REPLY, CUT_CLOSE and TAP_RESULT act at their receiver and are acknowledged. For a message of the Mirror
not applied before: HELLO from a device that no half hosts is answered with a refusal, and one from a hosted device
starts its copy anew and is answered with the area. An accepting HELLO_REPLY from the enabled partner notes the area
and starts the first full copy; a refusing one leaves REFUSED. CUT_CLOSE from a hosted device whose record is damaged
changes nothing and answers TILE_CRC; a sound one is applied. TAP_RESULT from the partner ends its plan. (Derived from
R424, R473, R474, R475, R477, R478, R479.) -/
def Obligations.MirrorMessagesAct : Prop :=
  ∀ (s : State) (port now : Nat) (t : Txn),
    let w := s.taking now port t
    w.fresh t →
    (s.arrives now port (isMirMsg msgHello) t →
      (w.dev.hostOf t.src = none →
        exec (.hello port now) s = .next (s.handled port ((w.upd fun d => d.mirMsg t.src msgHelloReply 0 0 0 0).marked t stOk)))
      ∧ (∀ h, w.dev.hostOf t.src = some h →
        let x := w.dev.mir.host.get h
        let v := w.upd fun d => d.onMir fun m =>
          { m with host := m.host.set h { x with read := 0, wrote := 0, tapRead := 0, tapWrote := 0, closed := 0, plans := [] } }
        exec (.hello port now) s = .next (s.handled port ((((v.wr (x.base + mapOff) (List.replicate (mapBytes x.slots) 0)).hostHeader h).upd
          fun d => d.mirMsg t.src msgHelloReply 1 x.slots x.gib h.code).marked t stOk))))
    ∧ (s.arrives now port (isMirMsg msgHelloReply) t → w.dev.mir.partner = t.src →
      bit (w.dev.rn w.dev.leadHalf Reg.MIR_PARTNER) 31 = true → w.dev.mir.slots = 0 →
      exec (.helloReply port now) s = .next (s.handled port
        ((if fld t.data 8 8 = 0 then w.mirState 6 false
          else (w.upd fun d => d.onMir fun m =>
            { m with slots := fld t.data 16 8, ring := fld t.data 24 8 * 2 ^ 29, area := fld t.data 32 8, pos := 0, tail := 0, map := [],
                     dirty := [], openBytes := 0, openAt := none }).mirSync).marked t stOk)))
    ∧ (∀ h, s.arrives now port (isMirMsg msgCutClose) t → w.dev.hostOf t.src = some h →
      let len := fld t.data 16 8
      let n := fld t.data 8 8
      let rec_ := w.rdN ((w.dev.mir.host.get h).base + cutSlotOff n) len
      let good := 64 ≤ len ∧ len ≤ 2 ^ 28 ∧ fld rec_ 0 4 = 0x4D495243 ∧ fld rec_ 4 4 = n ∧ fld rec_ 56 4 = len
        ∧ crc32c (rec_.take 60 ++ toBytes 4 0 ++ rec_.drop 64) = fld rec_ 60 4
      (¬ good → exec (.cutClose port now) s = .next (s.handled port
        ((w.upd fun d => d.count (d.countHalf port) Reg.FAB_REFUSED_LO 1).marked t stTileCrc)))
      ∧ (good → exec (.cutClose port now) s = .next (s.handled port
          ((w.cutCloseIn t.src n len (fld t.data 24 8) (fld t.data 32 8)).1.marked t stOk))))
    ∧ (s.arrives now port (isMirMsg msgTapResult) t → t.src = w.dev.mir.partner →
      exec (.tapResult port now) s = .next (s.handled port
        ((w.tapEnds (fld t.data 8 8) (fld t.data 16 8) (decide (fld t.data 24 8 = stOk))).marked t stOk)))

/-- RESTORE_DONE brings rings and instances back, and the start broadcast's timers act. When the restore under way has its
image, RESTORE_DONE enables the recorded rings, reinstates the recorded instances, opens every job's remote access and
ends the restore with DONE; before that it changes only device time. Of a start under way: a member short of chunks
that is not asking already reads its parent's sector and pulls what it may. A member whose parent has stood still for
TIMEOUT_MS takes its grandparent. JSTART_CHILD_CHECK of a member that does not hold every chunk yet reads the sector
of each child that is neither lost nor done. (Derived from R481, R482, R484, R502, R503, R504, R505.) -/
def Obligations.RestoreAndStartTimers : Prop :=
  (∀ (s : State) (now : Nat) (r : MirRestore),
       let w := s.start.at_ now
       (s.devAt now).mir.restore = some r →
       (r.step = 5 →
         let x := cutSections r.record r.job
         exec (.restoreDone now) s = .next (s.put
           ((((x.rings.foldl (fun w b => w.upd (·.ringBack b)) w).reinstateAll r.job x.count x.insts).upd fun d => d.onHost fun s =>
             { s with jobs := s.jobs.map fun j => (j.1, { j.2 with remote := true }) }).restoreEnd 2)))
       ∧ (r.step ≠ 5 → exec (.restoreDone now) s = .next (s.withDev (s.devAt now))))
  ∧ (∀ (s : State) (now : Nat) (x : JStart),
       let w := s.start.at_ now
       let d := s.devAt now
       d.start = some x →
       (x.me ≠ 0 → x.have_ ≠ x.k → x.asking = false →
         exec (.jstartPoll now) s = .next (s.withDev (((d.readSector x x.parent).onStart fun x => { x with asking := true }).startPull)))
       ∧ (x.me ≠ 0 → x.have_ < x.k → x.movedAt + d.startTimeout ≤ d.time → x.parent ≠ 0 →
         let p := (x.parent - 1) / x.fan
         exec (.jstartParentTimeout now) s = .next (s.withDev ((d.onStart fun x =>
           { x with parent := p, out := [], tableLeft := none, seen := none, seenTable := false, movedAt := d.time, asking := false }).startStatus 1 0 p)))
       ∧ (x.allAt = none →
         let open_ := x.children.filter fun c => ¬ x.lost.contains c ∧ bits (ofBytes (w.rdN (x.base + x.sectorOff c) 4)) 28 4 ≠ 3
         exec (.jstartChildCheck now) s = .next (s.put ((open_.foldl (fun w c => w.upd fun d => d.readSector x c) w).startCheck))))

/-- Slices, rotations, quarantine and retirement follow the self-test of the facets. A facet that is enabled, idle for 20
µs, wanted by no READY node and near no tick starts its next slice. A periodic slice that ends after 40 µs counts;
failing, it counts too and quarantines the facet, which then runs the failed slice again by force; a second failure
retires it. A half's period that ends counts facets without a rotation as overdue. RETIREMENT_LIST_APPEND writes a
retired facet to flash, once. (Derived from R534, R535, R536, R537.) -/
def Obligations.PiccoloTestsFacets : Prop :=
  ∀ (s : State) (f now : Nat) (pass : Bool) (hf : Half),
    let w := s.start.at_ now
    let d := s.devAt now
    let h := facetHalf f
    let p := d.picOf f
    (d.top.ready = true → d.top.stopped = false → bit (d.rn h Reg.DBG_SELFTEST_CFG) 31 = true → d.facetIdle f = true → p.idleAt + 20000 ≤ d.time →
      p.next < 64 → d.wantedByReady f = false → d.tickNear = false →
      exec (.sliceStart f now) s = .next (s.withDev (d.onPic f fun p => { p with slice := some (p.next, false), sliceAt := d.time })))
    ∧ (∀ k, p.slice = some (k, false) → p.sliceAt + 40000 ≤ d.time →
      let c := (d.sliceWaits f).count h Reg.DBG_SELFTEST_SLICES_LO 1
      let c := if pass then c else c.count h Reg.DBG_SELFTEST_FAILS_LO 1
      exec (.sliceEnd f pass now) s = .next (s.withDev (c.onPic f fun p =>
        { p with slice := none, next := k + 1, rotated := p.rotated || (pass && k + 1 == 64), quar := p.quar || !pass,
                 redo := if pass then p.redo else some k })))
    ∧ (∀ k, p.slice = some (k, true) → p.sliceAt + 40000 ≤ d.time →
      exec (.sliceEnd f false now) s = .next (s.put
        (((w.upd fun d => d.count h Reg.DBG_SELFTEST_SLICES_LO 1).upd (·.count h Reg.DBG_SELFTEST_FAILS_LO 1)).retire f)))
    ∧ (d.top.ready = true → d.top.stopped = false → d.facetOn f = true → p.quar = true → p.slice = none → d.run f = none →
      exec (.forcedRotation f now) s = .next (s.withDev ((d.onPic f fun p =>
        { p with slice := some (p.redo.getD 0, true), sliceAt := d.time }).count h Reg.DBG_SELFTEST_FORCED_LO 1)))
    ∧ (let cfg := d.rn hf Reg.DBG_SELFTEST_CFG
       d.top.ready = true → bit cfg 31 = true → d.picAt.get hf + bits cfg 0 16 * 1000000000 ≤ d.time →
       exec (.piccoloPeriod hf now) s = .next (s.withDev (((facetsOf hf).filter d.facetOn).foldl (fun e f =>
         (if (e.picOf f).rotated then e else e.count hf Reg.DBG_SELFTEST_OVERDUE_LO 1).onPic f fun p =>
           { p with rotated := false, next := 0, overdue := if (e.picOf f).rotated then 0 else (e.picOf f).overdue + 1,
                    quar := p.quar || decide (bits cfg 16 4 ≤ if (e.picOf f).rotated then 0 else (e.picOf f).overdue + 1) })
         { d with picAt := d.picAt.set hf d.time })))
    ∧ (p.retired = true → d.top.flash.retired.contains f = false →
      exec (.retirementListAppend f now) s = .next (s.withDev (d.onTop fun t =>
        { t with flash := { t.flash with retired := t.flash.retired ++ [f] } })))

/-- Temperature, power, telemetry, scrub and time sources act as their chapters say. TEMP_READING stores its sensor and
re-evaluates alert and trip; a hottest sensor at TRIP_C or above leaves the device TRIPPED with both halves at 400
MHz. TRIP_RECOVERY after 100 ms of cooling clears TRIPPED. CAP_STEP 1 ms or more after the last, over the cap, lowers
both halves by 25 MHz, not below 400, and leaves pinned clocks alone, counting the time over the cap. TELEMETRY_SAMPLE
samples the twelve items. PATROL_SCRUB of a block counts it, corrects and counts an error of one symbol, and poisons
an access that cannot be corrected. SERDES_REFCLK_LOSS retrains the running ports of its quarter. PPS_IN at a master
sets or slews time. (Derived from R22, R24, R241, R247, R494, R516, R517, R519, R520, R567, R569.) -/
def Obligations.ClocksAndSensors : Prop :=
  ∀ (s : State) (h : Half) (now : Nat),
    let w := s.start.at_ now
    let d := s.devAt now
    (∀ n temp, d.top.pwrGood = true → n < 16 →
      let v := w.upd (·.onSc h fun s => { s with temps := setNth s.temps n temp })
      exec (.tempReading h n temp now) s = .next (s.put v.thermal)
      ∧ (v.dev.tripTemp ≤ v.dev.hottest →
        ∃ u, exec (.tempReading h n temp now) s = .next u ∧ u.dev.top.tripped = true ∧ u.dev.top.sc.w.clk = 400 ∧ u.dev.top.sc.e.clk = 400))
    ∧ (∀ t, d.top.coolSince = some t → d.top.tripped = true → t + 100000000 ≤ d.time →
      exec (.tripRecovery now) s = .next (s.withDev (d.onTop fun t => { t with tripped := false, recovering := true, capBelow := 0 })))
    ∧ (∀ power west east, (d.top.sc.w.st = .booted ∨ d.top.sc.e.st = .booted) → d.top.capTime + 1000000 ≤ d.time → d.top.tripped = false →
      d.capWatts < power →
      let v := w.upd fun d => d.onTop fun t => { t with power := power, halfPower := ⟨west, east⟩, capTime := d.time }
      let down (w : Wk) (h : Half) : Wk := w.setClk h (max 400 ((w.dev.top.sc.get h).clk - 25))
      (d.clkHeld = false →
        exec (.capStep power west east now) s = .next (s.put ((down (down v .west) .east).upd (·.onTop fun t => { t with capBelow := 0 }))))
      ∧ (d.clkHeld = true → d.top.recovering = false →
        exec (.capStep power west east now) s = .next (s.put (v.upd fun e =>
          e.count .west Reg.TOP_POWER_OVER_NS_LO (d.time - d.top.capTime)))))
    ∧ (∀ tw te, (d.top.sc.w.st = .booted ∨ d.top.sc.e.st = .booted) → (∀ t, d.top.telemetry = some t → t.time + 1000000 ≤ d.time) →
      let e := (d.onSc .west fun s => { s with stackTemp := tw }).onSc .east fun s => { s with stackTemp := te }
      exec (.telemetrySample tw te now) s = .next (s.withDev (e.onTop fun t =>
        { t with telemetry := some ⟨d.time, (List.range 12).map fun i => (i + 1, e.telemetryItem ⟨tw, te⟩ (i + 1))⟩ })))
    ∧ (∀ a data check, let k := (placeStack a).stack
      let errs := rsErrs data check
      let x := Half.ofCode (k / 8)
      isLocal a = true → isSram a = false → bit (d.rn x Reg.MEM_SCRUB_CFG) 31 = true → bit d.top.stackUp k = true → d.lostAt a = false →
      let n := (aget d.host.scrub k).getD 0 + 1
      let v := w.upd fun d => (if n = stackBlocks then d.count x Reg.MEM_SCRUB_PASSES_LO 1 else d).onHost fun s =>
        { s with scrub := aput s.scrub k (n % stackBlocks) }
      (rsRead errs = .clean → rsWhole errs = true → exec (.patrolScrub a data check now) s = .next (s.put v))
      ∧ (∀ i y, rsRead errs = .fixed i y → rsWhole errs = true → exec (.patrolScrub a data check now) s = .next (s.put (v.upd fun d =>
          (d.count (halfOf a) Reg.MEM_ECC_CE_LO 1).count .west Reg.TOP_ERR_CORRECTED_LO 1)))
      ∧ (rsRead errs = .bad → exec (.patrolScrub a data check now) s = .next (s.put (v.upd (·.poisonBlock a)))))
    ∧ (∀ q, q < 4 → exec (.serdesRefclkLoss q now) s = .next (s.put (((List.range 16).map fun i => 16 * q + i).foldl
        (fun w p => if (w.dev.fport p).st = .up ∨ (w.dev.fport p).st = .securing then w.portTo p .retraining else w) w)))
    ∧ (d.timeCfg.1 = true → (∀ t, d.top.ppsLast = some t → t + 900000000 ≤ d.time) →
      (d.top.ready = false → d.top.timeSet = false →
        ∃ u, exec (.ppsIn now) s = .next u ∧ u.dev.time % 1000000000 = 0 ∧ d.time ≤ u.dev.time ∧ u.dev.top.timeSet = true)
      ∧ (d.top.ready = true → -1000000 ≤ ppsOffset d.time → ppsOffset d.time ≤ 1000000 →
        exec (.ppsIn now) s = .next (s.withDev (d.onTop fun t => { t with slew := ppsOffset d.time, ppsLast := some d.time }))))

/-- Configuration, PERST, VF Enable, doorbell enable, link state, BAR4, vectors and FLR act on their port and function. A
configuration request is answered Retry Status until the port is ready; then a function of the port answers a read
with its register and takes a write, and a function the port does not present is an Unsupported Request. PERST_N
deasserted after the election makes the port ready; asserted, it takes the port down. VF Enable and doorbell enable
set their bits, clearing VF Enable fences the VFs' pages, and a link change sets the port's link to a rate and width
it supports. A BAR4 access that is allowed moves its bytes; a refused read is a Completer Abort, a read of poisoned
bytes is one too, and a refused write changes no memory. A due cause makes its vector send; unmasking a pending vector
sends. An FLR returns the function's state to its reset. (Derived from R275, R277, R280, R281, R304, R580.) -/
def Obligations.HostPortsAnswer : Prop :=
  ∀ (s : State) (h : Half) (fn now : Nat),
    let d := s.devAt now
    (∀ reg value, (s.dev.host.ports.get h).cfgReady = false →
      exec (.configurationRequest ⟨h, fn, reg, value⟩) s = .next (s.withDev { s.dev with resp := .retryStatus }))
    ∧ (∀ reg, (s.dev.host.ports.get h).cfgReady = true →
      (s.dev.fnHalf fn = some h →
        exec (.configurationRequest ⟨h, fn, reg, none⟩) s = .next (s.withDev { s.dev with resp := .bytes (s.dev.configRead h fn reg) })
        ∧ ∀ v, exec (.configurationRequest ⟨h, fn, reg, some v⟩) s = .next (s.withDev { s.dev.configWrite h fn reg v with resp := .ok }))
      ∧ (s.dev.fnHalf fn ≠ some h → ∀ value,
        exec (.configurationRequest ⟨h, fn, reg, value⟩) s = .next (s.withDev { s.dev with resp := .unsupported })))
    ∧ exec (.perstN h now true) s = .next (s.withDev (d.onPort h fun p => { p with perst := true, cfgReady := d.top.portLead.isSome }))
    ∧ exec (.perstN h now false) s = .next (s.withDev (((allFns.filter fun fn => d.fnHalf fn = some h).foldl
        (fun d fn => d.setFunc fn { d.func fn with payload := 0, readReq := 2, d3hot := false }) d).onPort h fun _ => Port.cold))
    ∧ (d.top.portLead = some h →
      exec (.vfEnable now true) s = .next (s.withDev (d.onPort h fun p => { p with vfEnable := true }))
      ∧ exec (.vfEnable now false) s = .next (s.withDev ((d.onPort h fun p => { p with vfEnable := false }).fencePages
          fun fn => fn != 0 && fn != 0x40)))
    ∧ (d.mayEnable fn = true → exec (.doorbellEnable fn now) s = .next (s.withDev (d.setFunc fn { d.func fn with pagesOn := true })))
    ∧ (∀ speed width flit ide,
      (speed ≠ 0 → width ≠ 0 → exec (.pcieLinkState h speed width flit ide now) s = .next (s.withDev (d.onPort h fun p =>
        { p with speed := linkSpeed speed, width := linkWidth width, flit := flit, ide := ide, ideStopped := if ide then false else p.ideStopped })))
      ∧ (speed = 0 ∨ width = 0 → exec (.pcieLinkState h speed width flit ide now) s = .next (s.withDev (d.onPort h fun p =>
        { p with speed := 0, width := 0, flit := false, ide := false, ideStopped := if ide then false else p.ideStopped }))))
    ∧ (∀ off n a, s.dev.bar4 fn off n false = some (a, true) →
      (s.dev.poisonIn a n = none → exec (.bar4Read fn off n) s = .next (s.withDev { s.dev with resp := .bytes (s.start.rdN a n) }))
      ∧ (∀ k, s.dev.poisonIn a n = some k → exec (.bar4Read fn off n) s = .next (s.withDev
          { s.dev.count (halfOf k) Reg.MEM_POISON_READ_LO 1 with resp := .completerAbort })))
    ∧ (∀ off n a, s.dev.bar4 fn off n false = some (a, false) →
      exec (.bar4Read fn off n) s = .next (s.withDev { s.dev.bar4Refuse fn a with resp := .completerAbort }))
    ∧ (∀ off a bs, s.dev.bar4 fn off bs.length true = some (a, true) → exec (.bar4Write fn off bs) s = .next (s.put (s.start.wr a bs)))
    ∧ (∀ off a bs, s.dev.bar4 fn off bs.length true = some (a, false) → exec (.bar4Write fn off bs) s = .next (s.withDev (s.dev.bar4Refuse fn a)))
    ∧ (∀ v c, c ∈ (d.vec fn v).causes → vecDue (d.vec fn v) d.time c.modUs = true →
      exec (.msixMessage fn v now) s = .next (s.withDev (d.fireVec fn v)))
    ∧ (∀ v, v < 32 → (d.vec fn v).masked = true → (d.vec fn v).pend = true →
      exec (.msixVectorUnmask fn v now) s = .next (s.withDev ((d.setVec fn v { d.vec fn v with masked := false }).fireVec fn v)))
    ∧ ((d.fnHalf fn).isSome = true →
      let v := (((s.start.at_ now).upd fun d => (d.setFunc fn { d.func fn with pagesOn := false }).muteRings fn).killFnInsts fn)
      let v := v.upd fun d =>
        (((d.dropClientRegions (clientOf fn)).onHost fun s => { s with rings := s.rings.filter fun p => p.1 / 16 ≠ fn }).setFunc fn
          Func.cold).resetWindow fn
      let v := ((v.dev.host.jobs.filter fun p => p.2.fn = fn).map (·.1)).foldl (fun w j => w.forceRemove j) v
      exec (.functionLevelReset fn now) s = .next (s.put ((v.post (v.dev.fnHome fn) fn { kind := 0xE, d0 := fn * 256 }).mirBufs)))

/-- Doorbells move their index, and the write-back unit writes heads and records to the host. On a ring whose doorbell
writes are taken: a tail within the SQ's size is stored, one beyond it halts the job OVERRUN, and a head within the
CQ's size is stored. The low word of the abort doorbell is held until the high word runs the abort of the tag they
make. The event head is stored and a lost count reported. A ring pair that takes no doorbell writes counts the write
as dropped. SQ_HEAD_WRITEBACK and RECORD_WRITEBACK write their bytes to host memory and count; RING_DRAINED of an
empty draining ring disables it. A host read or write that ends in error fails what it was for: the command, the ring,
or the Event Record, which is counted lost. (Derived from R285, R287, R288, R289, R291, R292, R298, R306, R580.) -/
def Obligations.DoorbellsAndRecords : Prop :=
  ∀ (s : State) (fn r now : Nat) (v : Word32),
    let w := s.start.at_ now
    let d := s.devAt now
    let x := d.ring fn r
    (d.dbReach fn r = true → d.dbTaken fn r = true →
      (idxSub v.toNat x.sqHead ≤ d.sqSize fn r → exec (.hostDbSqTail fn r v now) s = .next (s.withDev (d.setRing fn r { x with sqTail := v.toNat })))
      ∧ (d.sqSize fn r < idxSub v.toNat x.sqHead → exec (.hostDbSqTail fn r v now) s = .next (s.put (w.jobFatal (d.ringJob fn r) stOverrun)))
      ∧ exec (.hostDbAbortTagHi fn r (some v) none now) s = .next (s.withDev (d.setRing fn r { x with abortLo := some v }))
      ∧ exec (.hostDbAbortTagHi fn r none (some v) now) s = .next (s.put
          ((w.upd fun d => d.setRing fn r { x with abortLo := none }).abortTag fn r ((x.abortLo.getD 0).toNat + 2 ^ 32 * v.toNat)))
      ∧ (∀ lo, exec (.hostDbAbortTagHi fn r (some lo) (some v) now) s = .next (s.put
          (((w.upd fun d => d.setRing fn r { x with abortLo := some lo }).upd fun d => d.setRing fn r { x with abortLo := none }).abortTag fn r
            (lo.toNat + 2 ^ 32 * v.toNat)))))
    ∧ (s.dev.dbReach fn r = true → s.dev.dbTaken fn r = true → idxSub (s.dev.ring fn r).cqTail v.toNat ≤ 2 ^ s.dev.cqLog2 fn r →
      exec (.hostDbCqHead fn r v) s = .next (s.withDev (s.dev.setRing fn r { s.dev.ring fn r with cqHead := v.toNat })))
    ∧ (d.dbReach fn r = true → d.dbTaken fn r = false → exec (.hostDbSqTail fn r v now) s = .next (s.withDev (d.dbDropped fn)))
    ∧ (d.dbReach fn r = true → (d.func fn).pagesOn = true → (d.func fn).evt.on = true →
      exec (.hostDbEvtHead fn r v now) s = .next (s.put ((w.upd fun d =>
        d.setFunc fn { d.func fn with evt := { (d.func fn).evt with head := v.toNat } }).reportLost fn)))
    ∧ (x.wbDue = true → (∀ t, x.wbLast = some t → t + 1000 ≤ d.time) → d.fnDelivers fn = true →
      exec (.sqHeadWriteback fn r now) s = .next (s.put ((w.wrH (d.ringReg64 fn r 0x10) (toBytes 8 x.sqHead)).upd fun d =>
        d.setRing fn r { x with wbDue := false, wbLast := some d.time })))
    ∧ (∀ c l, x.held = c :: l → c.at_ = none → idxSub x.cqTail x.cqHead < 2 ^ d.cqLog2 fn r → d.fnDelivers fn = true →
      let lg := d.cqLog2 fn r
      let top := (c.bytes.getD 31 0) ||| (if bit (x.cqTail / 2 ^ lg) 0 then 0 else 0x80)
      exec (.recordWriteback fn r now) s = .next (s.put
        ((w.wrH (d.ringReg64 fn r 8 + 32 * (x.cqTail % 2 ^ lg)) (c.bytes.take 31 ++ [top])).upd fun d =>
          let e := (d.setRing fn r { x with held := l, cqTail := (x.cqTail + 1) % 2 ^ 32 })
          let e := e.count (e.fnHome fn) Reg.HOST_RECORDS_WRITTEN_LO 1
          let e := if bit (c.bytes.getD 31 0).toNat 6 then e.countGraphRec fn else e
          if c.signal then e.raiseRing fn r else e)))
    ∧ ((s.dev.ring fn r).st = .draining → s.dev.ringInsts fn r = 0 → ((s.dev.ring fn r).held = [] ∨ (s.dev.ring fn r).broken = true) →
      (∀ p ∈ s.dev.tgu.frames, p.2.fn = fn → p.2.ring = r → p.2.armed = false ∧ p.2.waiting = []) →
      exec (.ringDrained fn r) s = .next (s.withDev (s.dev.setRing fn r { s.dev.ring fn r with st := .disabled, held := [] })))
    ∧ (x.st = .enabled → x.exposed ≠ [] → ∀ i j, exec (.hostReadError fn r i j true now) s = .next (s.put
        ((w.upd fun d => d.count (d.fnHome fn) Reg.HOST_GRAPHS_ADMITTED_LO 1).gsdFail fn r 0 stDenied false)))
    ∧ (∀ i j, exec (.hostReadError fn r i j false now) s = .next (s.put (w.fail i j stDenied 0)))
    ∧ (∀ i j n job id tag attempt a, d.node i j = some n → n.st ≠ .done →
      exec (.hostWriteError (.command i j attempt) job id tag a now) s = .next (s.put (w.fail i j stDenied a)))
    ∧ (∀ job id tag a, x.st ≠ .disabled → exec (.hostWriteError (.record fn r) job id tag a now) s = .next (s.put
        ((w.upd fun d => d.setRing fn r { x with broken := true, held := [], wbDue := false }).jobFatal (d.ringJob fn r) stDenied)))
    ∧ (∀ job id tag a, (d.func fn).evt.on = true → exec (.hostWriteError (.event fn) job id tag a now) s = .next (s.withDev (d.evtDrop fn 0)))

/-- A pair's words are held, committed and captured, and a write to a lead-only register waits for the shadow. For the PF
or standby function and a pair whose writes act at once, the write of _LO holds its value and changes no register; the
write of _HI takes the held word, or the live one, commits the pair under its register's rule and empties the holding
register. A read of _LO returns the low word and captures the high word of its function; a read of _HI returns the
captured word, else the live one. A plain register reads live. A write to a lead-only register in NORMAL only joins
the writes for the next batch, and a write to a read-only one does nothing. (Derived from R8, R9, R547, R548, R549,
R550, R551, R552.) -/
def Obligations.RegisterAccessRules : Prop :=
  ∀ (s : State) (fn now off : Nat) (win : Half) (v : Word32) (row : RegRow),
    let bar := win.code * 2 ^ 24 + off
    let d := s.devAt now
    let seen := (s.start.at_ now).afterOwn fn win off
    (d.fnHalf fn).isSome = true → (fn = 0 ∨ fn = 0x40) → off < 2 ^ 24 → off % 4 = 0 → findRow off = some row →
    ((∀ p, row.part = .lo → s.Acts fn win s.dev.time (row.scope == .lead) → row.acc ≠ .ro → s.dev.windowOf win off = some p →
      exec (.pairLoWrite fn bar v) s = .next (s.withDev { s.dev with resp := .ok, hold := aput s.dev.hold (holdKey win row off) v }))
    ∧ (∀ p, row.part = .hi → s.Acts fn win now (row.scope == .lead) → row.acc ≠ .ro → d.windowOf win off = some p →
      let live := match findRow (off - 4) with | some r => d.live win r (off - 4) | none => 0
      let lo := (aget d.hold (holdKey win row off)).getD live
      exec (.pairHiWrite fn bar v now) s = .next (s.put (((s.posted now).upd fun d =>
        { d with hold := adel d.hold (holdKey win row off) }).pairCommit win row off p lo.toNat v.toNat)))
    ∧ (row.part = .lo → exec (.pairLoRead fn 0 bar 4 now) s = .next (s.withDev
        { d with resp := .word (seen.readWindow win off), capt := aput d.capt (fn, holdKey win row off) (seen.readWindow win (off + 4)) }))
    ∧ (row.part = .hi → exec (.pairLoRead fn 0 bar 4 now) s = .next (s.withDev
        { d with resp := .word ((aget d.capt (fn, holdKey win row off)).getD (seen.readWindow win off)),
                 capt := adel d.capt (fn, holdKey win row off) }))
    ∧ (row.part = .plain → exec (.pairLoRead fn 0 bar 4 now) s = .next (s.withDev { d with resp := .word (seen.readWindow win off) }))
    ∧ (row.part = .plain → s.Acts fn win now (row.scope == .lead) → row.acc ≠ .ro →
      exec (.registerWrite fn bar 4 v now) s = .next (s.put ((s.posted now).regEffect fn win off v)))
    ∧ (row.scope = .lead → row.acc ≠ .ro → d.windowLives win = true → d.top.ready = true → d.top.stopped = false →
      (d.top.lead.get win).leads win = true → (d.top.lead.get win).st = .normal →
      exec (.registerWrite fn bar 4 v now) s = .next (s.put ((s.posted now).upd fun d =>
        d.onTgu fun t => { t with lwrites := t.lwrites ++ [⟨fn, win, off, v, false⟩] })))
    ∧ (row.acc = .ro → exec (.registerWrite fn bar 4 v now) s = .next (s.put (s.posted now))))

/-- A write of a set-up register has the effect its register names, at once or, to a lead-only register of a NORMAL half,
with the next batch. When a write of the PF or standby function to the register acts at once, each command that is one
register write has, after the posted completion, exactly the effect named for it: mode and fatal status, facet clk and
thermal set-up, context, predictor, residency, retention and lane set-up, pool reserves, ports, host area, start
broadcast and mailbox in any half; remote access, regions, readers, routes, members and groups, training set-up,
protection, partner and restore in a half that leads alone. In a half that leads in NORMAL those of the second kind
join the writes that the next batch takes to the shadow. (Derived from R98, R140, R210, R254, R271, R348, R369, R377,
R393, R397, R464, R487.) -/
def Obligations.WindowRegistersAct : Prop :=
  ∀ (s : State) (fn now p c : Nat) (win : Half) (v : Word32),
    let n := v.toNat
    let w := s.posted now
    (s.Acts fn win now false →
      exec (.topFatalStatusClear fn win v now) s = .next (s.put
        (if bit n 31 then w.upd (·.onTop fun t => { t with fatal := { t.fatal with valid := false } }) else w))
      ∧ exec (.topDeviceModeWrite fn win v now) s = .next (s.put (w.upd (·.onTop fun t => { t with strictReq := bit n 0 })))
      ∧ exec (.topFacetClkWrite fn win v now) s = .next (s.put (w.facetClkWrite v))
      ∧ exec (.topThermCfgWrite fn win v now) s = .next (s.put (w.thermCfgWrite v))
      ∧ exec (.prismCtxHighWrite fn win v now) s = .next (s.put (w.upd (·.ctxHighWrite win)))
      ∧ exec (.efuPredClear fn win v now) s = .next (s.put (w.upd (·.predClear win n)))
      ∧ exec (.tguFacetRetainWrite fn win v now) s = .next (s.put (w.upd fun d => d.retainWrite win (min 24576 (n % 32768))))
      ∧ exec (.bpmPoolReserveWrite fn win p c v now) s = .next (s.put (w.upd (·.setReserve win (p % 16) (c % 64) (n % 2097152))))
      ∧ exec (.fabPortCfgWrite fn win p v now) s = .next (s.put (w.portCfgWrite (16 * win.code + p % 16) n))
      ∧ exec (.mirHostEnable fn win v now) s = .next (s.put (w.hostWrite win n))
      ∧ exec (.jstartStart fn win now) s = .next (s.put w.startBegin)
      ∧ exec (.jstartCancel fn win now) s = .next (s.put (w.startFails stAborted))
      ∧ exec (.secMailboxGo fn win v now) s = .next (s.put (w.upd (·.mailboxGo win v)))
      ∧ exec (.tguLaneSplitWrite fn win v now) s = .next (s.put
        (w.upd fun d => d.setReg win Reg.TGU_LANE_SPLIT ((d.reg win Reg.TGU_LANE_SPLIT &&& ~~~0x100FF) ||| (v &&& 0x100FF))))
      ∧ exec (.efuResidentLimitWrite fn win v now) s = .next (s.put
        (w.upd fun d => (d.setReg win Reg.EFU_RESIDENT_LIMIT
          ((d.reg win Reg.EFU_RESIDENT_LIMIT &&& ~~~0x1FF) ||| w32 (min 256 (n % 512)))).residentTrim win))
      ∧ (let lo := Reg.BPM_POOL_CFG_LO + 8 * (p % 16)
        exec (.bpmPoolCfgHi fn win p v now) s = .next (s.put
          ((w.upd (·.dropLo win lo)).upd (·.poolCfg win (p % 16) (w.dev.heldLo win lo % 2 ^ 24) (n % 2 ^ 21))))))
    ∧ (s.Acts fn win now true →
      exec (.fabRemoteEnable fn win now) s = .next (s.put (w.upd (·.remoteCtl 1)))
      ∧ exec (.fabRemoteDisable fn win now) s = .next (s.put (w.upd (·.remoteCtl 2)))
      ∧ exec (.fabRegionInstall fn win now) s = .next (s.put (w.upd (·.regionInstall)))
      ∧ exec (.fabRegionRemove fn win now) s = .next (s.put (w.upd (·.regionRemove)))
      ∧ exec (.fabRegionLookup fn win now) s = .next (s.put (w.upd (·.regionLookup)))
      ∧ exec (.fabReaderWrite fn win now) s = .next (s.put (w.upd (·.readerCtl 1)))
      ∧ exec (.fabReaderClear fn win now) s = .next (s.put (w.upd (·.readerCtl 2)))
      ∧ exec (.fabReaderRead fn win now) s = .next (s.put (w.upd (·.readerCtl 3)))
      ∧ exec (.ceMemberDataWrite fn win v now) s = .next (s.put (w.upd (·.memberWrite n)))
      ∧ exec (.ceGroupInstall fn win now) s = .next (s.put (w.groupCtl 0))
      ∧ exec (.ceGroupReform fn win now) s = .next (s.put (w.groupCtl 1))
      ∧ exec (.ceGroupRemove fn win now) s = .next (s.put (w.groupCtl 2))
      ∧ exec (.ceGroupLookup fn win now) s = .next (s.put (w.groupCtl 3))
      ∧ exec (.protect fn win now) s = .next (s.put (w.mirJobCtl 1))
      ∧ exec (.unprotect fn win now) s = .next (s.put (w.mirJobCtl 2))
      ∧ exec (.mirPartnerEnable fn win v now) s = .next (s.put (w.partnerWrite n))
      ∧ exec (.restoreStart fn win now) s = .next (s.put (w.restoreStart 1))
      ∧ exec (.tguTrainTableHi fn win v now) s = .next (s.put
        ((w.upd (·.dropLo win Reg.TGU_TRAIN_TABLE_LO)).upd (·.trainTable (w.dev.heldLo win Reg.TGU_TRAIN_TABLE_LO + 2 ^ 32 * n))))
      ∧ exec (.fabRouteEntryHi fn win v now) s = .next (s.put
        ((w.upd (·.dropLo win Reg.FAB_ROUTE_ENTRY_LO)).routeSet (w.dev.heldLo win Reg.FAB_ROUTE_ENTRY_LO) n))
      ∧ exec (.fabSetupHashHi fn win v now) s = .next (s.put
        ((w.upd (·.dropLo win Reg.FAB_SETUP_HASH_LO)).upd (·.setupHashWrite (w.dev.heldLo win Reg.FAB_SETUP_HASH_LO) n))))
    ∧ (s.Joins fn win now →
      exec (.fabRemoteEnable fn win now) s = .next (s.joined now fn win Reg.FAB_REMOTE_CTL 1)
      ∧ exec (.fabRemoteDisable fn win now) s = .next (s.joined now fn win Reg.FAB_REMOTE_CTL 2)
      ∧ exec (.fabRegionInstall fn win now) s = .next (s.joined now fn win Reg.FAB_REGION_CTL 1)
      ∧ exec (.fabRegionRemove fn win now) s = .next (s.joined now fn win Reg.FAB_REGION_CTL 2)
      ∧ exec (.fabRegionLookup fn win now) s = .next (s.joined now fn win Reg.FAB_REGION_CTL 3)
      ∧ exec (.fabReaderWrite fn win now) s = .next (s.joined now fn win Reg.FAB_READER_CTL 1)
      ∧ exec (.fabReaderClear fn win now) s = .next (s.joined now fn win Reg.FAB_READER_CTL 2)
      ∧ exec (.fabReaderRead fn win now) s = .next (s.joined now fn win Reg.FAB_READER_CTL 3)
      ∧ exec (.ceMemberDataWrite fn win v now) s = .next (s.joined now fn win Reg.CE_MEMBER_DATA v)
      ∧ exec (.ceGroupInstall fn win now) s = .next (s.joined now fn win Reg.CE_GROUP_CTL 0)
      ∧ exec (.ceGroupReform fn win now) s = .next (s.joined now fn win Reg.CE_GROUP_CTL 1)
      ∧ exec (.ceGroupRemove fn win now) s = .next (s.joined now fn win Reg.CE_GROUP_CTL 2)
      ∧ exec (.ceGroupLookup fn win now) s = .next (s.joined now fn win Reg.CE_GROUP_CTL 3)
      ∧ exec (.protect fn win now) s = .next (s.joined now fn win Reg.MIR_JOB_CTL 1)
      ∧ exec (.unprotect fn win now) s = .next (s.joined now fn win Reg.MIR_JOB_CTL 2)
      ∧ exec (.mirPartnerEnable fn win v now) s = .next (s.joined now fn win Reg.MIR_PARTNER v)
      ∧ exec (.restoreStart fn win now) s = .next (s.joined now fn win Reg.MIR_RESTORE_CTL 1)
      ∧ exec (.tguTrainTableHi fn win v now) s = .next (s.joined now fn win Reg.TGU_TRAIN_TABLE_HI v)
      ∧ exec (.fabRouteEntryHi fn win v now) s = .next (s.joined now fn win Reg.FAB_ROUTE_ENTRY_HI v)
      ∧ exec (.fabSetupHashHi fn win v now) s = .next (s.joined now fn win Reg.FAB_SETUP_HASH_HI v))

/-- CREATE, REMOVE, FORCE_REMOVE and ring and event-ring enables act on the function's own client window. For any function
that a living, READY, running half carries: CREATE makes the job that its registers name; REMOVE of its own resident
job with no instance admitted, and FORCE_REMOVE of its own resident job, take it out and answer 1; RING_ENABLE,
RING_DISABLE and EVENT_RING_ENABLE write the ring's or event ring's configuration under its rule. Mirror protection
follows the buffers that a job gives up. (Derived from R282, R285, R289, R305, R545.) -/
def Obligations.ClientWindowActs : Prop :=
  ∀ (s : State) (fn r now : Nat) (h : Half) (v : Word32),
    let w := s.posted now
    let d := w.dev
    (fn < 64 ∨ fn = 0x40) → d.fnHalf fn = some h → d.windowLives h = true → d.top.ready = true → d.top.stopped = false →
    exec (.create fn now) s = .next (s.put ((w.upd (·.jobCreate fn)).mirBufs))
    ∧ (∀ j, let id := d.rn h (winOff fn 0x500)
      id ≠ 0 → d.job id = some j → j.client = clientOf fn →
      (d.jobBusy id = false → exec (.remove fn now) s = .next (s.put (((w.removeJob id).upd (·.jobResult fn 1)).mirBufs)))
      ∧ exec (.forceRemove fn now) s = .next (s.put (((w.forceRemove id).upd (·.jobResult fn 1)).mirBufs)))
    ∧ exec (.ringEnable fn r v now) s = .next (s.put (w.upd (·.ringCfg fn fn (r % 16) (v ||| 0x80000000))))
    ∧ exec (.ringDisable fn r v now) s = .next (s.put (w.upd (·.ringCfg fn fn (r % 16) (v &&& 0x7FFFFFFF))))
    ∧ exec (.eventRingEnable fn v now) s = .next (s.put (w.upd (·.evtCfg fn v)))

/-- A register access that is not an aligned 32-bit word is an Unsupported Request and has no effect. For every function,
offset and size with a size other than 4 bytes or an offset not a multiple of 4, a read of a register through BAR0 or
BAR2 and a write of one are answered with an Unsupported Request, and apart from that answer and device time the state
is as before; an aligned 32-bit write is answered with a Successful Completion. (Rules R7.) -/
def Obligations.HostWordAccess : Prop :=
  ∀ (s : State) (fn off size now : Nat) (v : Word32),
    ((size ≠ 4 ∨ off % 4 ≠ 0) →
      (∀ bar, exec (.pairLoRead fn bar off size now) s = .next (s.withDev { s.devAt now with resp := .unsupported }))
      ∧ exec (.registerWrite fn off size v now) s = .next (s.withDev { s.devAt now with resp := .unsupported }))
    ∧ (size = 4 → off % 4 = 0 → ∃ u, exec (.registerWrite fn off size v now) s = .next u ∧ u.dev.resp = .ok)

/-- A half's floor starts at PRIOR, falls by 1 every DECAY_MS, and rises at a retirement. At reset each half's floor is
HM_CFG.PRIOR. The floor falls by 1 at each DECAY_MS that has passed since its last start, until it is 0, and not
before. A facet retirement raises the floor of its half by PICCOLO_BUMP, up to 15, and starts the decay again from
that moment. (Rules R467.) -/
def Obligations.HealthFloor : Prop :=
  (∀ h : Half, (State.reset.dev.hm.get h).floor = bits (State.reset.dev.rn h Reg.HM_CFG) 0 4)
  ∧ (∀ (s : State) (h : Half) (now : Nat),
      let d := s.devAt now
      let x := d.hm.get h
      let ms := bits (d.rn h Reg.HM_CFG) 16 16
      (x.floor = 0 ∨ d.time < x.floorAt + 1000000 * ms → exec (.hmFloorDecay h now) s = .next (s.withDev d))
      ∧ (x.floor ≠ 0 → x.floorAt + 1000000 * ms ≤ d.time →
        exec (.hmFloorDecay h now) s = .next (s.withDev { d with hm := d.hm.set h { x with floor := x.floor - 1, floorAt := x.floorAt + 1000000 * ms } })))
  ∧ (∀ (w : Wk) (f : Nat), ∃ v : Wk, w.retire f = v.upd (·.raiseFloor (facetHalf f))
      ∧ ((w.retire f).dev.hm.get (facetHalf f)).floor
          = min 15 ((v.dev.hm.get (facetHalf f)).floor + bits (v.dev.rn (facetHalf f) Reg.HM_CFG) 4 4)
      ∧ ((w.retire f).dev.hm.get (facetHalf f)).floorAt = v.dev.time)

/-- A served management request that only reads is answered SUCCESS with what the state holds. GET_IDENTITY,
TELEMETRY_READ once a sample stands, EVENT_LOG_READ of either log, LEAD_STATUS, STAGE_STATUS and LIFECYCLE_CHALLENGE,
each served in a role that permits it, are answered with their code, tag and payload; of the device only the nonce,
free values and the answer's path change. Payload layouts are the model's (assumption 13). (Derived from R460, R511,
R512, R513, R516, R521, R527, R530, R544.) -/
def Obligations.ManagementAnswers : Prop :=
  ∀ (s : State) (r : Request) (p : List Byte) (tag : Nat),
    let w := s.start.at_ r.now
    let d := s.devAt r.now
    let h := r.half
    (s.Served r 0x01 .anyone [] p tag → exec (.getIdentity r) s = .next (s.answers r 1 tag w ccSuccess
        (toBytes 4 (d.rn h Reg.FAB_DEVICE_ID) ++ toBytes 4 d.topId ++ toBytes 1 h.code ++ toBytes 16 Config.uniqueId
          ++ toBytes 1 d.top.lifecycle.code ++ toBytes 1 (b2n d.top.approved))))
    ∧ (∀ given t, s.Served r 0x02 .anyone given p tag → p.length ≤ 32 → d.top.telemetry = some t →
      exec (.telemetryRead r given) s = .next (s.answers r 2 tag w ccSuccess (toBytes 8 t.time ++ p.flatMap fun c =>
        [c] ++ toBytes 2 ((aget t.items c.toNat).getD []).length ++ (aget t.items c.toNat).getD [])))
    ∧ (∀ given, s.Served r 0x03 .operator given p tag → p.length = 5 → fld p 0 1 ≤ 1 →
      let log := if fld p 0 1 = 0 then ((d.top.sc.get h).logBase, (d.top.sc.get h).log) else (d.top.flash.fatalBase, d.top.flash.fatalLog)
      let first := max log.1 (fld p 1 4)
      exec (.eventLogRead r given) s = .next (s.answers r 3 tag w ccSuccess
        (toBytes 4 first ++ ((log.2.drop (first - log.1)).take ((bodyLimit r.path - 4) / 64)).flatten)))
    ∧ (s.Served r 0x07 .officer [] p tag → exec (.leadStatus r) s = .next (s.answers r 7 tag w ccSuccess
        (toBytes 4 (d.leadStatus h) ++ toBytes 1 (d.top.lead.get h).health)))
    ∧ (s.Served r 0x0C .officer [] p tag → d.leadServes = true → exec (.stageStatus r) s = .next (s.answers r 12 tag w ccSuccess
        (d.top.flash.images.w.entry ++ d.top.flash.images.e.entry ++ d.top.flash.records.w.entry ++ d.top.flash.records.e.entry)))
    ∧ (s.Served r 0x0D .anyone [] p tag →
      let f (k : Nat) : Nat := (Config.freeWord (d.free + k)).toNat
      let n := f 0 + f 1 * 2 ^ 64 + f 2 * 2 ^ 128 + f 3 * 2 ^ 192
      exec (.lifecycleChallenge r) s = .next (s.answers r 13 tag
        (w.upd fun d => { d with free := d.free + 4, top := { d.top with nonce := some (n, d.time) } }) ccSuccess (toBytes 32 n)))

/-- A served management request that changes the device does so and is answered SUCCESS. POWER_CEILING in range sets the
ceiling; MAINT_STOP fences every doorbell page; STAGE_BEGIN, STAGE_DATA and STAGE_COMMIT fill a slot from EMPTY to
STAGED; LIFECYCLE_TOKEN with a fresh nonce, its own device and good signatures applies its kind; ZEROISE zeroises;
CLEAR_RETIRED after MAINT_STOP clears the list; SELFTEST_RUN that passes changes nothing. Device-wide ones ask for a
lead half whose SC serves. (Derived from R507, R513, R514, R517, R524, R526, R528, R529, R532, R537.) -/
def Obligations.ManagementActs : Prop :=
  ∀ (s : State) (r : Request) (given p : List Byte) (tag : Nat),
    let w := s.start.at_ r.now
    let d := s.devAt r.now
    (s.Served r 0x04 .officer given p tag → p.length = 2 → 600 ≤ fld p 0 2 → fld p 0 2 ≤ d.top.designPower →
      exec (.powerCeiling r given) s = .next (s.answers r 4 tag (w.upd (·.onTop fun t => { t with ceiling := fld p 0 2 })) ccSuccess []))
    ∧ (s.Served r 0x11 .operator [] p tag → exec (.selftestRun r true) s = .next (s.answers r 17 tag w ccSuccess []))
    ∧ (d.leadServes = true →
      (s.Served r 0x08 .officer [] p tag → exec (.maintStop r) s = .next (s.answers r 8 tag
        ((w.upd (·.fencePages fun _ => true)).upd (·.onTop fun t =>
          { t with maintStop := true })) ccSuccess []))
      ∧ (∀ k, let image : Bool := fld p 0 1 = 0
        let len := fld p 1 4
        s.Served r 0x09 .officer given p tag → p.length = 5 → fld p 0 1 ≤ 1 → len ≠ 0 → len ≤ (if image then 2 ^ 23 else 65536) →
        d.top.staging = none → stageSlot (d.top.flash.slots image) = some k →
        exec (.stageBegin r given) s = .next (s.answers r 9 tag (w.upd (·.onTop fun t =>
          { t with staging := some ⟨image, k, len, 0⟩, flash := t.flash.setSlot image k { FlashSlot.blank .writing with len := len } })) ccSuccess []))
      ∧ (∀ x, s.Served r 0x0A .officer given p tag → d.top.staging = some x → 4 ≤ p.length → p.length ≤ 4100 → fld p 0 4 = x.got →
        x.got + (p.length - 4) ≤ x.len →
        ∃ u, exec (.stageData r given) s = .next (s.answers r 10 tag u ccSuccess [])
          ∧ u.dev.top.staging = some { x with got := x.got + (p.length - 4) }
          ∧ ((u.dev.top.flash.slots x.image).get x.slot).body = ((d.top.flash.slots x.image).get x.slot).body ++ p.drop 4)
      ∧ (∀ x info, s.Served r 0x0B .officer [] p tag → d.top.staging = some x → x.got = x.len → (x.image = true → d.top.minSvn ≤ info.svn) →
        ∃ u, exec (.stageCommit r true info) s = .next (s.answers r 11 tag u ccSuccess []) ∧ u.dev.top.staging = none
          ∧ ((u.dev.top.flash.slots x.image).get x.slot).st = .staged ∧ ((u.dev.top.flash.slots x.image).get x.slot).digest = info.digest)
      ∧ (∀ n at_, let kind := fld p 3 1
        s.Served r 0x0E .anyone given p tag → p.length = 7516 → kindAllowed kind d.top.lifecycle = true → d.top.nonce = some (n, at_) →
        fld p 0x18 32 = n → d.time ≤ at_ + 60000000000 → fld p 8 16 = Config.uniqueId % 2 ^ 128 →
        (let keys := Config.sha384 ((p.drop 0x68).take (97 + 2592))
         if kind = 1 then keys = Config.romHash else d.top.ownerHash = some keys) →
        exec (.lifecycleToken r given true true) s = .next (s.answers r 14 tag
          ((w.upd (·.onTop fun t => { t with nonce := none })).applyToken kind (fld p 0x38 48)) ccSuccess []))
      ∧ (s.Served r 0x0F .officer [] p tag → exec (.zeroise r) s = .next (s.answers r 15 tag w.zeroise ccSuccess []))
      ∧ (s.Served r 0x10 .officer [] p tag → d.top.maintStop = true → exec (.clearRetired r) s = .next (s.answers r 16 tag
          (w.upd (·.onTop fun t => { t with flash := { t.flash with retired := [] } })) ccSuccess [])))

/-- MCTP control requests are answered, and SPDM sessions begin, update and end. On a path other than the mailbox that
reaches a serving SC of a device in use, the five control requests are answered, SET_ENDPOINT_ID of an ordinary ID
with that ID set. A KEY_EXCHANGE that succeeds opens a management session (at most 4 for an SC), takes a SECURING port
of its half UP with keys, or keys a host link that is up. KEY_UPDATE counts in its session, and SPDM_SESSION_END of a
management session removes it. Answer layouts are PRESUMED (assumption 13). (Derived from R355, R510, R521, R522,
R525.) -/
def Obligations.MctpAndSessions : Prop :=
  ∀ (s : State) (h : Half) (path : MgmtPath) (now : Nat),
    let w := s.start.at_ now
    let d := s.devAt now
    (path ≠ .mailbox → d.scServes h = true → d.pathUp h path = true → d.top.lifecycle ≠ .decommissioned →
      (∀ eid, 1 ≤ eid → eid < 255 → ∃ u, exec (.setEndpointId h path eid now) s = .next u ∧ u.dev.eidOf h path = eid)
      ∧ exec (.getEndpointId h path now) s = .next (s.withDev (d.control h path 2 0 (toBytes 1 (d.eidOf h path) ++ [0, 0])))
      ∧ exec (.getEndpointUuid h path now) s = .next (s.withDev (d.control h path 3 0 (toBytes 16 (Config.uuid h (path == .pcie)))))
      ∧ exec (.getMctpVersionSupport h path now) s = .next (s.withDev (d.control h path 4 0 ([1] ++ toBytes 4 Config.mctpVersion.toNat)))
      ∧ exec (.getMessageTypeSupport h path now) s = .next (s.withDev (d.control h path 5 0 [4, 0x00, 0x05, 0x06, 0x7E])))
    ∧ (d.scServes h = true → d.top.lifecycle ≠ .decommissioned →
      (∀ officer, (d.top.sessions.countP fun x => x.half = h ∧ x.use = .mgmt) < 4 →
        exec (.keyExchange h .mgmt true officer now) s = .next (s.withDev
          (d.addSession h .mgmt (if officer && d.top.ownerHash.isSome then .officer else .operator))))
      ∧ (∀ p officer, portHalf p = h → (d.fport p).st = .securing →
        exec (.keyExchange h (.link p) true officer now) s = .next (s.put ((w.upd fun e =>
          (e.addSession h (.link p) .operator).setPort p (d.fport p).keyOn).portTo p .up)))
      ∧ (∀ officer, (d.host.ports.get h).speed ≠ 0 →
        exec (.keyExchange h .ide true officer now) s = .next (s.withDev ((d.addSession h .ide .operator).onPort h fun p =>
          { p with ide := true, ideStopped := false }))))
    ∧ (∀ id, exec (.keyUpdate id now) s = .next (s.withDev (d.onTop fun t =>
        { t with sessions := t.sessions.map fun x => if x.id = id then { x with updates := x.updates + 1 } else x })))
    ∧ (∀ id x, d.top.sessions.find? (fun x => x.id = id) = some x → x.use = .mgmt →
      exec (.spdmSessionEnd id now) s = .next (s.withDev (d.onTop fun t => { t with sessions := t.sessions.filter fun y => y.id ≠ id })))

/-- I3C common commands act on their half's target, and JTAG instructions load the instruction register. With RESET_N
deasserted each I3C command changes exactly its fields of the half's target: address, event enable, maximum lengths
(at most 256), and RSTACT the target's own reset state. A target with its address answers GETPID, GETBCR, GETDCR,
GETSTATUS, GETMRL and GETMWL. Each JTAG instruction loads its code, SAMPLE/PRELOAD also the boundary register, IDCODE
and TRST_N select the identification register. EXTEST drives the outputs only while RESET_N is asserted. Bit and byte
orders of the standards are PRESUMED (assumption 13). (Derived from R509, R542.) -/
def Obligations.I3cAndJtagCommands : Prop :=
  ∀ (s : State) (h : Half),
    let x := s.dev.top.i3c.get h
    let i3c (y : I3c) : State := s.withDev (s.dev.onTop fun t => { t with i3c := t.i3c.set h y })
    let ir (code : Nat) : Dev := s.dev.onTop fun t => { t with jtag := { t.jtag with ir := code } }
    (s.dev.top.resetN = true →
      (∀ a, x.addr = none → exec (.entdaa h a) s = .next (i3c { x with addr := some (a % 128) }))
      ∧ (∀ a, x.addr = none → exec (.setdasa h (0x30 + h.code) a) s = .next (i3c { x with addr := some (a % 128) }))
      ∧ exec (.rstdaa h) s = .next (i3c { x with addr := none })
      ∧ exec (.enec h 1) s = .next (i3c { x with events := true })
      ∧ exec (.disec h 1) s = .next (i3c { x with events := false })
      ∧ (∀ n, exec (.setmrl h n) s = .next (i3c { x with mrl := min n 256 }))
      ∧ (∀ n, exec (.setmwl h n) s = .next (i3c { x with mwl := min n 256 }))
      ∧ exec (.rstact h) s = .next (i3c { x with addr := none, events := true, mrl := 256, mwl := 256, ibi := [] })
      ∧ (x.addr.isSome = true → ∀ c bs, (c, bs) ∈
          [(Instr.getpid h, (toBytes 6 (Config.mipiId.toNat * 2 ^ 33 + 2 ^ 32 + x.rand.toNat)).reverse), (.getbcr h, [Config.bcr]),
           (.getdcr h, [Config.dcr]), (.getstatus h, [0] ++ toBytes 1 (min x.ibi.length 15)), (.getmrl h, (toBytes 2 x.mrl).reverse),
           (.getmwl h, (toBytes 2 x.mwl).reverse)] →
        exec c s = .next (s.withDev { s.dev with resp := .bytes bs })))
    ∧ (∀ c code, (c, code) ∈ [(Instr.bypass, 0xFF), (.extest, 0x00), (.clamp, 0x03), (.highz, 0x04), (.trstN, 0x01)] →
        exec c s = .next (s.withDev (ir code)))
    ∧ exec .idcode s = .next (s.withDev { ir 1 with
        resp := .word (w32 (s.dev.top.stepping % 16 * 2 ^ 28 + 0xC040 * 2 ^ 12 + Config.jedecId.toNat * 2 + 1)) })
    ∧ (∀ cells, exec (.samplePreload cells) s = .next (s.withDev (s.dev.onTop fun t => { t with jtag := { ir := 2, boundary := cells } })))
    ∧ (∀ code, 0x80 ≤ code → code ≤ 0xFE → exec (.jtagPrivate code) s = .next (s.withDev (ir code)))
    ∧ ∃ u, exec .extest s = .next u ∧ (u.dev.boundaryDrives = true ↔ s.dev.top.resetN = false)

/-- A set-up write dropped for parity only writes an event. A report of a dropped write of a function's register writes
that function an ERROR event with CLASS NONE, STATUS PARITY, JOB_ID 0, NODE_ID 0xFFFF_FFFF and the register's offset
in DATA0. No command is killed: no instance changes; beside what time itself counts, the three TOP_ERR counters and
every register but HOST_EVENTS_LOST stay. So a driver that reads the register back sees the old value, and may write
it again. (Rules R455.) -/
def Obligations.ParityDropIsReported : Prop :=
  ∀ (s : State) (h : Half) (island fn off seq i detail now : Nat),
    ∃ u, exec (.detectorReport h island (.droppedWrite fn off) seq i detail now) s = .next u
      ∧ u = s.put ((s.start.at_ now).post h fn
          { kind := 1, cls := 0, status := stParity, job := 0, tag := 0, node := 0xFFFFFFFF, island := island, d0 := off })
      ∧ u.dev.tgu = s.dev.tgu
      ∧ (∀ k (r : RegRow) o, findRow o = some r → r.off ≠ Reg.HOST_EVENTS_LOST_LO → r.off ≠ Reg.HOST_EVENTS_LOST_HI → u.dev.reg k o = (s.devAt now).reg k o)
end

