-- ==== Sys2Proof/Laws/Mem.lean ====
section
/-! SUPPORT. Laws of memory: every operation keeps the canonical form; a byte reads back as written, and no other byte
changes. -/

namespace Sys2Proof.Machine

open Sys2Proof

theorem Memory.wfFrom_cons (lo : Option Nat) (k : Nat) (b : Byte) (t : Memory) :
    Memory.wfFrom lo ((k, b) :: t) = true ↔ (∀ l, lo = some l → l < k) ∧ b ≠ 0 ∧ Memory.wfFrom (some k) t = true := by
  cases lo <;> simp [Memory.wfFrom, and_assoc]

theorem Memory.wfFrom_weaken {lo lo' : Option Nat} {m : Memory} (h : Memory.wfFrom lo m = true)
    (hl : ∀ l', lo' = some l' → ∀ k b t, m = (k, b) :: t → l' < k) : Memory.wfFrom lo' m = true := by
  cases m with
  | nil => rfl
  | cons c t =>
    obtain ⟨k, b⟩ := c
    rw [Memory.wfFrom_cons] at h ⊢
    exact ⟨fun l' hl' => hl l' hl' k b t rfl, h.2⟩

theorem Memory.set_wfFrom (m : Memory) (a : Nat) (b : Byte) (lo : Option Nat) (h : Memory.wfFrom lo m = true)
    (ha : ∀ l, lo = some l → l < a) : Memory.wfFrom lo (m.set a b) = true := by
  induction m generalizing lo with
  | nil =>
    unfold Memory.set
    split
    · rfl
    · rw [Memory.wfFrom_cons]
      exact ⟨ha, ‹_›, rfl⟩
  | cons c t ih =>
    obtain ⟨k, x⟩ := c
    rw [Memory.wfFrom_cons] at h
    unfold Memory.set
    split
    · split
      · rw [Memory.wfFrom_cons]
        exact h
      · rw [Memory.wfFrom_cons]
        refine ⟨ha, ‹_›, ?_⟩
        rw [Memory.wfFrom_cons]
        exact ⟨fun l hl => by cases hl; assumption, h.2⟩
    · split
      · split
        · refine Memory.wfFrom_weaken h.2.2 fun l hl k' b' t' ht => ?_
          subst ht
          exact lt_trans (h.1 l hl) (((Memory.wfFrom_cons _ _ _ _).1 h.2.2).1 k rfl)
        · rw [Memory.wfFrom_cons]
          exact ⟨h.1, ‹_›, h.2.2⟩
      · rw [Memory.wfFrom_cons]
        exact ⟨h.1, h.2.1, ih _ h.2.2 fun l hl => by cases hl; omega⟩

/-- Storing a byte keeps the canonical form. -/
theorem Memory.set_wf (m : Memory) (a : Nat) (b : Byte) (h : m.wf = true) : (m.set a b).wf = true :=
  Memory.set_wfFrom m a b none h fun _ hl => by cases hl

/-- Storing bytes keeps the canonical form. -/
theorem Memory.setBytes_wf (bs : List Byte) (m : Memory) (a : Nat) (h : m.wf = true) : (m.setBytes a bs).wf = true := by
  induction bs generalizing m a with
  | nil => exact h
  | cons b bs ih => exact ih _ _ (Memory.set_wf m a b h)

/-- Storing runs keeps the canonical form. -/
theorem Memory.setRuns_wf (rs : List Run) (m : Memory) (h : m.wf = true) : (m.setRuns rs).wf = true := by
  induction rs generalizing m with
  | nil => exact h
  | cons r rs ih => exact ih _ (Memory.setBytes_wf r.bytes m r.addr h)

/-- No listed byte below a bound is read as anything but 0. -/
theorem Memory.get_below (m : Memory) (a : Nat) (lo : Nat) (h : Memory.wfFrom (some lo) m = true) (ha : a ≤ lo) : m.get a = 0 := by
  induction m generalizing lo with
  | nil => rfl
  | cons c t ih =>
    obtain ⟨k, x⟩ := c
    rw [Memory.wfFrom_cons] at h
    have hk := h.1 lo rfl
    have : k ≠ a := by omega
    simp only [Memory.get, this, if_false]
    exact ih k h.2.2 (by omega)

/-- A byte reads back as written, and no other byte changes. -/
theorem Memory.get_set (m : Memory) (a : Nat) (b : Byte) (x : Nat) (h : m.wf = true) :
    (m.set a b).get x = if x = a then b else m.get x := by
  suffices ∀ lo, Memory.wfFrom lo m = true → (m.set a b).get x = if x = a then b else m.get x from this none h
  clear h
  induction m with
  | nil =>
    intro lo _
    unfold Memory.set
    split
    · simp [Memory.get, *]
    · by_cases hx : x = a
      · subst hx; simp [Memory.get]
      · simp [Memory.get, hx, Ne.symm hx]
  | cons c t ih =>
    intro lo h
    obtain ⟨k, y⟩ := c
    rw [Memory.wfFrom_cons] at h
    unfold Memory.set
    split
    · have hlow : a < k → Memory.get ((k, y) :: t) a = 0 := fun hk => by
        have : k ≠ a := by omega
        simp only [Memory.get, this, if_false]
        exact Memory.get_below t a k h.2.2 (by omega)
      split
      · by_cases hx : x = a
        · subst hx; rw [hlow ‹_›]; simp [*]
        · simp [hx]
      · by_cases hx : x = a
        · subst hx; simp [Memory.get]
        · simp [hx, Memory.get, Ne.symm hx]
    · split
      · rename_i _ hak
        subst hak
        split
        · by_cases hx : x = a
          · subst hx; simp [Memory.get_below t x x h.2.2 (le_refl x), *]
          · simp [hx, Memory.get, Ne.symm hx]
        · by_cases hx : x = a
          · subst hx; simp [Memory.get]
          · simp [hx, Memory.get, Ne.symm hx]
      · by_cases hk : k = x
        · subst hk
          have : k ≠ a := by omega
          simp [Memory.get, this]
        · simp only [Memory.get, hk, if_false]
          exact ih (some k) h.2.2

end Sys2Proof.Machine
end

