-- ==== Sys2Proof/Laws/Exec.lean ====
section
/-! SUPPORT. What any command can do: it ends in `finish`, so in a next state whose queue is untouched and whose memories
are the old ones with runs stored. -/

namespace Sys2Proof.Machine

open Sys2Proof

/-- Every command ends by putting back some working state. -/
theorem exec_finish (c : Instr) (s : State) : ∃ w : Wk, exec c s = finish s w := by
  cases c <;> exact ⟨_, rfl⟩

end Sys2Proof.Machine
end

