-- ==== Sys2Proof/Laws/Facet.lean ====
section
/-! SUPPORT. What an instruction of a facet can do, once for every opcode. -/

namespace Sys2Proof.Machine

open Sys2Proof

/-- An instruction that a facet stands at is run by its body, and the body's result is applied. -/
theorem facetInstr_atInstr {s : State} {f op word : Nat} {r : FacetRun} (h : s.atInstr f op word r) (now : Nat)
    (body : Wk → Nat → FacetRun → Nat → Res) :
    facetInstr f now op body s = finish s (applyRes Wk.facetEnd f r (body (s.start.at_ now) f r word)) := by
  obtain ⟨h1, h2, h3, h4, h5, h6, h7⟩ := h
  have h1' : Dev.run ((s.start.at_ now).dev) f = some r := h1
  have h7' : (s.start.at_ now).dev.nodeStalled r = false := h7
  simp only [facetInstr, Wk.facetStep, h1', h2, h3, h4, h5, h6, h7']
  simp

/-- A body that goes on in order leaves the run it answers, one instruction further. -/
theorem facetInstr_next {s : State} {f op word : Nat} {r r' : FacetRun} (h : s.atInstr f op word r) (now : Nat)
    (body : Wk → Nat → FacetRun → Nat → Res) (hb : body (s.start.at_ now) f r word = .next (s.start.at_ now) r') :
    facetInstr f now op body s = .next (s.withRun f now r'.onward) := by
  have h1' : Dev.run ((s.start.at_ now).dev) f = some r := h.1
  rw [facetInstr_atInstr h, hb]
  simp only [applyRes, h1', Option.isSome_some, if_true]
  rfl

/-- A body that jumps leaves the run it answers at the new pc. -/
theorem facetInstr_jump {s : State} {f op word : Nat} {r r' : FacetRun} {pc : Int} (h : s.atInstr f op word r) (now : Nat)
    (body : Wk → Nat → FacetRun → Nat → Res) (hb : body (s.start.at_ now) f r word = .jump (s.start.at_ now) r' pc) :
    facetInstr f now op body s = .next (s.withRun f now (r'.goto pc)) := by
  have h1' : Dev.run ((s.start.at_ now).dev) f = some r := h.1
  rw [facetInstr_atInstr h, hb]
  simp only [applyRes, h1', Option.isSome_some, if_true]
  rfl

end Sys2Proof.Machine
end

