-- ==== Sys2Proof/Laws/Node.lean ====
section
/-! SUPPORT. What a dispatch does, once for every opcode. -/

namespace Sys2Proof.Machine

open Sys2Proof

/-- A node that is dispatched is left as its opcode's own work leaves it. -/
theorem dispatch_of {s : State} {seq i op now : Nat} {can : Dev → Nat → Nat → Bool} {w : Wk} {x : Inst} {m : Node}
    {nb : List Byte} (h : s.Dispatches seq i op now can w x m nb) (onNull : Wk → Inst → Wk)
    (run : Wk → Inst → Node → List Byte → Wk) (nullRuns : Bool) :
    finish s ((s.start.at_ now).dispatch seq i op can nullRuns onNull run) = .next (s.dispatchLeaves (run w x m nb)) := by
  obtain ⟨h1, ⟨n, h2, h3, h4, h5, h6, h7, h8, h9, hg, ss, v, h10, h11, h12, h13, rfl⟩, h14, h15⟩ := h
  have h1' : (s.start.at_ now).dev.inst seq = some x := h1
  have h6' : (s.start.at_ now).dev.dispatching = true := h6
  have h7' : can (s.start.at_ now).dev seq i = true := h7
  have h8' : ¬ (((s.start.at_ now).dev.ring x.fn x.ring).held.length ≥ 256) := not_le.2 h8
  have h9' : (s.start.at_ now).outranked seq i x op (can (s.start.at_ now).dev) = false := h9
  have h11' : (ss.any fun k => decide (k ≥ x.nodes.length)) = false := by
    rw [List.any_eq_false]; intro k hk; simpa using h11 k hk
  have hd : (s.start.at_ now).dispatchNode seq i op can nullRuns onNull run = run
      ((((s.start.at_ now).begun seq i x n).linked seq i ss).shaped seq i v) x m nb := by
    unfold Wk.dispatchNode
    simp only [h1', h2, h3, h4, h5, h6', h7', h8', h9', h10, h11', h12, h14, h15, h13, hg]
    simp
  simp only [Wk.dispatch, hd]
  rfl

end Sys2Proof.Machine
end

