-- ==== Sys2Proof/Laws/State.lean ====
section
/-! SUPPORT. One lemma per field and update of the state, so that no later proof unfolds a record update. -/

namespace Sys2Proof.Machine

open Sys2Proof

section

variable (w : Wk) (d : Dev) (s : State)

@[simp] theorem Wk.upd_mem (g : Dev → Dev) : (w.upd g).mem = w.mem := rfl
@[simp] theorem Wk.upd_host (g : Dev → Dev) : (w.upd g).host = w.host := rfl
@[simp] theorem Wk.upd_mw (g : Dev → Dev) : (w.upd g).mw = w.mw := rfl
@[simp] theorem Wk.upd_hw (g : Dev → Dev) : (w.upd g).hw = w.hw := rfl
@[simp] theorem Wk.upd_dev (g : Dev → Dev) : (w.upd g).dev = g w.dev := rfl
@[simp] theorem Wk.at_eq (n : Nat) : w.at_ n = w.upd (·.at_ n) := rfl
@[simp] theorem State.start_dev : s.start.dev = s.dev := rfl
@[simp] theorem State.start_mem : s.start.mem = s.mem := rfl
@[simp] theorem State.start_host : s.start.host = s.host := rfl
@[simp] theorem State.start_mw : s.start.mw = [] := rfl
@[simp] theorem State.start_hw : s.start.hw = [] := rfl
@[simp] theorem State.put_dev : (s.put w).dev = w.dev := rfl
@[simp] theorem State.put_pending : (s.put w).pending = s.pending := rfl
@[simp] theorem State.put_mem : (s.put w).mem = s.mem.setRuns w.mw.reverse := rfl
@[simp] theorem State.put_host : (s.put w).host = s.host.setRuns w.hw.reverse := rfl
theorem finish_eq : finish s w = .next (s.put w) := rfl
theorem onDev_eq (g : Dev → Dev) : onDev s g = .next { s with dev := g s.dev } := rfl
@[simp] theorem Dev.onTop_time (g : Top → Top) : (d.onTop g).time = d.time := rfl
@[simp] theorem Dev.onTop_free (g : Top → Top) : (d.onTop g).free = d.free := rfl
@[simp] theorem Dev.onTop_regs (g : Top → Top) : (d.onTop g).regs = d.regs := rfl
@[simp] theorem Dev.onTop_hold (g : Top → Top) : (d.onTop g).hold = d.hold := rfl
@[simp] theorem Dev.onTop_capt (g : Top → Top) : (d.onTop g).capt = d.capt := rfl
@[simp] theorem Dev.onTop_resp (g : Top → Top) : (d.onTop g).resp = d.resp := rfl
@[simp] theorem Dev.onTop_out (g : Top → Top) : (d.onTop g).out = d.out := rfl
@[simp] theorem Dev.onTop_top (g : Top → Top) : (d.onTop g).top = g d.top := rfl
@[simp] theorem Dev.onTop_hm (g : Top → Top) : (d.onTop g).hm = d.hm := rfl
@[simp] theorem Dev.onTop_hmBase (g : Top → Top) : (d.onTop g).hmBase = d.hmBase := rfl
@[simp] theorem Dev.onTop_pic (g : Top → Top) : (d.onTop g).pic = d.pic := rfl
@[simp] theorem Dev.onTop_picAt (g : Top → Top) : (d.onTop g).picAt = d.picAt := rfl
@[simp] theorem Dev.onTop_host (g : Top → Top) : (d.onTop g).host = d.host := rfl
@[simp] theorem Dev.onTop_tgu (g : Top → Top) : (d.onTop g).tgu = d.tgu := rfl
@[simp] theorem Dev.onTop_fab (g : Top → Top) : (d.onTop g).fab = d.fab := rfl
@[simp] theorem Dev.onTop_fac (g : Top → Top) : (d.onTop g).fac = d.fac := rfl
@[simp] theorem Dev.onTop_ce (g : Top → Top) : (d.onTop g).ce = d.ce := rfl
@[simp] theorem Dev.onTop_efu (g : Top → Top) : (d.onTop g).efu = d.efu := rfl
@[simp] theorem Dev.onTop_prism (g : Top → Top) : (d.onTop g).prism = d.prism := rfl
@[simp] theorem Dev.onTop_lens (g : Top → Top) : (d.onTop g).lens = d.lens := rfl
@[simp] theorem Dev.onTop_mir (g : Top → Top) : (d.onTop g).mir = d.mir := rfl
@[simp] theorem Dev.onTop_start (g : Top → Top) : (d.onTop g).start = d.start := rfl
@[simp] theorem Dev.onTop_startNext (g : Top → Top) : (d.onTop g).startNext = d.startNext := rfl
@[simp] theorem Dev.onHost_time (g : HostSt → HostSt) : (d.onHost g).time = d.time := rfl
@[simp] theorem Dev.onHost_free (g : HostSt → HostSt) : (d.onHost g).free = d.free := rfl
@[simp] theorem Dev.onHost_regs (g : HostSt → HostSt) : (d.onHost g).regs = d.regs := rfl
@[simp] theorem Dev.onHost_hold (g : HostSt → HostSt) : (d.onHost g).hold = d.hold := rfl
@[simp] theorem Dev.onHost_capt (g : HostSt → HostSt) : (d.onHost g).capt = d.capt := rfl
@[simp] theorem Dev.onHost_resp (g : HostSt → HostSt) : (d.onHost g).resp = d.resp := rfl
@[simp] theorem Dev.onHost_out (g : HostSt → HostSt) : (d.onHost g).out = d.out := rfl
@[simp] theorem Dev.onHost_top (g : HostSt → HostSt) : (d.onHost g).top = d.top := rfl
@[simp] theorem Dev.onHost_hm (g : HostSt → HostSt) : (d.onHost g).hm = d.hm := rfl
@[simp] theorem Dev.onHost_hmBase (g : HostSt → HostSt) : (d.onHost g).hmBase = d.hmBase := rfl
@[simp] theorem Dev.onHost_pic (g : HostSt → HostSt) : (d.onHost g).pic = d.pic := rfl
@[simp] theorem Dev.onHost_picAt (g : HostSt → HostSt) : (d.onHost g).picAt = d.picAt := rfl
@[simp] theorem Dev.onHost_host (g : HostSt → HostSt) : (d.onHost g).host = g d.host := rfl
@[simp] theorem Dev.onHost_tgu (g : HostSt → HostSt) : (d.onHost g).tgu = d.tgu := rfl
@[simp] theorem Dev.onHost_fab (g : HostSt → HostSt) : (d.onHost g).fab = d.fab := rfl
@[simp] theorem Dev.onHost_fac (g : HostSt → HostSt) : (d.onHost g).fac = d.fac := rfl
@[simp] theorem Dev.onHost_ce (g : HostSt → HostSt) : (d.onHost g).ce = d.ce := rfl
@[simp] theorem Dev.onHost_efu (g : HostSt → HostSt) : (d.onHost g).efu = d.efu := rfl
@[simp] theorem Dev.onHost_prism (g : HostSt → HostSt) : (d.onHost g).prism = d.prism := rfl
@[simp] theorem Dev.onHost_lens (g : HostSt → HostSt) : (d.onHost g).lens = d.lens := rfl
@[simp] theorem Dev.onHost_mir (g : HostSt → HostSt) : (d.onHost g).mir = d.mir := rfl
@[simp] theorem Dev.onHost_start (g : HostSt → HostSt) : (d.onHost g).start = d.start := rfl
@[simp] theorem Dev.onHost_startNext (g : HostSt → HostSt) : (d.onHost g).startNext = d.startNext := rfl
@[simp] theorem Dev.onTgu_time (g : Tgu → Tgu) : (d.onTgu g).time = d.time := rfl
@[simp] theorem Dev.onTgu_free (g : Tgu → Tgu) : (d.onTgu g).free = d.free := rfl
@[simp] theorem Dev.onTgu_regs (g : Tgu → Tgu) : (d.onTgu g).regs = d.regs := rfl
@[simp] theorem Dev.onTgu_hold (g : Tgu → Tgu) : (d.onTgu g).hold = d.hold := rfl
@[simp] theorem Dev.onTgu_capt (g : Tgu → Tgu) : (d.onTgu g).capt = d.capt := rfl
@[simp] theorem Dev.onTgu_resp (g : Tgu → Tgu) : (d.onTgu g).resp = d.resp := rfl
@[simp] theorem Dev.onTgu_out (g : Tgu → Tgu) : (d.onTgu g).out = d.out := rfl
@[simp] theorem Dev.onTgu_top (g : Tgu → Tgu) : (d.onTgu g).top = d.top := rfl
@[simp] theorem Dev.onTgu_hm (g : Tgu → Tgu) : (d.onTgu g).hm = d.hm := rfl
@[simp] theorem Dev.onTgu_hmBase (g : Tgu → Tgu) : (d.onTgu g).hmBase = d.hmBase := rfl
@[simp] theorem Dev.onTgu_pic (g : Tgu → Tgu) : (d.onTgu g).pic = d.pic := rfl
@[simp] theorem Dev.onTgu_picAt (g : Tgu → Tgu) : (d.onTgu g).picAt = d.picAt := rfl
@[simp] theorem Dev.onTgu_host (g : Tgu → Tgu) : (d.onTgu g).host = d.host := rfl
@[simp] theorem Dev.onTgu_tgu (g : Tgu → Tgu) : (d.onTgu g).tgu = g d.tgu := rfl
@[simp] theorem Dev.onTgu_fab (g : Tgu → Tgu) : (d.onTgu g).fab = d.fab := rfl
@[simp] theorem Dev.onTgu_fac (g : Tgu → Tgu) : (d.onTgu g).fac = d.fac := rfl
@[simp] theorem Dev.onTgu_ce (g : Tgu → Tgu) : (d.onTgu g).ce = d.ce := rfl
@[simp] theorem Dev.onTgu_efu (g : Tgu → Tgu) : (d.onTgu g).efu = d.efu := rfl
@[simp] theorem Dev.onTgu_prism (g : Tgu → Tgu) : (d.onTgu g).prism = d.prism := rfl
@[simp] theorem Dev.onTgu_lens (g : Tgu → Tgu) : (d.onTgu g).lens = d.lens := rfl
@[simp] theorem Dev.onTgu_mir (g : Tgu → Tgu) : (d.onTgu g).mir = d.mir := rfl
@[simp] theorem Dev.onTgu_start (g : Tgu → Tgu) : (d.onTgu g).start = d.start := rfl
@[simp] theorem Dev.onTgu_startNext (g : Tgu → Tgu) : (d.onTgu g).startNext = d.startNext := rfl
@[simp] theorem Dev.onFab_time (g : Fab → Fab) : (d.onFab g).time = d.time := rfl
@[simp] theorem Dev.onFab_free (g : Fab → Fab) : (d.onFab g).free = d.free := rfl
@[simp] theorem Dev.onFab_regs (g : Fab → Fab) : (d.onFab g).regs = d.regs := rfl
@[simp] theorem Dev.onFab_hold (g : Fab → Fab) : (d.onFab g).hold = d.hold := rfl
@[simp] theorem Dev.onFab_capt (g : Fab → Fab) : (d.onFab g).capt = d.capt := rfl
@[simp] theorem Dev.onFab_resp (g : Fab → Fab) : (d.onFab g).resp = d.resp := rfl
@[simp] theorem Dev.onFab_out (g : Fab → Fab) : (d.onFab g).out = d.out := rfl
@[simp] theorem Dev.onFab_top (g : Fab → Fab) : (d.onFab g).top = d.top := rfl
@[simp] theorem Dev.onFab_hm (g : Fab → Fab) : (d.onFab g).hm = d.hm := rfl
@[simp] theorem Dev.onFab_hmBase (g : Fab → Fab) : (d.onFab g).hmBase = d.hmBase := rfl
@[simp] theorem Dev.onFab_pic (g : Fab → Fab) : (d.onFab g).pic = d.pic := rfl
@[simp] theorem Dev.onFab_picAt (g : Fab → Fab) : (d.onFab g).picAt = d.picAt := rfl
@[simp] theorem Dev.onFab_host (g : Fab → Fab) : (d.onFab g).host = d.host := rfl
@[simp] theorem Dev.onFab_tgu (g : Fab → Fab) : (d.onFab g).tgu = d.tgu := rfl
@[simp] theorem Dev.onFab_fab (g : Fab → Fab) : (d.onFab g).fab = g d.fab := rfl
@[simp] theorem Dev.onFab_fac (g : Fab → Fab) : (d.onFab g).fac = d.fac := rfl
@[simp] theorem Dev.onFab_ce (g : Fab → Fab) : (d.onFab g).ce = d.ce := rfl
@[simp] theorem Dev.onFab_efu (g : Fab → Fab) : (d.onFab g).efu = d.efu := rfl
@[simp] theorem Dev.onFab_prism (g : Fab → Fab) : (d.onFab g).prism = d.prism := rfl
@[simp] theorem Dev.onFab_lens (g : Fab → Fab) : (d.onFab g).lens = d.lens := rfl
@[simp] theorem Dev.onFab_mir (g : Fab → Fab) : (d.onFab g).mir = d.mir := rfl
@[simp] theorem Dev.onFab_start (g : Fab → Fab) : (d.onFab g).start = d.start := rfl
@[simp] theorem Dev.onFab_startNext (g : Fab → Fab) : (d.onFab g).startNext = d.startNext := rfl
@[simp] theorem Dev.onMir_time (g : Mir → Mir) : (d.onMir g).time = d.time := rfl
@[simp] theorem Dev.onMir_free (g : Mir → Mir) : (d.onMir g).free = d.free := rfl
@[simp] theorem Dev.onMir_regs (g : Mir → Mir) : (d.onMir g).regs = d.regs := rfl
@[simp] theorem Dev.onMir_hold (g : Mir → Mir) : (d.onMir g).hold = d.hold := rfl
@[simp] theorem Dev.onMir_capt (g : Mir → Mir) : (d.onMir g).capt = d.capt := rfl
@[simp] theorem Dev.onMir_resp (g : Mir → Mir) : (d.onMir g).resp = d.resp := rfl
@[simp] theorem Dev.onMir_out (g : Mir → Mir) : (d.onMir g).out = d.out := rfl
@[simp] theorem Dev.onMir_top (g : Mir → Mir) : (d.onMir g).top = d.top := rfl
@[simp] theorem Dev.onMir_hm (g : Mir → Mir) : (d.onMir g).hm = d.hm := rfl
@[simp] theorem Dev.onMir_hmBase (g : Mir → Mir) : (d.onMir g).hmBase = d.hmBase := rfl
@[simp] theorem Dev.onMir_pic (g : Mir → Mir) : (d.onMir g).pic = d.pic := rfl
@[simp] theorem Dev.onMir_picAt (g : Mir → Mir) : (d.onMir g).picAt = d.picAt := rfl
@[simp] theorem Dev.onMir_host (g : Mir → Mir) : (d.onMir g).host = d.host := rfl
@[simp] theorem Dev.onMir_tgu (g : Mir → Mir) : (d.onMir g).tgu = d.tgu := rfl
@[simp] theorem Dev.onMir_fab (g : Mir → Mir) : (d.onMir g).fab = d.fab := rfl
@[simp] theorem Dev.onMir_fac (g : Mir → Mir) : (d.onMir g).fac = d.fac := rfl
@[simp] theorem Dev.onMir_ce (g : Mir → Mir) : (d.onMir g).ce = d.ce := rfl
@[simp] theorem Dev.onMir_efu (g : Mir → Mir) : (d.onMir g).efu = d.efu := rfl
@[simp] theorem Dev.onMir_prism (g : Mir → Mir) : (d.onMir g).prism = d.prism := rfl
@[simp] theorem Dev.onMir_lens (g : Mir → Mir) : (d.onMir g).lens = d.lens := rfl
@[simp] theorem Dev.onMir_mir (g : Mir → Mir) : (d.onMir g).mir = g d.mir := rfl
@[simp] theorem Dev.onMir_start (g : Mir → Mir) : (d.onMir g).start = d.start := rfl
@[simp] theorem Dev.onMir_startNext (g : Mir → Mir) : (d.onMir g).startNext = d.startNext := rfl
@[simp] theorem Dev.onCe_time (g : Ce → Ce) : (d.onCe g).time = d.time := rfl
@[simp] theorem Dev.onCe_free (g : Ce → Ce) : (d.onCe g).free = d.free := rfl
@[simp] theorem Dev.onCe_regs (g : Ce → Ce) : (d.onCe g).regs = d.regs := rfl
@[simp] theorem Dev.onCe_hold (g : Ce → Ce) : (d.onCe g).hold = d.hold := rfl
@[simp] theorem Dev.onCe_capt (g : Ce → Ce) : (d.onCe g).capt = d.capt := rfl
@[simp] theorem Dev.onCe_resp (g : Ce → Ce) : (d.onCe g).resp = d.resp := rfl
@[simp] theorem Dev.onCe_out (g : Ce → Ce) : (d.onCe g).out = d.out := rfl
@[simp] theorem Dev.onCe_top (g : Ce → Ce) : (d.onCe g).top = d.top := rfl
@[simp] theorem Dev.onCe_hm (g : Ce → Ce) : (d.onCe g).hm = d.hm := rfl
@[simp] theorem Dev.onCe_hmBase (g : Ce → Ce) : (d.onCe g).hmBase = d.hmBase := rfl
@[simp] theorem Dev.onCe_pic (g : Ce → Ce) : (d.onCe g).pic = d.pic := rfl
@[simp] theorem Dev.onCe_picAt (g : Ce → Ce) : (d.onCe g).picAt = d.picAt := rfl
@[simp] theorem Dev.onCe_host (g : Ce → Ce) : (d.onCe g).host = d.host := rfl
@[simp] theorem Dev.onCe_tgu (g : Ce → Ce) : (d.onCe g).tgu = d.tgu := rfl
@[simp] theorem Dev.onCe_fab (g : Ce → Ce) : (d.onCe g).fab = d.fab := rfl
@[simp] theorem Dev.onCe_fac (g : Ce → Ce) : (d.onCe g).fac = d.fac := rfl
@[simp] theorem Dev.onCe_ce (g : Ce → Ce) : (d.onCe g).ce = g d.ce := rfl
@[simp] theorem Dev.onCe_efu (g : Ce → Ce) : (d.onCe g).efu = d.efu := rfl
@[simp] theorem Dev.onCe_prism (g : Ce → Ce) : (d.onCe g).prism = d.prism := rfl
@[simp] theorem Dev.onCe_lens (g : Ce → Ce) : (d.onCe g).lens = d.lens := rfl
@[simp] theorem Dev.onCe_mir (g : Ce → Ce) : (d.onCe g).mir = d.mir := rfl
@[simp] theorem Dev.onCe_start (g : Ce → Ce) : (d.onCe g).start = d.start := rfl
@[simp] theorem Dev.onCe_startNext (g : Ce → Ce) : (d.onCe g).startNext = d.startNext := rfl
@[simp] theorem Dev.onEfu_time (g : Efu → Efu) : (d.onEfu g).time = d.time := rfl
@[simp] theorem Dev.onEfu_free (g : Efu → Efu) : (d.onEfu g).free = d.free := rfl
@[simp] theorem Dev.onEfu_regs (g : Efu → Efu) : (d.onEfu g).regs = d.regs := rfl
@[simp] theorem Dev.onEfu_hold (g : Efu → Efu) : (d.onEfu g).hold = d.hold := rfl
@[simp] theorem Dev.onEfu_capt (g : Efu → Efu) : (d.onEfu g).capt = d.capt := rfl
@[simp] theorem Dev.onEfu_resp (g : Efu → Efu) : (d.onEfu g).resp = d.resp := rfl
@[simp] theorem Dev.onEfu_out (g : Efu → Efu) : (d.onEfu g).out = d.out := rfl
@[simp] theorem Dev.onEfu_top (g : Efu → Efu) : (d.onEfu g).top = d.top := rfl
@[simp] theorem Dev.onEfu_hm (g : Efu → Efu) : (d.onEfu g).hm = d.hm := rfl
@[simp] theorem Dev.onEfu_hmBase (g : Efu → Efu) : (d.onEfu g).hmBase = d.hmBase := rfl
@[simp] theorem Dev.onEfu_pic (g : Efu → Efu) : (d.onEfu g).pic = d.pic := rfl
@[simp] theorem Dev.onEfu_picAt (g : Efu → Efu) : (d.onEfu g).picAt = d.picAt := rfl
@[simp] theorem Dev.onEfu_host (g : Efu → Efu) : (d.onEfu g).host = d.host := rfl
@[simp] theorem Dev.onEfu_tgu (g : Efu → Efu) : (d.onEfu g).tgu = d.tgu := rfl
@[simp] theorem Dev.onEfu_fab (g : Efu → Efu) : (d.onEfu g).fab = d.fab := rfl
@[simp] theorem Dev.onEfu_fac (g : Efu → Efu) : (d.onEfu g).fac = d.fac := rfl
@[simp] theorem Dev.onEfu_ce (g : Efu → Efu) : (d.onEfu g).ce = d.ce := rfl
@[simp] theorem Dev.onEfu_efu (g : Efu → Efu) : (d.onEfu g).efu = g d.efu := rfl
@[simp] theorem Dev.onEfu_prism (g : Efu → Efu) : (d.onEfu g).prism = d.prism := rfl
@[simp] theorem Dev.onEfu_lens (g : Efu → Efu) : (d.onEfu g).lens = d.lens := rfl
@[simp] theorem Dev.onEfu_mir (g : Efu → Efu) : (d.onEfu g).mir = d.mir := rfl
@[simp] theorem Dev.onEfu_start (g : Efu → Efu) : (d.onEfu g).start = d.start := rfl
@[simp] theorem Dev.onEfu_startNext (g : Efu → Efu) : (d.onEfu g).startNext = d.startNext := rfl
@[simp] theorem Dev.at_time (n : Nat) : (d.at_ n).time = max d.time n := rfl
@[simp] theorem Dev.at_free (n : Nat) : (d.at_ n).free = d.free := rfl
@[simp] theorem Dev.at_regs (n : Nat) : (d.at_ n).regs = (d.elapse (max d.time n)).regs := rfl
@[simp] theorem Dev.at_hold (n : Nat) : (d.at_ n).hold = d.hold := rfl
@[simp] theorem Dev.at_capt (n : Nat) : (d.at_ n).capt = d.capt := rfl
@[simp] theorem Dev.at_resp (n : Nat) : (d.at_ n).resp = d.resp := rfl
@[simp] theorem Dev.at_out (n : Nat) : (d.at_ n).out = d.out := rfl
@[simp] theorem Dev.at_top (n : Nat) :
    (d.at_ n).top = { d.top with slew := slewLeft d.top.slew (max d.time n / 10000 - d.time / 10000) } := rfl
@[simp] theorem Dev.at_hm (n : Nat) : (d.at_ n).hm = d.hm := rfl
@[simp] theorem Dev.at_hmBase (n : Nat) : (d.at_ n).hmBase = d.hmBase := rfl
@[simp] theorem Dev.at_pic (n : Nat) : (d.at_ n).pic = d.pic := rfl
@[simp] theorem Dev.at_picAt (n : Nat) : (d.at_ n).picAt = d.picAt := rfl
@[simp] theorem Dev.at_host (n : Nat) : (d.at_ n).host = d.host := rfl
@[simp] theorem Dev.at_tgu (n : Nat) : (d.at_ n).tgu = d.tgu := rfl
@[simp] theorem Dev.at_fab (n : Nat) : (d.at_ n).fab = d.fab := rfl
@[simp] theorem Dev.at_fac (n : Nat) : (d.at_ n).fac = d.fac := rfl
@[simp] theorem Dev.at_ce (n : Nat) : (d.at_ n).ce = d.ce := rfl
@[simp] theorem Dev.at_efu (n : Nat) : (d.at_ n).efu = d.efu := rfl
@[simp] theorem Dev.at_prism (n : Nat) : (d.at_ n).prism = d.prism := rfl
@[simp] theorem Dev.at_lens (n : Nat) : (d.at_ n).lens = d.lens := rfl
@[simp] theorem Dev.at_mir (n : Nat) : (d.at_ n).mir = d.mir := rfl
@[simp] theorem Dev.at_start (n : Nat) : (d.at_ n).start = d.start := rfl
@[simp] theorem Dev.at_startNext (n : Nat) : (d.at_ n).startNext = d.startNext := rfl
@[simp] theorem Dev.emit_time (x : Out) : (d.emit x).time = d.time := rfl
@[simp] theorem Dev.emit_free (x : Out) : (d.emit x).free = d.free := rfl
@[simp] theorem Dev.emit_regs (x : Out) : (d.emit x).regs = d.regs := rfl
@[simp] theorem Dev.emit_hold (x : Out) : (d.emit x).hold = d.hold := rfl
@[simp] theorem Dev.emit_capt (x : Out) : (d.emit x).capt = d.capt := rfl
@[simp] theorem Dev.emit_resp (x : Out) : (d.emit x).resp = d.resp := rfl
@[simp] theorem Dev.emit_out (x : Out) : (d.emit x).out = d.out ++ [x] := rfl
@[simp] theorem Dev.emit_top (x : Out) : (d.emit x).top = d.top := rfl
@[simp] theorem Dev.emit_hm (x : Out) : (d.emit x).hm = d.hm := rfl
@[simp] theorem Dev.emit_hmBase (x : Out) : (d.emit x).hmBase = d.hmBase := rfl
@[simp] theorem Dev.emit_pic (x : Out) : (d.emit x).pic = d.pic := rfl
@[simp] theorem Dev.emit_picAt (x : Out) : (d.emit x).picAt = d.picAt := rfl
@[simp] theorem Dev.emit_host (x : Out) : (d.emit x).host = d.host := rfl
@[simp] theorem Dev.emit_tgu (x : Out) : (d.emit x).tgu = d.tgu := rfl
@[simp] theorem Dev.emit_fab (x : Out) : (d.emit x).fab = d.fab := rfl
@[simp] theorem Dev.emit_fac (x : Out) : (d.emit x).fac = d.fac := rfl
@[simp] theorem Dev.emit_ce (x : Out) : (d.emit x).ce = d.ce := rfl
@[simp] theorem Dev.emit_efu (x : Out) : (d.emit x).efu = d.efu := rfl
@[simp] theorem Dev.emit_prism (x : Out) : (d.emit x).prism = d.prism := rfl
@[simp] theorem Dev.emit_lens (x : Out) : (d.emit x).lens = d.lens := rfl
@[simp] theorem Dev.emit_mir (x : Out) : (d.emit x).mir = d.mir := rfl
@[simp] theorem Dev.emit_start (x : Out) : (d.emit x).start = d.start := rfl
@[simp] theorem Dev.emit_startNext (x : Out) : (d.emit x).startNext = d.startNext := rfl
@[simp] theorem Dev.setFunc_time (fn : Nat) (x : Func) : (d.setFunc fn x).time = d.time := rfl
@[simp] theorem Dev.setFunc_free (fn : Nat) (x : Func) : (d.setFunc fn x).free = d.free := rfl
@[simp] theorem Dev.setFunc_regs (fn : Nat) (x : Func) : (d.setFunc fn x).regs = d.regs := rfl
@[simp] theorem Dev.setFunc_hold (fn : Nat) (x : Func) : (d.setFunc fn x).hold = d.hold := rfl
@[simp] theorem Dev.setFunc_capt (fn : Nat) (x : Func) : (d.setFunc fn x).capt = d.capt := rfl
@[simp] theorem Dev.setFunc_resp (fn : Nat) (x : Func) : (d.setFunc fn x).resp = d.resp := rfl
@[simp] theorem Dev.setFunc_out (fn : Nat) (x : Func) : (d.setFunc fn x).out = d.out := rfl
@[simp] theorem Dev.setFunc_top (fn : Nat) (x : Func) : (d.setFunc fn x).top = d.top := rfl
@[simp] theorem Dev.setFunc_hm (fn : Nat) (x : Func) : (d.setFunc fn x).hm = d.hm := rfl
@[simp] theorem Dev.setFunc_hmBase (fn : Nat) (x : Func) : (d.setFunc fn x).hmBase = d.hmBase := rfl
@[simp] theorem Dev.setFunc_pic (fn : Nat) (x : Func) : (d.setFunc fn x).pic = d.pic := rfl
@[simp] theorem Dev.setFunc_picAt (fn : Nat) (x : Func) : (d.setFunc fn x).picAt = d.picAt := rfl
@[simp] theorem Dev.setFunc_tgu (fn : Nat) (x : Func) : (d.setFunc fn x).tgu = d.tgu := rfl
@[simp] theorem Dev.setFunc_fab (fn : Nat) (x : Func) : (d.setFunc fn x).fab = d.fab := rfl
@[simp] theorem Dev.setFunc_fac (fn : Nat) (x : Func) : (d.setFunc fn x).fac = d.fac := rfl
@[simp] theorem Dev.setFunc_ce (fn : Nat) (x : Func) : (d.setFunc fn x).ce = d.ce := rfl
@[simp] theorem Dev.setFunc_efu (fn : Nat) (x : Func) : (d.setFunc fn x).efu = d.efu := rfl
@[simp] theorem Dev.setFunc_prism (fn : Nat) (x : Func) : (d.setFunc fn x).prism = d.prism := rfl
@[simp] theorem Dev.setFunc_lens (fn : Nat) (x : Func) : (d.setFunc fn x).lens = d.lens := rfl
@[simp] theorem Dev.setFunc_mir (fn : Nat) (x : Func) : (d.setFunc fn x).mir = d.mir := rfl
@[simp] theorem Dev.setFunc_start (fn : Nat) (x : Func) : (d.setFunc fn x).start = d.start := rfl
@[simp] theorem Dev.setFunc_startNext (fn : Nat) (x : Func) : (d.setFunc fn x).startNext = d.startNext := rfl
@[simp] theorem Dev.setRing_time (fn r : Nat) (x : Ring) : (d.setRing fn r x).time = d.time := rfl
@[simp] theorem Dev.setRing_free (fn r : Nat) (x : Ring) : (d.setRing fn r x).free = d.free := rfl
@[simp] theorem Dev.setRing_regs (fn r : Nat) (x : Ring) : (d.setRing fn r x).regs = d.regs := rfl
@[simp] theorem Dev.setRing_hold (fn r : Nat) (x : Ring) : (d.setRing fn r x).hold = d.hold := rfl
@[simp] theorem Dev.setRing_capt (fn r : Nat) (x : Ring) : (d.setRing fn r x).capt = d.capt := rfl
@[simp] theorem Dev.setRing_resp (fn r : Nat) (x : Ring) : (d.setRing fn r x).resp = d.resp := rfl
@[simp] theorem Dev.setRing_out (fn r : Nat) (x : Ring) : (d.setRing fn r x).out = d.out := rfl
@[simp] theorem Dev.setRing_top (fn r : Nat) (x : Ring) : (d.setRing fn r x).top = d.top := rfl
@[simp] theorem Dev.setRing_hm (fn r : Nat) (x : Ring) : (d.setRing fn r x).hm = d.hm := rfl
@[simp] theorem Dev.setRing_hmBase (fn r : Nat) (x : Ring) : (d.setRing fn r x).hmBase = d.hmBase := rfl
@[simp] theorem Dev.setRing_pic (fn r : Nat) (x : Ring) : (d.setRing fn r x).pic = d.pic := rfl
@[simp] theorem Dev.setRing_picAt (fn r : Nat) (x : Ring) : (d.setRing fn r x).picAt = d.picAt := rfl
@[simp] theorem Dev.setRing_tgu (fn r : Nat) (x : Ring) : (d.setRing fn r x).tgu = d.tgu := rfl
@[simp] theorem Dev.setRing_fab (fn r : Nat) (x : Ring) : (d.setRing fn r x).fab = d.fab := rfl
@[simp] theorem Dev.setRing_fac (fn r : Nat) (x : Ring) : (d.setRing fn r x).fac = d.fac := rfl
@[simp] theorem Dev.setRing_ce (fn r : Nat) (x : Ring) : (d.setRing fn r x).ce = d.ce := rfl
@[simp] theorem Dev.setRing_efu (fn r : Nat) (x : Ring) : (d.setRing fn r x).efu = d.efu := rfl
@[simp] theorem Dev.setRing_prism (fn r : Nat) (x : Ring) : (d.setRing fn r x).prism = d.prism := rfl
@[simp] theorem Dev.setRing_lens (fn r : Nat) (x : Ring) : (d.setRing fn r x).lens = d.lens := rfl
@[simp] theorem Dev.setRing_mir (fn r : Nat) (x : Ring) : (d.setRing fn r x).mir = d.mir := rfl
@[simp] theorem Dev.setRing_start (fn r : Nat) (x : Ring) : (d.setRing fn r x).start = d.start := rfl
@[simp] theorem Dev.setRing_startNext (fn r : Nat) (x : Ring) : (d.setRing fn r x).startNext = d.startNext := rfl
@[simp] theorem Dev.setJob_time (j : Nat) (x : Job) : (d.setJob j x).time = d.time := rfl
@[simp] theorem Dev.setJob_free (j : Nat) (x : Job) : (d.setJob j x).free = d.free := rfl
@[simp] theorem Dev.setJob_regs (j : Nat) (x : Job) : (d.setJob j x).regs = d.regs := rfl
@[simp] theorem Dev.setJob_hold (j : Nat) (x : Job) : (d.setJob j x).hold = d.hold := rfl
@[simp] theorem Dev.setJob_capt (j : Nat) (x : Job) : (d.setJob j x).capt = d.capt := rfl
@[simp] theorem Dev.setJob_resp (j : Nat) (x : Job) : (d.setJob j x).resp = d.resp := rfl
@[simp] theorem Dev.setJob_out (j : Nat) (x : Job) : (d.setJob j x).out = d.out := rfl
@[simp] theorem Dev.setJob_top (j : Nat) (x : Job) : (d.setJob j x).top = d.top := rfl
@[simp] theorem Dev.setJob_hm (j : Nat) (x : Job) : (d.setJob j x).hm = d.hm := rfl
@[simp] theorem Dev.setJob_hmBase (j : Nat) (x : Job) : (d.setJob j x).hmBase = d.hmBase := rfl
@[simp] theorem Dev.setJob_pic (j : Nat) (x : Job) : (d.setJob j x).pic = d.pic := rfl
@[simp] theorem Dev.setJob_picAt (j : Nat) (x : Job) : (d.setJob j x).picAt = d.picAt := rfl
@[simp] theorem Dev.setJob_tgu (j : Nat) (x : Job) : (d.setJob j x).tgu = d.tgu := rfl
@[simp] theorem Dev.setJob_fab (j : Nat) (x : Job) : (d.setJob j x).fab = d.fab := rfl
@[simp] theorem Dev.setJob_fac (j : Nat) (x : Job) : (d.setJob j x).fac = d.fac := rfl
@[simp] theorem Dev.setJob_ce (j : Nat) (x : Job) : (d.setJob j x).ce = d.ce := rfl
@[simp] theorem Dev.setJob_efu (j : Nat) (x : Job) : (d.setJob j x).efu = d.efu := rfl
@[simp] theorem Dev.setJob_prism (j : Nat) (x : Job) : (d.setJob j x).prism = d.prism := rfl
@[simp] theorem Dev.setJob_lens (j : Nat) (x : Job) : (d.setJob j x).lens = d.lens := rfl
@[simp] theorem Dev.setJob_mir (j : Nat) (x : Job) : (d.setJob j x).mir = d.mir := rfl
@[simp] theorem Dev.setJob_start (j : Nat) (x : Job) : (d.setJob j x).start = d.start := rfl
@[simp] theorem Dev.setJob_startNext (j : Nat) (x : Job) : (d.setJob j x).startNext = d.startNext := rfl
@[simp] theorem Dev.setReg_time (h : Half) (a : Nat) (v : Word32) : (d.setReg h a v).time = d.time := by
  unfold Dev.setReg; split <;> rfl
@[simp] theorem Dev.setReg_free (h : Half) (a : Nat) (v : Word32) : (d.setReg h a v).free = d.free := by
  unfold Dev.setReg; split <;> rfl
@[simp] theorem Dev.setReg_hold (h : Half) (a : Nat) (v : Word32) : (d.setReg h a v).hold = d.hold := by
  unfold Dev.setReg; split <;> rfl
@[simp] theorem Dev.setReg_capt (h : Half) (a : Nat) (v : Word32) : (d.setReg h a v).capt = d.capt := by
  unfold Dev.setReg; split <;> rfl
@[simp] theorem Dev.setReg_resp (h : Half) (a : Nat) (v : Word32) : (d.setReg h a v).resp = d.resp := by
  unfold Dev.setReg; split <;> rfl
@[simp] theorem Dev.setReg_out (h : Half) (a : Nat) (v : Word32) : (d.setReg h a v).out = d.out := by
  unfold Dev.setReg; split <;> rfl
@[simp] theorem Dev.setReg_top (h : Half) (a : Nat) (v : Word32) : (d.setReg h a v).top = d.top := by
  unfold Dev.setReg; split <;> rfl
@[simp] theorem Dev.setReg_hm (h : Half) (a : Nat) (v : Word32) : (d.setReg h a v).hm = d.hm := by
  unfold Dev.setReg; split <;> rfl
@[simp] theorem Dev.setReg_hmBase (h : Half) (a : Nat) (v : Word32) : (d.setReg h a v).hmBase = d.hmBase := by
  unfold Dev.setReg; split <;> rfl
@[simp] theorem Dev.setReg_pic (h : Half) (a : Nat) (v : Word32) : (d.setReg h a v).pic = d.pic := by
  unfold Dev.setReg; split <;> rfl
@[simp] theorem Dev.setReg_picAt (h : Half) (a : Nat) (v : Word32) : (d.setReg h a v).picAt = d.picAt := by
  unfold Dev.setReg; split <;> rfl
@[simp] theorem Dev.setReg_host (h : Half) (a : Nat) (v : Word32) : (d.setReg h a v).host = d.host := by
  unfold Dev.setReg; split <;> rfl
@[simp] theorem Dev.setReg_tgu (h : Half) (a : Nat) (v : Word32) : (d.setReg h a v).tgu = d.tgu := by
  unfold Dev.setReg; split <;> rfl
@[simp] theorem Dev.setReg_fab (h : Half) (a : Nat) (v : Word32) : (d.setReg h a v).fab = d.fab := by
  unfold Dev.setReg; split <;> rfl
@[simp] theorem Dev.setReg_fac (h : Half) (a : Nat) (v : Word32) : (d.setReg h a v).fac = d.fac := by
  unfold Dev.setReg; split <;> rfl
@[simp] theorem Dev.setReg_ce (h : Half) (a : Nat) (v : Word32) : (d.setReg h a v).ce = d.ce := by
  unfold Dev.setReg; split <;> rfl
@[simp] theorem Dev.setReg_efu (h : Half) (a : Nat) (v : Word32) : (d.setReg h a v).efu = d.efu := by
  unfold Dev.setReg; split <;> rfl
@[simp] theorem Dev.setReg_prism (h : Half) (a : Nat) (v : Word32) : (d.setReg h a v).prism = d.prism := by
  unfold Dev.setReg; split <;> rfl
@[simp] theorem Dev.setReg_lens (h : Half) (a : Nat) (v : Word32) : (d.setReg h a v).lens = d.lens := by
  unfold Dev.setReg; split <;> rfl
@[simp] theorem Dev.setReg_mir (h : Half) (a : Nat) (v : Word32) : (d.setReg h a v).mir = d.mir := by
  unfold Dev.setReg; split <;> rfl
@[simp] theorem Dev.setReg_start (h : Half) (a : Nat) (v : Word32) : (d.setReg h a v).start = d.start := by
  unfold Dev.setReg; split <;> rfl
@[simp] theorem Dev.setReg_startNext (h : Half) (a : Nat) (v : Word32) : (d.setReg h a v).startNext = d.startNext := by
  unfold Dev.setReg; split <;> rfl
@[simp] theorem Dev.setReg64_time (h : Half) (a x : Nat) : (d.setReg64 h a x).time = d.time := by
  simp [Dev.setReg64]
@[simp] theorem Dev.setReg64_free (h : Half) (a x : Nat) : (d.setReg64 h a x).free = d.free := by
  simp [Dev.setReg64]
@[simp] theorem Dev.setReg64_hold (h : Half) (a x : Nat) : (d.setReg64 h a x).hold = d.hold := by
  simp [Dev.setReg64]
@[simp] theorem Dev.setReg64_capt (h : Half) (a x : Nat) : (d.setReg64 h a x).capt = d.capt := by
  simp [Dev.setReg64]
@[simp] theorem Dev.setReg64_resp (h : Half) (a x : Nat) : (d.setReg64 h a x).resp = d.resp := by
  simp [Dev.setReg64]
@[simp] theorem Dev.setReg64_out (h : Half) (a x : Nat) : (d.setReg64 h a x).out = d.out := by
  simp [Dev.setReg64]
@[simp] theorem Dev.setReg64_top (h : Half) (a x : Nat) : (d.setReg64 h a x).top = d.top := by
  simp [Dev.setReg64]
@[simp] theorem Dev.setReg64_hm (h : Half) (a x : Nat) : (d.setReg64 h a x).hm = d.hm := by
  simp [Dev.setReg64]
@[simp] theorem Dev.setReg64_hmBase (h : Half) (a x : Nat) : (d.setReg64 h a x).hmBase = d.hmBase := by
  simp [Dev.setReg64]
@[simp] theorem Dev.setReg64_pic (h : Half) (a x : Nat) : (d.setReg64 h a x).pic = d.pic := by
  simp [Dev.setReg64]
@[simp] theorem Dev.setReg64_picAt (h : Half) (a x : Nat) : (d.setReg64 h a x).picAt = d.picAt := by
  simp [Dev.setReg64]
@[simp] theorem Dev.setReg64_host (h : Half) (a x : Nat) : (d.setReg64 h a x).host = d.host := by
  simp [Dev.setReg64]
@[simp] theorem Dev.setReg64_tgu (h : Half) (a x : Nat) : (d.setReg64 h a x).tgu = d.tgu := by
  simp [Dev.setReg64]
@[simp] theorem Dev.setReg64_fab (h : Half) (a x : Nat) : (d.setReg64 h a x).fab = d.fab := by
  simp [Dev.setReg64]
@[simp] theorem Dev.setReg64_fac (h : Half) (a x : Nat) : (d.setReg64 h a x).fac = d.fac := by
  simp [Dev.setReg64]
@[simp] theorem Dev.setReg64_ce (h : Half) (a x : Nat) : (d.setReg64 h a x).ce = d.ce := by
  simp [Dev.setReg64]
@[simp] theorem Dev.setReg64_efu (h : Half) (a x : Nat) : (d.setReg64 h a x).efu = d.efu := by
  simp [Dev.setReg64]
@[simp] theorem Dev.setReg64_prism (h : Half) (a x : Nat) : (d.setReg64 h a x).prism = d.prism := by
  simp [Dev.setReg64]
@[simp] theorem Dev.setReg64_lens (h : Half) (a x : Nat) : (d.setReg64 h a x).lens = d.lens := by
  simp [Dev.setReg64]
@[simp] theorem Dev.setReg64_mir (h : Half) (a x : Nat) : (d.setReg64 h a x).mir = d.mir := by
  simp [Dev.setReg64]
@[simp] theorem Dev.setReg64_start (h : Half) (a x : Nat) : (d.setReg64 h a x).start = d.start := by
  simp [Dev.setReg64]
@[simp] theorem Dev.setReg64_startNext (h : Half) (a x : Nat) : (d.setReg64 h a x).startNext = d.startNext := by
  simp [Dev.setReg64]
@[simp] theorem Dev.count_time (h : Half) (a n : Nat) : (d.count h a n).time = d.time := by
  unfold Dev.count; split <;> simp
@[simp] theorem Dev.count_free (h : Half) (a n : Nat) : (d.count h a n).free = d.free := by
  unfold Dev.count; split <;> simp
@[simp] theorem Dev.count_hold (h : Half) (a n : Nat) : (d.count h a n).hold = d.hold := by
  unfold Dev.count; split <;> simp
@[simp] theorem Dev.count_capt (h : Half) (a n : Nat) : (d.count h a n).capt = d.capt := by
  unfold Dev.count; split <;> simp
@[simp] theorem Dev.count_resp (h : Half) (a n : Nat) : (d.count h a n).resp = d.resp := by
  unfold Dev.count; split <;> simp
@[simp] theorem Dev.count_out (h : Half) (a n : Nat) : (d.count h a n).out = d.out := by
  unfold Dev.count; split <;> simp
@[simp] theorem Dev.count_top (h : Half) (a n : Nat) : (d.count h a n).top = d.top := by
  unfold Dev.count; split <;> simp
@[simp] theorem Dev.count_hm (h : Half) (a n : Nat) : (d.count h a n).hm = d.hm := by
  unfold Dev.count; split <;> simp
@[simp] theorem Dev.count_hmBase (h : Half) (a n : Nat) : (d.count h a n).hmBase = d.hmBase := by
  unfold Dev.count; split <;> simp
@[simp] theorem Dev.count_pic (h : Half) (a n : Nat) : (d.count h a n).pic = d.pic := by
  unfold Dev.count; split <;> simp
@[simp] theorem Dev.count_picAt (h : Half) (a n : Nat) : (d.count h a n).picAt = d.picAt := by
  unfold Dev.count; split <;> simp
@[simp] theorem Dev.count_host (h : Half) (a n : Nat) : (d.count h a n).host = d.host := by
  unfold Dev.count; split <;> simp
@[simp] theorem Dev.count_tgu (h : Half) (a n : Nat) : (d.count h a n).tgu = d.tgu := by
  unfold Dev.count; split <;> simp
@[simp] theorem Dev.count_fab (h : Half) (a n : Nat) : (d.count h a n).fab = d.fab := by
  unfold Dev.count; split <;> simp
@[simp] theorem Dev.count_fac (h : Half) (a n : Nat) : (d.count h a n).fac = d.fac := by
  unfold Dev.count; split <;> simp
@[simp] theorem Dev.count_ce (h : Half) (a n : Nat) : (d.count h a n).ce = d.ce := by
  unfold Dev.count; split <;> simp
@[simp] theorem Dev.count_efu (h : Half) (a n : Nat) : (d.count h a n).efu = d.efu := by
  unfold Dev.count; split <;> simp
@[simp] theorem Dev.count_prism (h : Half) (a n : Nat) : (d.count h a n).prism = d.prism := by
  unfold Dev.count; split <;> simp
@[simp] theorem Dev.count_lens (h : Half) (a n : Nat) : (d.count h a n).lens = d.lens := by
  unfold Dev.count; split <;> simp
@[simp] theorem Dev.count_mir (h : Half) (a n : Nat) : (d.count h a n).mir = d.mir := by
  unfold Dev.count; split <;> simp
@[simp] theorem Dev.count_start (h : Half) (a n : Nat) : (d.count h a n).start = d.start := by
  unfold Dev.count; split <;> simp
@[simp] theorem Dev.count_startNext (h : Half) (a n : Nat) : (d.count h a n).startNext = d.startNext := by
  unfold Dev.count; split <;> simp

end

end Sys2Proof.Machine
end

