-- ==== Sys2Proof/WellFormed.lean ====
section
/-! DEFINITION. Which command terms the outside can send: operands within the ranges of their fields. -/

namespace Sys2Proof

/-- Function codes: the PF 0, VFs 1 to 63, and the standby function 0x40 (R276). -/
def fnOk (fn : Nat) : Bool := decide (fn ≤ 63) || fn == 0x40

/-- Whether a command is well formed. -/
def Instr.wf : Instr → Bool
  | .pwrGoodRise => true
  | .pwrGoodFall => true
  | .resetNAssert => true
  | .resetNDeassert _ => true
  | .scBoot _ _ _ _ _ => true
  | .elect _ _ msg => decide (msg.length = 16)
  | .electionTimeout _ _ => true
  | .stackTrainingDone _ _ => true
  | .baselineDone _ failed => (failed.all fun f => decide (f < 320))
  | .configurationRequest req => fnOk req.fn && (match req.reg with | .bar n => decide (n < 6) | _ => true)
  | .perstN _ _ _ => true
  | .vfEnable _ _ => true
  | .doorbellEnable fn _ => fnOk fn
  | .functionLevelReset fn _ => fnOk fn
  | .bar4Read fn _ len => fnOk fn && decide (0 < len)
  | .bar4Write fn _ data => fnOk fn && !data.isEmpty
  | .hostReadError fn ring _ _ _ _ => fnOk fn && decide (ring < 16)
  | .hostWriteError target job nodeId tag _ _ =>
    decide (job < 2 ^ 20) && decide (nodeId < 2 ^ 32) && decide (tag < 2 ^ 64) &&
    match target with
    | .command _ _ _ => true
    | .record fn ring => fnOk fn && decide (ring < 16)
    | .event fn => fnOk fn
  | .pairLoWrite fn _ _ => fnOk fn
  | .pairHiWrite fn _ _ _ => fnOk fn
  | .pairLoRead fn bar _ size _ => fnOk fn && (bar == 0 || bar == 2) && [1, 2, 4, 8].contains size
  | .registerWrite fn _ size _ _ => fnOk fn && [1, 2, 4, 8].contains size
  | .topFatalStatusClear fn _ _ _ => fnOk fn
  | .topDeviceModeWrite fn _ _ _ => fnOk fn
  | .modeChange _ => true
  | .topFacetClkWrite fn _ _ _ => fnOk fn
  | .topThermCfgWrite fn _ _ _ => fnOk fn
  | .prismCtxHighWrite fn _ _ _ => fnOk fn
  | .efuPredClear fn _ _ _ => fnOk fn
  | .efuResidentLimitWrite fn _ _ _ => fnOk fn
  | .tguFacetRetainWrite fn _ _ _ => fnOk fn
  | .tguLaneSplitWrite fn _ _ _ => fnOk fn
  | .tguTrainTableHi fn _ _ _ => fnOk fn
  | .bpmPoolCfgHi fn _ pool _ _ => fnOk fn && decide (pool < 16)
  | .bpmPoolReserveWrite fn _ pool client _ _ => fnOk fn && decide (pool < 16) && decide (client < 64)
  | .hostDbSqTail fn ring _ _ => fnOk fn && decide (ring < 16)
  | .hostDbCqHead fn ring _ => fnOk fn && decide (ring < 16)
  | .hostDbAbortTagHi fn ring _ _ _ => fnOk fn && decide (ring < 16)
  | .hostDbEvtHead fn ring _ _ => fnOk fn && decide (ring < 16)
  | .create fn _ => fnOk fn
  | .remove fn _ => fnOk fn
  | .forceRemove fn _ => fnOk fn
  | .ringEnable fn ring _ _ => fnOk fn && decide (ring < 16)
  | .ringDisable fn ring _ _ => fnOk fn && decide (ring < 16)
  | .ringDrained fn ring => fnOk fn && decide (ring < 16)
  | .eventRingEnable fn _ _ => fnOk fn
  | .fabRemoteEnable fn _ _ => fnOk fn
  | .fabRemoteDisable fn _ _ => fnOk fn
  | .fabRegionInstall fn _ _ => fnOk fn
  | .fabRegionRemove fn _ _ => fnOk fn
  | .fabRegionLookup fn _ _ => fnOk fn
  | .fabRouteEntryHi fn _ _ _ => fnOk fn
  | .fabReaderWrite fn _ _ => fnOk fn
  | .fabReaderClear fn _ _ => fnOk fn
  | .fabReaderRead fn _ _ => fnOk fn
  | .fabSetupHashHi fn _ _ _ => fnOk fn
  | .fabPortCfgWrite fn win block _ _ => fnOk fn && decide (block < 32) && block / 16 == win.code
  | .ceMemberDataWrite fn _ _ _ => fnOk fn
  | .ceGroupInstall fn _ _ => fnOk fn
  | .ceGroupReform fn _ _ => fnOk fn
  | .ceGroupRemove fn _ _ => fnOk fn
  | .ceGroupLookup fn _ _ => fnOk fn
  | .protect fn _ _ => fnOk fn
  | .unprotect fn _ _ => fnOk fn
  | .mirPartnerEnable fn _ _ _ => fnOk fn
  | .mirHostEnable fn _ _ _ => fnOk fn
  | .restoreStart fn _ _ => fnOk fn
  | .restoreDone _ => true
  | .jstartStart fn _ _ => fnOk fn
  | .jstartCancel fn _ _ => fnOk fn
  | .jstartPoll _ => true
  | .jstartParentTimeout _ => true
  | .jstartChildCheck _ => true
  | .secMailboxGo fn _ _ _ => fnOk fn
  | .descriptorAdmission fn ring _ => fnOk fn && decide (ring < 16)
  | .sqHeadWriteback fn ring _ => fnOk fn && decide (ring < 16)
  | .recordWriteback fn ring _ => fnOk fn && decide (ring < 16)
  | .msixMessage fn vector _ => fnOk fn && decide (vector < 32)
  | .kernel _ _ _ => true
  | .matmul _ _ _ => true
  | .route _ _ _ => true
  | .routeScored _ _ _ => true
  | .fetchExperts _ _ _ => true
  | .combine _ _ _ => true
  | .copy _ _ _ => true
  | .copyT _ _ _ => true
  | .ingest _ _ _ => true
  | .windowGather _ _ _ => true
  | .alloc _ _ _ => true
  | .freeBuf _ _ _ => true
  | .release _ _ _ => true
  | .shareBuf _ _ _ => true
  | .collective _ _ _ => true
  | .asyncCopyRemote _ _ _ => true
  | .ownTransfer _ _ _ => true
  | .invalidate _ _ _ => true
  | .fence _ _ _ => true
  | .hostSignal _ _ _ => true
  | .hostWait _ _ _ => true
  | .hostWaitPoll _ _ _ => true
  | .snapshot _ _ _ => true
  | .nopNode _ _ _ => true
  | .nodeCommit _ _ _ => true
  | .jobFatalStep job status _ => decide (job < 2 ^ 20) && decide (status < 256)
  | .copyBack _ _ => true
  | .shadowDeadlockKill _ _ => true
  | .graceTimerExpiry _ _ _ => true
  | .frameTickIn _ => true
  | .internalTick _ => true
  | .deadlineExpiry _ _ => true
  | .facetWatchdog facet _ => decide (facet < 320)
  | .prismGroupAdmit _ _ _ _ => true
  | .prismSetAside _ _ _ _ => true
  | .prismAdmitTimeout _ _ _ => true
  | .prefetchStaging _ _ _ _ => true
  | .expertStart _ _ _ _ => true
  | .tileMulticast _ _ _ _ => true
  | .resultNotice _ => true
  | .codeLoad facet _ => decide (facet < 320)
  | .waitComplete facet _ => decide (facet < 320)
  | .facetNop facet _ => decide (facet < 320)
  | .endInst facet _ => decide (facet < 320)
  | .br facet _ => decide (facet < 320)
  | .bc facet _ => decide (facet < 320)
  | .loopInst facet _ => decide (facet < 320)
  | .callInst facet _ => decide (facet < 320)
  | .retInst facet _ => decide (facet < 320)
  | .trap facet _ => decide (facet < 320)
  | .addS facet _ => decide (facet < 320)
  | .addi facet _ => decide (facet < 320)
  | .subS facet _ => decide (facet < 320)
  | .mulS facet _ => decide (facet < 320)
  | .andS facet _ => decide (facet < 320)
  | .orS facet _ => decide (facet < 320)
  | .xorS facet _ => decide (facet < 320)
  | .shl facet _ => decide (facet < 320)
  | .shr facet _ => decide (facet < 320)
  | .minS facet _ => decide (facet < 320)
  | .maxS facet _ => decide (facet < 320)
  | .li facet _ => decide (facet < 320)
  | .lih facet _ => decide (facet < 320)
  | .rdspec facet _ => decide (facet < 320)
  | .ld64 facet _ => decide (facet < 320)
  | .ld32 facet _ => decide (facet < 320)
  | .tpset facet _ => decide (facet < 320)
  | .tload facet _ => decide (facet < 320)
  | .tstore facet _ => decide (facet < 320)
  | .tcopy facet _ => decide (facet < 320)
  | .thdr facet _ => decide (facet < 320)
  | .tzero facet _ => decide (facet < 320)
  | .tgather facet _ => decide (facet < 320)
  | .tldr facet _ => decide (facet < 320)
  | .tstr facet _ => decide (facet < 320)
  | .tcvt facet _ => decide (facet < 320)
  | .mma facet _ => decide (facet < 320)
  | .accStore facet _ => decide (facet < 320)
  | .accLoad facet _ => decide (facet < 320)
  | .accZero facet _ => decide (facet < 320)
  | .accAdd facet _ => decide (facet < 320)
  | .vadd facet _ => decide (facet < 320)
  | .vsub facet _ => decide (facet < 320)
  | .vmul facet _ => decide (facet < 320)
  | .vfma facet _ => decide (facet < 320)
  | .vmax facet _ => decide (facet < 320)
  | .vmin facet _ => decide (facet < 320)
  | .vcmplt facet _ => decide (facet < 320)
  | .vsel facet _ => decide (facet < 320)
  | .vbcast facet _ => decide (facet < 320)
  | .vext facet _ => decide (facet < 320)
  | .vrsum facet _ => decide (facet < 320)
  | .vrmax facet _ => decide (facet < 320)
  | .vld facet _ => decide (facet < 320)
  | .vst facet _ => decide (facet < 320)
  | .vlda facet _ => decide (facet < 320)
  | .vsta facet _ => decide (facet < 320)
  | .expV facet _ => decide (facet < 320)
  | .exp2 facet _ => decide (facet < 320)
  | .ln facet _ => decide (facet < 320)
  | .log2 facet _ => decide (facet < 320)
  | .rcp facet _ => decide (facet < 320)
  | .sqrt facet _ => decide (facet < 320)
  | .rsqrt facet _ => decide (facet < 320)
  | .tanh facet _ => decide (facet < 320)
  | .sigmoid facet _ => decide (facet < 320)
  | .silu facet _ => decide (facet < 320)
  | .erf facet _ => decide (facet < 320)
  | .gelu facet _ => decide (facet < 320)
  | .waitPiece facet _ => decide (facet < 320)
  | .waitAny facet _ => decide (facet < 320)
  | .releaseSlot facet _ => decide (facet < 320)
  | .waitGroup facet _ => decide (facet < 320)
  | .rload facet _ => decide (facet < 320)
  | .rloadt facet _ => decide (facet < 320)
  | .rstore facet _ => decide (facet < 320)
  | .rstoret facet _ => decide (facet < 320)
  | .ratomic facet _ => decide (facet < 320)
  | .postNotice facet _ => decide (facet < 320)
  | .stageQuery facet _ => decide (facet < 320)
  | .dataFlit port seq flit _ => decide (port < 64) && decide (seq < 65536) && decide (flit.length = 256)
  | .nak port flit _ => decide (port < 64) && decide (flit.length = 256)
  | .initFlit port seq flit _ => decide (port < 64) && decide (seq < 65536) && decide (flit.length = 256)
  | .macFlit port seq flit _ _ => decide (port < 64) && decide (seq < 65536) && decide (flit.length = 256)
  | .timeFlit port seq flit _ => decide (port < 64) && decide (seq < 65536) && decide (flit.length = 256)
  | .credit port seq flit _ => decide (port < 64) && decide (seq < 65536) && decide (flit.length = 256)
  | .timeExchange _ => true
  | .linkDown port _ => decide (port < 64)
  | .nullWord port _ => decide (port < 64)
  | .readTx port _ => decide (port ≤ 64)
  | .readResp port _ => decide (port ≤ 64)
  | .writeTx port _ => decide (port ≤ 64)
  | .atomic port _ => decide (port ≤ 64)
  | .bulk port _ => decide (port ≤ 64)
  | .ack port _ => decide (port ≤ 64)
  | .fabInvalidate port _ => decide (port ≤ 64)
  | .fabInvalidateDeliver port _ => decide (port ≤ 64)
  | .fabFence port _ => decide (port ≤ 64)
  | .fenceAck port _ => decide (port ≤ 64)
  | .ackCoalesce src _ => decide (src < 2 ^ 18)
  | .pathTimeout dest slot _ => decide (dest < 2 ^ 18) && decide (slot < 4)
  | .slotRevive dest slot _ => decide (dest < 2 ^ 18) && decide (slot < 4)
  | .reachTimeout dest _ => decide (dest < 2 ^ 18)
  | .windowExpiry src _ => decide (src < 2 ^ 18)
  | .demand port _ => decide (port ≤ 64)
  | .repair port _ => decide (port ≤ 64)
  | .expertTile port _ => decide (port ≤ 64)
  | .readyFrame port _ => decide (port ≤ 64)
  | .partialFrame port _ => decide (port ≤ 64)
  | .finalFrame port _ => decide (port ≤ 64)
  | .resend port _ => decide (port ≤ 64)
  | .presence port _ => decide (port ≤ 64)
  | .unionFrame port _ => decide (port ≤ 64)
  | .vote port _ => decide (port ≤ 64)
  | .verdict port _ => decide (port ≤ 64)
  | .withdraw port _ => decide (port ≤ 64)
  | .collTimeout group _ => decide (group < 64)
  | .epochRetry group _ => decide (group < 64)
  | .lease _ msg _ => decide (msg.length = 16)
  | .leaseEcho _ msg _ => decide (msg.length = 16)
  | .leaseRenewal _ => true
  | .leaseLapse _ _ => true
  | .leadRequestResend _ _ => true
  | .splitHalt _ _ => true
  | .shadowBatch _ _ => true
  | .shadowAck _ _ => true
  | .leadReply req result term => decide (req.tag < 256) && decide (result < 4) && decide (term < 2 ^ 32)
  | .detectorReport _ island report _ _ _ _ =>
    decide (island < 40) && (match report with | .droppedWrite fn _ => fnOk fn | _ => true)
  | .hmSample _ => true
  | .hmFloorDecay _ _ => true
  | .cutInterval _ => true
  | .epochCut _ => true
  | .mirrorPagePush _ => true
  | .cutClose port _ => decide (port ≤ 64)
  | .hello port _ => decide (port ≤ 64)
  | .helloReply port _ => decide (port ≤ 64)
  | .tapResult port _ => decide (port ≤ 64)
  | .tempReading _ sensor _ _ => decide (sensor < 16)
  | .tripRecovery _ => true
  | .droopEvent _ _ => true
  | .capStep _ _ _ _ => true
  | .telemetrySample _ _ _ => true
  | .patrolScrub _ dataErrs checkErrs _ => (dataErrs.all fun e => decide (e.1 < 32)) && checkErrs.all fun e => decide (e.1 < 4)
  | .sliceStart facet _ => decide (facet < 320)
  | .sliceEnd facet _ _ => decide (facet < 320)
  | .forcedRotation facet _ => decide (facet < 320)
  | .piccoloPeriod _ _ => true
  | .retirementListAppend facet _ => decide (facet < 320)
  | .scWatchdog _ _ => true
  | .selfTestPeriodic _ _ _ => true
  | .refclkSysStop _ => true
  | .serdesRefclkLoss quarter _ => decide (quarter < 4)
  | .ppsIn _ => true
  | .getIdentity req => decide (req.tag < 256)
  | .telemetryRead req payload => decide (req.tag < 256) && decide (payload.length ≤ 16376)
  | .eventLogRead req payload => decide (req.tag < 256) && decide (payload.length ≤ 16376)
  | .powerCeiling req payload => decide (req.tag < 256) && decide (payload.length ≤ 16376)
  | .leadStatus req => decide (req.tag < 256)
  | .maintStop req => decide (req.tag < 256)
  | .stageBegin req payload => decide (req.tag < 256) && decide (payload.length ≤ 16376)
  | .stageData req payload => decide (req.tag < 256) && decide (payload.length ≤ 16376)
  | .stageCommit req _ _ => decide (req.tag < 256)
  | .stageStatus req => decide (req.tag < 256)
  | .lifecycleChallenge req => decide (req.tag < 256)
  | .lifecycleToken req payload _ _ => decide (req.tag < 256) && decide (payload.length ≤ 16376)
  | .zeroise req => decide (req.tag < 256)
  | .clearRetired req => decide (req.tag < 256)
  | .selftestRun req _ => decide (req.tag < 256)
  | .setEndpointId _ path eid _ => path != .mailbox && decide (eid < 256)
  | .getEndpointId _ path _ => path != .mailbox
  | .getEndpointUuid _ path _ => path != .mailbox
  | .getMctpVersionSupport _ path _ => path != .mailbox
  | .getMessageTypeSupport _ path _ => path != .mailbox
  | .keyExchange _ _ _ _ _ => true
  | .keyUpdate _ _ => true
  | .entdaa _ addr => decide (addr < 128)
  | .setdasa _ static addr => decide (static < 128) && decide (addr < 128)
  | .rstdaa _ => true
  | .enec _ mask => decide (mask < 256)
  | .disec _ mask => decide (mask < 256)
  | .getpid _ => true
  | .getbcr _ => true
  | .getdcr _ => true
  | .getstatus _ => true
  | .setmrl _ len => decide (len < 65536)
  | .getmrl _ => true
  | .setmwl _ len => decide (len < 65536)
  | .getmwl _ => true
  | .rstact _ => true
  | .bypass => true
  | .idcode => true
  | .samplePreload _ => true
  | .extest => true
  | .clamp => true
  | .highz => true
  | .jtagPrivate code => decide (0x80 ≤ code ∧ code ≤ 0xFE)
  | .trstN => true
  | .portTrainingStart port _ => decide (port < 64)
  | .portTrainingEnd port _ _ => decide (port < 64)
  | .pcieLinkState _ _ _ _ _ _ => true
  | .t1BufferZeroed _ _ => true
  | .spdmSessionEnd _ _ => true
  | .entropyHealthFail _ _ => true
  | .msixVectorUnmask fn vector _ => fnOk fn && decide (vector < 32)

end Sys2Proof
end

