-- ==== Sys2Proof/Tests/Slice0.lean ====
section
/-! SUPPORT. The model's own tests: ill-formed commands that the check refuses, small runs of one command whose results the
spec gives, and for every statement states that meet its hypotheses. -/

namespace Sys2Proof.Tests

set_option Elab.async false

open Sys2Proof Sys2Proof.Machine

/-! ### States -/

/-- The device of a command's next state. -/
def dev? (o : Host.Outcome State Fault Refusal) : Option Dev := match o with | .next t => some t.dev | _ => none

/-- A device in NORMAL with the west half in the lead, both host links up. -/
def ready : State :=
  let d := State.reset.dev
  let v : LeadView := { LeadView.cold .west with st := .normal, term := 1 }
  let port : Port := { Port.cold with perst := true, cfgReady := true, speed := 6, width := 16, flit := true }
  { State.reset with dev := { d with
      top := { d.top with ready := true, stage := .ready, stackUp := 65535, baselineDone := true, portLead := some .west,
                          lead := ⟨v, v⟩, sc := ⟨{ Sc.cold with st := .booted }, { Sc.cold with st := .booted }⟩ },
      host := { d.host with ports := ⟨port, port⟩ } } }

/-- The same with the west half alone. -/
def alone : State :=
  { ready with dev := ready.dev.onTop fun t =>
      { t with degraded := true, lead := ⟨{ t.lead.w with st := .degraded, term := 2 }, { t.lead.e with st := .fenced, term := 2 }⟩ } }

/-- Base of the buffer of `jobbed`: the first page of the managed T1 of the west half. -/
def base : Nat := tierBase .west true

/-- Job 1 of the PF, with remote access, a 64 KiB buffer, and region 3 over it that device 9 owns. -/
def jobbed : State :=
  { ready with dev := (ready.dev.onHost fun x =>
      { x with jobs := [(1, { client := 0, fn := 0, seed := 5, slot := 0, keyEpoch := 1, genNext := 1, remote := true,
                              guarded := false, trainOn := false, trainTied := 0, trainBase := 0, trainCount := 0 })],
               bufs := [{ half := .west, pool := 0, idx := 0, base := base, size := 65536, st := .held, holders := [1],
                          owner := 1, client := 0, flags := 0, isSealed := false, keyEpoch := 1 }] }).onFab fun x =>
      { x with regions := [{ base := base, span := 65536, mode := 0, a := true, w := true, r := true, inv := true, reach := 0,
                             client := 0, owner := 9, job := 1, readers := 0, id := 3 }] } }

/-- A node of an opcode. -/
def nodeOf (op : Nat) (st : NodeSt) : Node :=
  { st := st, released := 0, pred := 0, succ := [], succCount := 0, succOff := 0, opcode := op, notify := false, id := 0,
    affinity := 0, shapeRef := 0, shape := none, status := 0, reruns := 0, contained := 0, attempt := 0, tdc := 0, start := 0,
    readyAt := 0, dispOrd := 0, readyOrd := none, acked := false, taint := none, given := [], heldNs := 0, gates := [],
    eng := .idle, staged := [], held := [], logBy := [], passed := false, log := [], acts := [], facets := [], avoid := [], nextIndex := 0, ended := 0, count := 0,
    waitsOn := [], probes := [], tiles := false, sfod := none, remoteOff := false, gen := 0, stalled := false, pinned := false,
    result := 0 }

/-- An instance of job 1 with one node, whose 128 bytes stand in host memory at 0x1000. -/
def instOf (n : Node) : Inst :=
  { fn := 0, ring := 0, job := 1, client := 0, gsd := List.replicate 64 0, base := 2 ^ 63 + 0x1000, tag := 7, setupHash := 0,
    recBase := 0, recDepth := 0, report := false, irq := false, lane := 0, prio := 0, policy := 0, frameId := none, number := 0,
    tick := 0, deadline := none, admitted := 0, strict := false, nodes := [n], firstBad := none, tdc := 0, reruns := 0,
    aborting := false }

/-- `jobbed` with one instance of given nodes, the first of which has the bytes `nb`. -/
def withNodes (ns : List Node) (nb : List Byte) : State :=
  { jobbed with host := Memory.setRuns jobbed.host [⟨0x1000, nb⟩],
                dev := jobbed.dev.onTgu fun t => { t with insts := [(0, { instOf (nodeOf 0 .done) with nodes := ns })], nextSeq := 1 } }

/-- `jobbed` with one instance of one node. -/
def withNode (n : Node) (nb : List Byte) : State := withNodes [n] nb

/-- The 128 bytes of a node whose bytes from 0x20 on are as given. -/
def nodeBytes (body : List Byte) : List Byte := List.replicate 32 0 ++ (body ++ List.replicate 96 0).take 96

/-- A ready node of an opcode whose bytes from 0x20 on are as given. -/
def nodeAt (op : Nat) (body : List Byte) : State :=
  withNode (nodeOf op .ready) (nodeBytes body)

/-- What a dispatch starts from, and the bytes and node of the command. -/
def started (s : State) (op now : Nat) (can : Dev → Nat → Nat → Bool) : Option (Wk × Inst × Node × List Byte) :=
  match (s.devAt now).inst 0 with
  | none => none
  | some x =>
    match x.nodes[0]? with
    | none => none
    | some n =>
      let w := (((s.start.at_ now).begun 0 0 x n).linked 0 0 []).shaped 0 0 none
      match w.rdForm x.job x.fn (x.base + 128 * 0) 128, w.dev.node 0 0 with
      | .ok nb, some m =>
        if n.st = .ready ∧ n.remoteOff = false ∧ n.opcode = op ∧ (s.devAt now).dispatching = true
            ∧ ((s.devAt now).ring x.fn x.ring).held.length < 256
            ∧ (s.start.at_ now).outranked 0 0 x op (can (s.devAt now)) = false ∧ strayGradient op n.affinity = false ∧ n.succCount = 0 ∧ n.shapeRef = 0 then
          some (w, x, m, nb)
        else none
      | _, _ => none

/-- Such a start is a dispatch. -/
theorem dispatches_of_started {s : State} {op now : Nat} {can : Dev → Nat → Nat → Bool} {w : Wk} {x : Inst} {m : Node} {nb : List Byte}
    (hc : can (s.devAt now) 0 0 = true) (h : started s op now can = some (w, x, m, nb)) : s.Dispatches 0 0 op now can w x m nb := by
  unfold started at h
  split at h
  · cases h
  · rename_i x' hx
    split at h
    · cases h
    · rename_i n hn
      dsimp only at h
      split at h
      · rename_i hb hm
        split at h
        · rename_i hs
          obtain ⟨h1, h2, h3, h4, h6, h7, hg, h8, h9⟩ := hs
          simp only [Option.some.injEq, Prod.mk.injEq] at h
          obtain ⟨rfl, rfl, rfl, rfl⟩ := h
          refine ⟨hx, ⟨n, hn, h1, h2, h3, h4, hc, h6, h7, hg, [], none, ?_, by simp, ?_, by simp, rfl⟩, hb, hm⟩
          · simp [Wk.succList, h8]
          · simp [Wk.shapeOf, h9]
        · cases h
      · cases h

/-- The dispatch of the one node of a state meets a further test of what it starts from. -/
def Meets (s : State) (op now : Nat) (can : Dev → Nat → Nat → Bool) (P : Wk → Inst → Node → List Byte → Bool) : Prop :=
  ∃ w x m nb, s.Dispatches 0 0 op now can w x m nb ∧ P w x m nb = true

/-- The same as a test, but for whether the engine can take the node. -/
def meets (s : State) (op now : Nat) (can : Dev → Nat → Nat → Bool) (P : Wk → Inst → Node → List Byte → Bool) : Bool :=
  match started s op now can with | some q => P q.1 q.2.1 q.2.2.1 q.2.2.2 | none => false

/-- The test says so. -/
theorem meets_can {s : State} {op now : Nat} {can : Dev → Nat → Nat → Bool} {P : Wk → Inst → Node → List Byte → Bool}
    (hc : can (s.devAt now) 0 0 = true) (h : meets s op now can P = true) : Meets s op now can P := by
  unfold meets at h
  split at h
  · rename_i q hq
    exact ⟨q.1, q.2.1, q.2.2.1, q.2.2.2, dispatches_of_started hc hq, h⟩
  · cases h

/-- Both tests together. -/
theorem meets_of {s : State} {op now : Nat} {can : Dev → Nat → Nat → Bool} {P : Wk → Inst → Node → List Byte → Bool}
    (h : (can (s.devAt now) 0 0 && meets s op now can P) = true) : Meets s op now can P := by
  rw [Bool.and_eq_true] at h
  exact meets_can h.1 h.2

/-- Inserting keeps what is there and adds its element. -/
theorem mem_insertBy {α : Type} (lt : α → α → Bool) (x a : α) (l : List α) (h : a = x ∨ a ∈ l) : a ∈ insertBy lt x l := by
  induction l with
  | nil => simpa [insertBy] using h
  | cons y t ih =>
    simp only [insertBy]
    split
    · simpa using h
    · rcases h with h | h
      · exact List.mem_cons_of_mem _ (ih (.inl h))
      · rcases List.mem_cons.mp h with h | h
        · simp [h]
        · exact List.mem_cons_of_mem _ (ih (.inr h))

/-- Sorting loses nothing. -/
theorem mem_sortBy {α : Type} (lt : α → α → Bool) {a : α} {l : List α} (h : a ∈ l) : a ∈ sortBy lt l := by
  have key : ∀ (t acc : List α), a ∈ acc ∨ a ∈ t → a ∈ List.foldl (fun acc x => insertBy lt x acc) acc t := by
    intro t
    induction t with
    | nil => exact fun _ ha => by simpa using ha
    | cons b t ih =>
      intro acc ha
      refine ih _ ?_
      rcases ha with ha | ha
      · exact .inl (mem_insertBy lt b a acc (.inr ha))
      · rcases List.mem_cons.mp ha with ha | ha
        · exact .inl (mem_insertBy lt b a acc (.inl ha))
        · exact .inr ha
  exact key l [] (.inr h)

/-- Whether the first facet can take node 0 of instance 0, which is bound to no half. -/
def firstFree (w : Wk) (d : Dev) : Bool :=
  match d.inst 0 with
  | none => false
  | some x =>
    match x.nodes[0]? with
    | none => false
    | some n => ({ w with dev := d } : Wk).chainFree 0 0 && d.logRoom d.logReserve 0 && (d.facetFor x.lane 0 && bits n.affinity 60 4 != 3)

/-- Then facets can take it. -/
theorem facetsFree_of {w : Wk} {d : Dev} (h : firstFree w d = true) : w.facetsFree d 0 0 = true := by
  unfold firstFree at h
  unfold Wk.facetsFree
  split at h
  · cases h
  · rename_i x hx
    split at h
    · cases h
    · rename_i n hn
      simp only [Bool.and_eq_true] at h
      have hm : 0 ∈ d.withRoom (d.placement x n none) := by
        unfold Dev.withRoom Dev.placement
        rw [List.mem_filter]
        refine ⟨mem_sortBy _ ?_, h.1.2⟩
        rw [List.mem_filter]
        exact ⟨by simp, by simp [h.2.1, h.2.2]⟩
      have hp : (d.withRoom (d.placement x n none)).isEmpty = false := by
        rw [List.isEmpty_eq_false_iff]
        exact List.ne_nil_of_mem hm
      simp [hx, hn, h.1.1, hp]

/-- Without a gradient handle no training check stands between a dispatch and its work. -/
theorem withGradient_none {w : Wk} {i j : Nat} {x : Inst} {m : Node} {q : Option (Nat × Nat × Nat × Nat × Nat)} (h : m.gradient = false)
    (k : Wk → Wk) : w.withGradient i j x m q k = k w := by
  simp [Wk.withGradient, h]

/-- A run of facet 0 with the words of its code. -/
def runOf (words : List Nat) : FacetRun :=
  { seq := 0, node := 0, attempt := 1, index := 0, count := 1, job := 1, strict := false, nb := nodeBytes [], loaded := true,
    code := words.map fun x => BitVec.ofNat 64 x, pc := 0, s := List.replicate 32 0, tp := List.replicate 64 0, v := [], acc := [],
    scratch := [], calls := [], logUsed := 0, logAll := 0, groups := List.replicate 16 0, incoming := [], nextLoad := 0,
    window := none, waiting := none, steps := 0, scratchSec := 1024, slotBase := 0, slotSec := 0, slotTiles := 0, ring := [],
    delivered := 0, drain := false, expert := none, capture := false, caught := [], replay := false, fod := false, sfod := false,
    started := 0, takenAt := 0, lent := false, lane := none }

/-- `jobbed` with a RUNNING KERNEL of one instance that facet 0 runs. -/
def runs (r : FacetRun) : State :=
  let s := withNode { nodeOf 0x100 .running with count := 1, nextIndex := 1, facets := [0] } (nodeBytes [])
  { s with dev := { s.dev with fac := { s.dev.fac with runs := [(0, r)] } } }

/-- Facet 0 stands at a word. -/
def atWord (w : Nat) : State := runs (runOf [w])

/-- `jobbed` with port 0 UP toward device 9, which the routes reach. -/
def linked (x : FPort) : State :=
  { jobbed with dev := jobbed.dev.onFab fun f => { f with routes := [(9, 2 ^ 62)], ports := [(0, x)] } }

/-- A port that is UP with credits. -/
def upPort : FPort := { FPort.cold with st := .up, peerDev := 9, credits := List.replicate 14 1000 }

/-- `linked` with transactions that have arrived on port 0. -/
def arrived (ts : List Txn) : State := linked { upPort with arrived := ts }

/-- A request of device 9 for job 1 at an offset of region 3. -/
def reqOf (op len off : Nat) (data : List Byte) : Txn := Txn.mk0 op 1 0 5 9 (regionWord 3 off) 1 len data

/-! ### Small tools -/

/-- A test of what an answer holds. -/
def okAnd {ε α : Type} (e : Except ε α) (k : α → Bool) : Bool := match e with | .ok a => k a | .error _ => false

/-- A test of what an option holds. -/
def someAnd {α : Type} (o : Option α) (k : α → Bool) : Bool := match o with | some a => k a | none => false

/-- A test of a command's next state. -/
def nextAnd (o : Host.Outcome State Fault Refusal) (k : State → Bool) : Bool := match o with | .next t => k t | _ => false

/-- Such a test holds of something. -/
theorem okAnd_spec {ε α : Type} {e : Except ε α} {k : α → Bool} (h : okAnd e k = true) : ∃ a, e = .ok a ∧ k a = true := by
  cases e with
  | ok a => exact ⟨a, rfl, h⟩
  | error _ => cases h

/-- Such a test holds of something. -/
theorem someAnd_spec {α : Type} {o : Option α} {k : α → Bool} (h : someAnd o k = true) : ∃ a, o = some a ∧ k a = true := by
  cases o with
  | some a => exact ⟨a, rfl, h⟩
  | none => cases h

/-- `runs` with bytes of device memory. -/
def runsIn (m : List Run) (r : FacetRun) : State := { runs r with mem := Memory.setRuns [] m }

/-- What a run shows of the word it stands at. -/
def stands (r : FacetRun) (op word : Nat) : Bool :=
  r.loaded && !r.drain && r.word == some word && encodingOk word && word / 2 ^ 56 == op && r.seq == 0 && r.node == 0

/-- Facet 0 of `runs` stands at the word. -/
theorem runs_at {r : FacetRun} {op word : Nat} (h : stands r op word = true) : (runs r).atInstr 0 op word r := by
  simp only [stands, Bool.and_eq_true, Bool.not_eq_true', beq_iff_eq] at h
  refine ⟨rfl, h.1.1.1.1.1.1, h.1.1.1.1.1.2, h.1.1.1.1.2, h.1.1.1.2, h.1.1.2, ?_⟩
  simp only [Dev.nodeStalled, h.1.2, h.2]
  rfl

/-- Facet 0 of `runsIn` stands at the word. -/
theorem runsIn_at {m : List Run} {r : FacetRun} {op word : Nat} (h : stands r op word = true) : (runsIn m r).atInstr 0 op word r :=
  runs_at h

/-- A run with a scalar register set. -/
def sS (i v : Nat) (r : FacetRun) : FacetRun := { r with s := r.s.set i (BitVec.ofNat 64 v) }

/-- A run with a tile pointer set. -/
def sTp (i v : Nat) (r : FacetRun) : FacetRun := { r with tp := r.tp.set i v }

/-- The header sector of an E4M3 tile of 64 rows and columns; sectors of the scratch that nothing has written read as zeros. -/
def tileHead : List Byte := (Hdr.fresh tyE4m3 64 64 0 0 scaleOne false).bytes

/-- A run at a word with E4M3 tiles of zeros at sectors 10 (TP7) and 600 (TP8). -/
def tiled (w : Nat) : FacetRun := sTp 8 600 (sTp 7 10 { runOf [w] with scratch := [(10, tileHead), (600, tileHead)] })

/-- The smallest tile: MXFP4 under 1:4 sparsity, all zeros. -/
def smallTile : Tile :=
  { hdr := { Hdr.fresh 0x14 64 64 0 0 scaleOne false with sparsity := 2, metaSec := 16, sectors := plainSectors 0x14 2 },
    body := List.replicate (32 * plainSectors 0x14 2) 0 }

/-! ### Ill-formed commands -/

/-- The check refuses an ill-formed command of every kind of operand check, and takes a well-formed one. -/
theorem test_wf_functions : [Instr.create 65 0, .hostDbSqTail 0 16 0 0, .hostDbSqTail 0x41 0 0 0, .msixMessage 0 32 0,
    .bpmPoolCfgHi 0 .west 16 0 0, .bpmPoolReserveWrite 0 .west 0 64 0 0, .fabPortCfgWrite 0 .west 16 0 0, .bar4Read 0 0 0,
    .bar4Write 0 0 [], .registerWrite 0 0 3 0 0, .pairLoRead 0 4 0 4 0].all (fun c => !c.wf) = true
  ∧ [Instr.create 63 0, .create 0x40 0, .hostDbSqTail 0 15 0 0, .msixMessage 0 31 0, .bpmPoolReserveWrite 0 .west 15 63 0 0,
    .pairLoRead 0 2 0 4 0].all (·.wf) = true := by decide +kernel

/-- The same for facets, ports, flits, groups and devices. -/
theorem test_wf_numbers : [Instr.addS 320 0, .readTx 65 0, .linkDown 64 0, .dataFlit 0 65536 (List.replicate 256 0) 0, .dataFlit 0 0 [] 0,
    .nak 64 (List.replicate 256 0) 0, .collTimeout 64 0, .pathTimeout 0 4 0, .slotRevive (2 ^ 18) 0 0, .reachTimeout (2 ^ 18) 0,
    .ackCoalesce (2 ^ 18) 0, .jobFatalStep (2 ^ 20) 0 0, .hostWriteError (.record 0 16) 0 0 0 0 0, .hostWriteError (.event 0) (2 ^ 20) 0 0 0 0, .patrolScrub 0 [(32, 1)] [] 0, .patrolScrub 0 [] [(4, 1)] 0, .serdesRefclkLoss 4 0,
    .baselineDone 0 [320]].all (fun c => !c.wf) = true
  ∧ [Instr.addS 319 0, .readTx 64 0, .linkDown 63 0, .collTimeout 63 0, .pathTimeout 0 3 0].all (·.wf) = true := by decide +kernel

/-- The same for management, MCTP, I3C, JTAG, bridge messages and sensors. -/
theorem test_wf_management : let r : Request := ⟨.west, .i3c, 0, 256, 0⟩
  [Instr.getIdentity r, .telemetryRead r [], .telemetryRead { r with tag := 0 } (List.replicate 16377 0), .leadReply { r with tag := 0 } 4 0,
    .leadReply { r with tag := 0 } 1 (2 ^ 32), .getEndpointId .west .mailbox 0, .setEndpointId .west .i3c 256 0, .enec .west 256,
    .entdaa .west 128, .setdasa .west 128 0, .setmrl .west 65536, .jtagPrivate 0x7F, .elect .west 0 [], .tempReading .west 16 0 0,
    .detectorReport .west 40 (.jobFatal 0) 0 0 0 0].all (fun c => !c.wf) = true
  ∧ [Instr.getIdentity { r with tag := 255 }, .jtagPrivate 0x80, .jtagPrivate 0xFE, .elect .west 0 (List.replicate 16 0),
    .entdaa .west 127].all (·.wf) = true := by decide +kernel

/-! ### Facets: results that the spec gives -/

/-- S[i] of facet 0 after a command. -/
def sAfter (i : Nat) (o : Host.Outcome State Fault Refusal) : Option Word64 :=
  match o with | .next t => (t.dev.run 0).map fun r => r.sreg i | _ => none

/-- The word of a scalar operation: S3 from S1, S2 and IMM. -/
def scalarWord (op imm : Nat) : Nat :=
  op * 2 ^ 56 + 3 * 2 ^ 51 + (if op = 0x1B then 0 else 2 ^ 46) + (if op = 0x11 ∨ op = 0x1B ∨ op = 0x1C then 0 else 2 * 2 ^ 41)
    + (if op = 0x11 ∨ op = 0x17 ∨ op = 0x18 ∨ op = 0x1B ∨ op = 0x1C then imm else 0)

/-- Facet 0 at a scalar operation with S1 and S2 set. -/
def scalarAt (op imm a b : Nat) : State := runs (sS 2 b (sS 1 a (runOf [scalarWord op imm])))

/-- R159 by hand: ADD wraps at 2^64, ADDI sign-extends IMM, SUB borrows, MUL keeps the low half. -/
theorem test_scalar_arithmetic :
    sAfter 3 (exec (.addS 0 0) (scalarAt 0x10 0 (2 ^ 64 - 1) 2)) = some 1
    ∧ sAfter 3 (exec (.addi 0 0) (scalarAt 0x11 0xFFFFFFFF 5 0)) = some 4
    ∧ sAfter 3 (exec (.subS 0 0) (scalarAt 0x12 0 1 2)) = some 0xFFFFFFFFFFFFFFFF
    ∧ sAfter 3 (exec (.mulS 0 0) (scalarAt 0x13 0 (2 ^ 63) 2)) = some 0 := by decide +kernel

/-- S0 reads 0 and ignores a write (R151). -/
theorem test_s0 : sAfter 0 (exec (.addS 0 0) (runs (sS 1 7 (runOf [0x10 * 2 ^ 56 + 2 ^ 46 + 2 ^ 41])))) = some 0 := by decide +kernel

/-- BC goes back two instructions when its condition holds, and on when it does not (R158). -/
theorem test_bc :
    (let w := 3 * 2 ^ 56 + 1 * 2 ^ 51 + 2 * 2 ^ 46 + 0xFFFFFE
     let pc (a : Nat) := match exec (.bc 0 0) (runs (sS 2 5 (sS 1 a (runOf [w])))) with | .next t => (t.dev.run 0).map (·.pc) | _ => none
     pc 5 = some (-2) ∧ pc 6 = some 1) := by decide +kernel

/-- VADD of 1.0 and 2.0 is 3.0 in every lane; RCP of 2.0 is 0.5 (R161, R163). -/
theorem test_vadd :
    (let r := ((runOf [0x40 * 2 ^ 56 + 3 * 2 ^ 51 + 2 ^ 46 + 2 * 2 ^ 41]).setVec 1 (List.replicate 128 0x3F800000)).setVec 2 (List.replicate 128 0x40000000)
     nextAnd (exec (.vadd 0 0) (runs r)) fun t => someAnd (t.dev.run 0) fun q => q.vec 3 == List.replicate 128 0x40400000) = true := by
  decide +kernel

/-! ### Facets: states that meet the hypotheses of the statements -/

/-- FacetArithmetic, scalar part: every scalar operation with its own word. -/
theorem wit_FacetArithmetic_scalar : ∀ q ∈ scalarOps 0 7,
    (scalarAt q.2.1 5 9 4).atInstr 0 q.2.1 (scalarWord q.2.1 5) (sS 2 4 (sS 1 9 (runOf [scalarWord q.2.1 5]))) := by
  intro q hq
  refine runs_at ?_
  have h : ((scalarOps 0 7).all fun q => stands (sS 2 4 (sS 1 9 (runOf [scalarWord q.2.1 5]))) q.2.1 (scalarWord q.2.1 5)) = true := by
    decide +kernel
  exact List.all_eq_true.mp h q hq

/-- The word of a lane operation: V3 from V1 and V2, and V4 where it reads three. -/
def laneWord (op : Nat) : Nat := op * 2 ^ 56 + 3 * 2 ^ 51 + 2 ^ 46 + 2 * 2 ^ 41 + (if op = 0x43 ∨ op = 0x47 then 4 * 2 ^ 36 else 0)

/-- FacetArithmetic, lane part. -/
theorem wit_FacetArithmetic_lanes : ∀ q ∈ laneOps 0 7,
    (atWord (laneWord q.2.1)).atInstr 0 q.2.1 (laneWord q.2.1) (runOf [laneWord q.2.1]) := by
  intro q hq
  refine runs_at ?_
  have h : ((laneOps 0 7).all fun q => stands (runOf [laneWord q.2.1]) q.2.1 (laneWord q.2.1)) = true := by decide +kernel
  exact List.all_eq_true.mp h q hq

/-- Words of the control flow: opcode and word. BC of each condition, at the least and the greatest OFFSET. -/
def controlWords : List (Nat × Nat) :=
  [(0, 0), (2, 2 * 2 ^ 56 + 0x7FFFFF), (2, 2 * 2 ^ 56 + 0x800000), (4, 4 * 2 ^ 56 + 2 ^ 51 + 0xFFFFFE), (5, 5 * 2 ^ 56 + 7), (6, 6 * 2 ^ 56), (7, 7 * 2 ^ 56 + 0xFFFFFF)]
    ++ (List.range 6).map fun c => (3, 3 * 2 ^ 56 + 2 ^ 51 + 2 * 2 ^ 46 + c * 2 ^ 43 + 0xFFFFFE)

/-- FacetControlFlow: NOP, BR, BC, LOOP, CALL with no return address, RET with one, TRAP; CALL with 8 and RET with none. -/
theorem wit_FacetControlFlow :
    (∀ q ∈ controlWords, (atWord q.2).atInstr 0 q.1 q.2 (runOf [q.2]) ∧ (runs { runOf [q.2] with calls := [3] }).atInstr 0 q.1 q.2 { runOf [q.2] with calls := [3] }
      ∧ (runs { runOf [q.2] with calls := List.replicate 8 1 }).atInstr 0 q.1 q.2 { runOf [q.2] with calls := List.replicate 8 1 })
    ∧ (runOf []).calls.length < 8 ∧ 8 ≤ (List.replicate 8 1).length := by
  have h : (controlWords.all fun q => stands (runOf [q.2]) q.1 q.2) = true := by decide +kernel
  exact ⟨fun q hq => have g := List.all_eq_true.mp h q hq; ⟨runs_at g, runs_at g, runs_at g⟩, by decide, by decide⟩

/-- The last clause of its second part: a word that is not well encoded, and a pc past the code. -/
theorem wit_FacetControlFlow_failures : (∀ v, (runOf [0xEE * 2 ^ 56]).word = some v → encodingOk v = false)
    ∧ (∀ v, (runOf []).word = some v → encodingOk v = false) ∧ (atWord (0xEE * 2 ^ 56)).dev.run 0 = some (runOf [0xEE * 2 ^ 56]) := by
  have h : (runOf [0xEE * 2 ^ 56]).word = some (0xEE * 2 ^ 56) := by decide +kernel
  have g : (runOf []).word = none := by decide +kernel
  exact ⟨fun v e => by rw [h] at e; cases e; decide +kernel, fun v e => by simp [g] at e, rfl⟩

/-- FacetReads: RDSPEC of each special value, of DEVICE_TIME and of a value that does not exist; STAGE_QUERY. -/
theorem wit_FacetReads_rdspec :
    (let w (q : Nat) := 0x1D * 2 ^ 56 + 3 * 2 ^ 51 + q
     [0, 1, 2, 3, 5, 6, 7, 8, 9, 10].all fun q => stands (runOf [w q]) 0x1D (w q) && bits (w q) 0 32 == q
       && ((specialValues ((atWord (w q)).devAt 7) (runOf [w q])).map (·.1)).contains q) = true
    ∧ (let w := 0x1D * 2 ^ 56 + 3 * 2 ^ 51 + 4
       stands (runOf [w]) 0x1D w && bits w 0 32 == 4 && !(runOf [w]).strict) = true
    ∧ (let w := 0x1D * 2 ^ 56 + 3 * 2 ^ 51 + 11
       stands (runOf [w]) 0x1D w && !((specialValues ((atWord w).devAt 7) (runOf [w])).map (·.1)).contains 11) = true
    ∧ stands (runOf [0x81 * 2 ^ 56 + 3 * 2 ^ 51]) 0x81 (0x81 * 2 ^ 56 + 3 * 2 ^ 51) = true := by decide +kernel

/-- LD64 and LD32 with a negative IMM, at the first byte of the job's buffer. -/
theorem wit_FacetReads_loads : ∀ q ∈ [(8, 0x1E), (4, 0x1F)],
    (let w := q.2 * 2 ^ 56 + 3 * 2 ^ 51 + 2 ^ 46 + 0xFFFFFFF8
     let r := sS 1 (base + 8) (runOf [w])
     let s := runsIn [⟨base, [1, 2, 3, 4, 5, 6, 7, 8]⟩] r
     let a := (r.sreg (bits w 46 5) + immWord w).toNat
     stands r q.2 w && isLocal a && a % q.1 == 0
       && someAnd ((s.devAt 7).node r.seq r.node) fun m => okAnd ((s.start.at_ 7).rdNode r.job m a q.1) fun bs => bs == ([1, 2, 3, 4, 5, 6, 7, 8] : List Byte).take q.1) = true := by
  decide +kernel

/-- LD64 reads little-endian bytes (R160). -/
theorem test_ld64 : (let w := 0x1E * 2 ^ 56 + 3 * 2 ^ 51 + 2 ^ 46 + 0xFFFFFFF8
    sAfter 3 (exec (.ld64 0 7) (runsIn [⟨base, [1, 2, 3, 4, 5, 6, 7, 8]⟩] (sS 1 (base + 8) (runOf [w]))))) = some 0x0807060504030201 := by
  decide +kernel

/-- FacetVectorMoves: a word of each, at the last chunk and the last lane. -/
theorem wit_FacetVectorMoves :
    ([(0x48, 3 * 2 ^ 51 + 2 ^ 10), (0x49, 2 ^ 46 + 3 * 2 ^ 10 + 127 * 8), (0x4A, 3 * 2 ^ 51 + 2 ^ 46), (0x4B, 3 * 2 ^ 51 + 2 ^ 46),
      (0x4E, 3 * 2 ^ 51 + 15 * 2 ^ 30 + 31 * 2 ^ 25), (0x4F, 2 ^ 46 + 15 * 2 ^ 30 + 31 * 2 ^ 25)].all fun q =>
        stands (runOf [q.1 * 2 ^ 56 + q.2]) q.1 (q.1 * 2 ^ 56 + q.2)) = true
    ∧ ((specialOps 0 7).all fun q => stands (runOf [q.2.1 * 2 ^ 56 + 3 * 2 ^ 51 + 2 ^ 46]) q.2.1 (q.2.1 * 2 ^ 56 + 3 * 2 ^ 51 + 2 ^ 46)) = true := by
  decide +kernel

/-- FacetAccumulators: ACC_ZERO; ACC_LOAD and ACC_ADD of a whole tile and of the last quarter; ACC_STORE into the second half of a slot. -/
theorem wit_FacetAccumulators_rows :
    stands (runOf [0x33 * 2 ^ 56 + 15 * 2 ^ 52]) 0x33 (0x33 * 2 ^ 56 + 15 * 2 ^ 52) = true
    ∧ ([(0x32, 0, 0), (0x32, 2, 3), (0x34, 0, 0), (0x34, 2, 3)].all fun q =>
        let w := q.1 * 2 ^ 56 + 2 * 2 ^ 52 + 7 * 2 ^ 46 + q.2.1 * 2 ^ 38 + q.2.2 * 2 ^ 36
        stands (tiled w) q.1 w && okAnd ((tiled w).tile ((tiled w).ptr (bits w 46 6))) fun t => t.hdr.sparsity == 0) = true
    ∧ (let w := 0x31 * 2 ^ 56 + 2 * 2 ^ 52 + 7 * 2 ^ 46 + 2 ^ 38 + 2 ^ 36
       let r := tiled w
       stands r 0x31 w && okAnd (r.tile (r.ptr (bits w 46 6))) fun t => t.hdr.sparsity == 0
         && okAnd (r.putTile (r.ptr (bits w 46 6))
             (storeAcc t.hdr ((((runs r).start.at_ 7)).conv r (bits w 32 2) (bits w 24 8)) (r.slot 2) 32 32)) fun _ => true) = true := by
  decide +kernel

/-- FacetAccumulators, MMA: two tile pairs that it accepts. -/
theorem wit_FacetAccumulators_mma :
    (let w := 0x30 * 2 ^ 56 + 2 * 2 ^ 52 + 7 * 2 ^ 46 + 8 * 2 ^ 40 + 2 ^ 34
     let r := tiled w
     stands r 0x30 w && okAnd (r.tiles (bits w 46 6) (2 ^ bits w 38 2)) fun as => okAnd (r.tiles (bits w 40 6) (2 ^ bits w 38 2)) fun bs =>
       (as.zip bs).all fun p => pairOk p.1.hdr p.2.hdr (bit w 35) (64 / 2 ^ bits w 38 2)) = true := by
  decide +kernel

/-- FacetTilesInTheStore: TPSET, TCOPY, TZERO and THDR. -/
theorem wit_FacetTilesInTheStore_moves :
    (let w := 0x20 * 2 ^ 56 + 7 * 2 ^ 50 + 2 ^ 39 + 0xFFFFFFFF
     stands (sS 1 0x20005 (runOf [w])) 0x20 w) = true
    ∧ (let w := 0x23 * 2 ^ 56 + 7 * 2 ^ 50 + 8 * 2 ^ 44
       let r := tiled w
       stands r 0x23 w && okAnd (r.tile (r.ptr (bits w 44 6))) fun t => okAnd (r.putTile (r.ptr (bits w 50 6)) t) fun _ => true) = true
    ∧ (let w := 0x25 * 2 ^ 56 + 7 * 2 ^ 50
       let r := tiled w
       stands r 0x25 w && okAnd (r.tile (r.ptr (bits w 50 6))) fun t => t.hdr.sparsity == 0
         && okAnd (r.putTile (r.ptr (bits w 50 6)) ({ t with body := List.replicate t.body.length 0 } : Tile).mapped) fun _ => true) = true
    ∧ (let w := 0x24 * 2 ^ 56 + 7 * 2 ^ 50 + 2 ^ 39 + 3 * 2 ^ 34
       let r := sS 3 0x3F000000 (sS 1 0x00050004005F0F00 (tiled w))
       stands r 0x24 w && okAnd (r.readSec (r.ptr (bits w 50 6)) 1) fun hb =>
         let a := (r.sreg (bits w 39 5)).toNat
         let w0 := setBits (a % 2 ^ 32) 22 1 0
         !sparsityFault (bits (ofBytes (hb.take 4)) 23 2) (bits w0 23 2)
         && okAnd (r.writeSec (r.ptr (bits w 50 6)) (toBytes 4 w0 ++ (hb.drop 4).take 4 ++ toBytes 4 (a / 2 ^ 32 % 2 ^ 32)
              ++ toBytes 4 ((r.sreg (bits w 34 5)).toNat % 2 ^ 32) ++ toBytes 8 0
              ++ toBytes 4 (setBits (ofBytes ((hb.drop 24).take 4)) 0 8 0) ++ (hb.drop 28).take 4)) fun _ => true) = true := by
  decide +kernel

/-- FacetTilesInTheStore: TCVT, VLD and VST. -/
theorem wit_FacetTilesInTheStore_converts :
    (let w := 0x29 * 2 ^ 56 + 7 * 2 ^ 50 + 8 * 2 ^ 44
     let r := tiled w
     stands r 0x29 w && okAnd (r.tile (r.ptr (bits w 50 6))) fun t => okAnd (r.tile (r.ptr (bits w 44 6))) fun src =>
       let v := src.view
       let h := { t.hdr with rows := src.hdr.rows, cols := src.hdr.cols }
       let w0 := (runs r).start.at_ 7
       let w' := (w0.sparse 0 r Reg.TGU_SPARSE_BAD_GROUP_LO v.bad).sparse 0 r Reg.TGU_SPARSE_DROP_INDEX_LO v.drop
       t.hdr.sparsity == 0 && !r.sfod
         && okAnd (r.putTile (r.ptr (bits w 50 6)) ({ hdr := h, body := packVals h (w'.conv r (bits w 32 2) (bits w 0 8)) v.val } : Tile).mapped)
              fun _ => true) = true
    ∧ (let w := 0x4C * 2 ^ 56 + 3 * 2 ^ 51 + 7 * 2 ^ 30 + 31 * 2 ^ 25
       stands (tiled w) 0x4C w && !(tiled w).sfod && okAnd ((tiled w).tile ((tiled w).ptr (bits w 30 6))) fun _ => true) = true
    ∧ (let w := 0x4D * 2 ^ 56 + 3 * 2 ^ 46 + 7 * 2 ^ 30 + 31 * 2 ^ 25
       let r := tiled w
       stands r 0x4D w && okAnd (r.tile (r.ptr (bits w 30 6))) fun t => t.hdr.sparsity == 0 && !t.hdr.byCol
         && okAnd (r.putTile (r.ptr (bits w 30 6))
             ({ t with body := storeChunk t (((runs r).start.at_ 7).conv r (bits w 23 2) (bits w 15 8)) (bits w 25 5) (r.vec (bits w 46 5)) } : Tile).unmapped)
              fun _ => true) = true := by
  decide +kernel

set_option maxRecDepth 20000 in
/-- FacetTilesAndMemory, TLOAD: a stored tile at the first byte of the buffer, loaded to the last place where it fits. -/
theorem wit_FacetTilesAndMemory_tload :
    (let w := 0x21 * 2 ^ 56 + 7 * 2 ^ 50 + 2 ^ 39 + 0xFFFFFFE0
     let r := sS 1 (base + 32) (sTp 7 (1024 - 37) (runOf [w]))
     let s := runsIn [⟨base, smallTile.stored.take 32⟩] r
     let v := s.start.at_ 7
     let a := (r.sreg (bits w 39 5) + immWord w).toNat
     stands r 0x21 w && okAnd (v.fread r a 32 32) fun hb => someAnd (storedSectors hb) fun n => okAnd (v.fread r a (32 + 32 * n) 32) fun bs =>
       okAnd (openTile false bs) fun t => okAnd (r.putTile (r.ptr (bits w 50 6)) t) fun _ => true) = true := by
  decide +kernel

/-- The working state that holds local writes of a facet. -/
def stagedBy (s : State) (r : FacetRun) (rs : List Run) : Wk :=
  (s.storing 0 7 (sumBy rs fun x => x.bytes.length)).upd fun d => d.onNode r.seq r.node fun n => { n with staged := n.staged ++ rs }

/-- The command waits for no frame, the frames are free, and the limits of shadow space hold. -/
def stagesOk (s : State) (r : FacetRun) (rs : List Run) : Bool :=
  let d := (s.storing 0 7 (sumBy rs fun x => x.bytes.length)).dev
  someAnd (d.node r.seq r.node) fun m =>
    m.held.isEmpty && d.runsFit m rs && decide (shadowBytes .west (m.ownRuns ++ rs) ≤ 2 ^ 30) && decide (shadowBytes .east (m.ownRuns ++ rs) ≤ 2 ^ 30)

/-- Such writes stage. -/
theorem stages_of_ok {s : State} {r : FacetRun} {rs : List Run} (h : stagesOk s r rs = true) : s.stages 0 7 r rs (stagedBy s r rs) := by
  unfold stagesOk at h
  unfold State.stages
  generalize (2 : Nat) ^ 30 = y at h ⊢
  obtain ⟨m, hm, hk⟩ := someAnd_spec h
  simp only [Bool.and_eq_true, decide_eq_true_eq, List.isEmpty_iff] at hk
  exact ⟨rfl, m, hm, hk.1.1.1, hk.1.1.2, hk.1.2, hk.2⟩

/-- FacetTilesAndMemory, TSTORE and TSTR into the first sectors of the buffer. -/
theorem wit_FacetTilesAndMemory_stores :
    (let w := 0x22 * 2 ^ 56 + 7 * 2 ^ 50 + 2 ^ 39
     let r := sS 1 base { tiled w with scratch := [(10, smallTile.hdr.bytes)] }
     stands r 0x22 w && okAnd (r.tile (r.ptr (bits w 50 6))) fun t =>
       isLocal (r.sreg (bits w 39 5) + immWord w).toNat && (r.sreg (bits w 39 5) + immWord w).toNat % 32 == 0
         && stagesOk (runs r) r [⟨base, t.facetStored⟩]) = true
    ∧ (let w := 0x28 * 2 ^ 56 + 7 * 2 ^ 50 + 2 ^ 39 + 2 * 2 ^ 34
       let r := sS 2 256 (sS 1 base (tiled w))
       stands r 0x28 w && okAnd (r.tile (r.ptr (bits w 50 6))) fun t =>
         let rs := rowsOut t (r.sreg (bits w 39 5)).toNat (r.sreg (bits w 34 5)).toNat
         t.hdr.sparsity == 0 && !isMx t.hdr.ty && (rs.all fun x => isLocal x.addr) && stagesOk (runs r) r rs) = true := by
  decide +kernel

/-- FacetTilesAndMemory, TLDR: 2 rows of 64 bytes, 256 bytes apart. -/
theorem wit_FacetTilesAndMemory_tldr :
    (let w := 0x27 * 2 ^ 56 + 7 * 2 ^ 50 + 2 ^ 39 + 2 * 2 ^ 34
     let r := sS 2 256 (sS 1 base { tiled w with scratch := [(10, (Hdr.fresh tyE4m3 2 64 0 0 scaleOne false).bytes)] })
     let v := (runs r).start.at_ 7
     stands r 0x27 w && okAnd (r.tile (r.ptr (bits w 50 6))) fun t =>
       let eb := elemBits t.hdr.ty / 8
       t.hdr.sparsity == 0 && !isMx t.hdr.ty
         && okAnd (v.rowsIn r eb (t.hdr.cols * eb) (r.sreg (bits w 39 5)).toNat (r.sreg (bits w 34 5)).toNat t.hdr.rows t.body) fun b =>
           okAnd (r.putTile (r.ptr (bits w 50 6)) ({ t with body := b } : Tile).unmapped) fun _ => true) = true := by
  decide +kernel

/-- FacetTilesAndMemory, TGATHER: row 0 of a grid of one tile, 64 times. -/
theorem wit_FacetTilesAndMemory_tgather :
    (let w := 0x26 * 2 ^ 56 + 7 * 2 ^ 50 + 2 ^ 39 + 3 * 2 ^ 34 + 2 ^ 6
     let r := sS 3 (base + 0x4000) (sS 2 (1 + 2 ^ 32 * 64) (sS 1 base (tiled w)))
     let s := runsIn [⟨base, tileHead⟩] r
     let v := s.start.at_ 7
     stands r 0x26 w && okAnd (r.tile (r.ptr (bits w 50 6))) fun t =>
       let g := (r.sreg (bits w 39 5 + 1)).toNat
       t.hdr.sparsity == 0 && !isMx t.hdr.ty && okAnd (v.fread r (r.sreg (bits w 34 5)).toNat (t.hdr.rows * 4) 1) fun ent =>
         okAnd (v.gatherRows r t.hdr.ty (r.sreg (bits w 39 5)).toNat (bits g 0 16) (bits g 16 16) (bits g 32 32) ((chunks 4 ent).map ofBytes)) fun q =>
           let b := packElems (elemBits t.hdr.ty) (q.1.flatten ++ List.replicate (4096 - q.1.flatten.length) 0)
           okAnd (r.putTile (r.ptr (bits w 50 6)) ({ hdr := { t.hdr with cols := 64 }, body := b } : Tile).mapped) fun _ => true) = true := by
  decide +kernel

/-- A run with a slot ring of two slots, the first of which holds a tile. -/
def ringed (r : FacetRun) : FacetRun :=
  { r with slotBase := 1024, slotSec := 257, slotTiles := 2, ring := [some smallTile.stored, none], delivered := 1 }

/-- A state with an arrival bitmap of job 1, of which pieces 2 and 3 are done. -/
def withB (s : State) : State :=
  s.withDev { s.dev with ce := { s.dev.ce with
    bitmaps := [{ id := 0, job := 1, tag := 0x77, inst := 0, half := .west, pieces := 8, done := [2, 3], verified := false }] } }

/-- FacetWaits: WAIT_PIECE on a slot with a tile, on one without, and on a piece of the bitmap; RELEASE_SLOT. -/
theorem wit_FacetWaits_pieces :
    ([0, 1].all fun k => let w := 0x60 * 2 ^ 56 + 2 * 2 ^ 41 + k
       stands (ringed (runOf [w])) 0x60 w && !bit w 40 && (nth (ringed (runOf [w])).ring ((ringed (runOf [w])).slotIdx w) none).isSome == (k == 0)) = true
    ∧ (let w := 0x60 * 2 ^ 56 + 2 ^ 46 + 2 * 2 ^ 41 + 2 ^ 40 + 1
       let r := sS 2 1 (sS 1 0x77 (runOf [w]))
       stands r 0x60 w && bit w 40 && someAnd ((withB (runs r)).dev.bitmap r.job (r.sreg (bits w 46 5)).toNat) fun b =>
         b.done.contains (r.sreg (bits w 41 5) + immWord w).toNat) = true
    ∧ stands (ringed (runOf [0x62 * 2 ^ 56])) 0x62 (0x62 * 2 ^ 56) = true := by decide +kernel

/-- FacetWaits, WAIT_ANY: a window of three with none, one, and (of two) all pieces returned. -/
theorem wit_FacetWaits_any : ([([], 3, some 2), ([2], 3, some 3), ([2, 3], 2, none)] : List (List Nat × Nat × Option Nat)).all (fun q =>
    let w := 0x61 * 2 ^ 56 + 2 ^ 40 + 3 * 2 ^ 51 + 2 ^ 46 + 2 * 2 ^ 41 + q.2.1
    let r := { sS 2 2 (sS 1 0x77 (runOf [w])) with window := some ⟨0x77, 2, q.2.1, q.1⟩ }
    stands r 0x61 w && someAnd ((withB (runs r)).dev.bitmap r.job (r.sreg (bits w 46 5)).toNat) fun b => someAnd r.window fun x =>
      x.handle == (r.sreg (bits w 46 5)).toNat && x.base == (r.sreg (bits w 41 5)).toNat && x.count == bits w 0 32
      && (((List.range x.count).map fun i => (x.base + i) % 2 ^ 64).filter fun p => ¬ x.returned.contains p).head? == q.2.2
      && q.2.2.all fun p => b.done.contains p) = true := by decide +kernel

/-- FacetWaits: WAIT_GROUP with no load outstanding, WAIT_COMPLETE for every waiting instruction, CODE_LOAD. -/
theorem wit_FacetWaits_rest :
    (let w := 0x63 * 2 ^ 56 + 15
     stands (runOf [w]) 0x63 w && nth (runOf [w]).groups (bits w 0 4) 0 == 0 && stands { runOf [w] with waiting := some 3 } 0x63 w) = true
    ∧ ([0x60, 0x61, 0x63, 0x70, 0x71].all fun op => let w := op * 2 ^ 56 + (if op = 0x61 then 2 ^ 40 + 1 else 0)
       stands { runOf [w] with waiting := some 3 } op w) = true
    ∧ (let r := { runOf [] with loaded := false, nb := nodeBytes (toBytes 8 base ++ toBytes 4 0x1FFF) }
       okAnd (((runs r).start.at_ 7).rdLocal r.job (fld r.nb 0x20 8) 8) (fun bs => bs.length == 8) && bits (fld r.nb 0x28 4) 0 13 + 1 == 8192) = true
    ∧ (let r := { runOf [] with loaded := false, nb := nodeBytes (toBytes 8 base ++ toBytes 4 3) }
       (runs r).dev.inst r.seq = some (((runs r).dev.inst r.seq).getD (instOf (nodeOf 0 .done)))
       ∧ okAnd (((runs r).start.at_ 7).rdLocal r.job (fld r.nb 0x20 8) (8 * (bits (fld r.nb 0x28 4) 0 13 + 1))) (fun bs => bs.length == 32) = true) := by
  decide +kernel

/-- A state whose routes reach device 9. -/
def routed (s : State) : State := { s with dev := s.dev.onFab fun f => { f with routes := [(9, 2 ^ 62)] } }

/-- A run at a remote instruction to device 9, region 3, at an offset. -/
def far (op off rest : Nat) : Nat × FacetRun :=
  let w := op * 2 ^ 56 + 2 ^ 46 + 2 * 2 ^ 41 + (if op = 0x74 then 0 else 5 * 2 ^ 35) + rest
  (w, { sTp 5 16 (sS 1 off (sS 2 (9 * 2 ^ 18 + 3) (sS 4 11 (runOf [w])))) with scratch := [(16, smallTile.hdr.bytes)] })

/-- What RemoteOk asks, as a test. -/
def farOk (q : Nat × FacetRun) (op align : Nat) : Bool :=
  let s := routed (runs q.2)
  stands q.2 op q.1 && someAnd (s.dev.job q.2.job) (fun j => j.remote) && q.2.xOff q.1 % align == 0 && decide (q.2.xOff q.1 < 2 ^ 40)
    && (s.devAt 7).reachable (q.2.xDev q.1) && q.2.xDev q.1 == 9 && q.2.xReg q.1 == 3

/-- FacetRemoteAccess: RLOAD of the last sectors of the scratch from the highest offset, RLOADT, RSTORE and RSTORET. -/
theorem wit_FacetRemoteAccess_transfers :
    (let q := far 0x70 (2 ^ 40 - 32) (15 * 2 ^ 31 + 7 * 2 ^ 16)
     farOk q 0x70 32 && q.2.inScratch (q.2.xSec q.1 + bits q.1 0 16) (bits q.1 16 3 + 1) && decide (q.2.outstanding < 512)) = true
    ∧ (let q := far 0x71 0x40 (3 * 2 ^ 31)
       farOk q 0x71 32 && decide (q.2.outstanding < 512)) = true
    ∧ (let q := far 0x72 0x40 (3 * 2 ^ 16 + 2)
       farOk q 0x72 32 && okAnd (q.2.readSec (q.2.xSec q.1 + bits q.1 0 16) (bits q.1 16 3 + 1)) fun b =>
         decide (q.2.logUsed + sumBy (chunks 256 b) (fun c => storeCost c.length) ≤ 65536)) = true
    ∧ (let q := far 0x73 0x40 0
       farOk q 0x73 32 && okAnd ((q.2.tile (q.2.xSec q.1)).map fun t => t.mapped.stored) fun b =>
         decide (q.2.logUsed + sumBy (chunks 256 b) (fun c => storeCost c.length) ≤ 65536)) = true := by decide +kernel

/-- FacetRemoteAccess: every RATOMIC operation, POST_NOTICE, and each remote instruction with remote access disabled. -/
theorem wit_FacetRemoteAccess_rest :
    ((List.range 8).all fun op => let q := far 0x74 0x40 (4 * 2 ^ 51 + op * 2 ^ 27)
       farOk q 0x74 (aopWidth op) && (bits q.1 27 4) == op && ((routed (runs q.2)).devAt 7).level (q.2.xDev q.1) != 3) = true
    ∧ (let w := 0x80 * 2 ^ 56 + 4 * 2 ^ 46
       stands (runOf [w]) 0x80 w && stands { runOf [w] with logUsed := 65504 } 0x80 w) = true
    ∧ ([0x70, 0x71, 0x72, 0x73, 0x74].all fun op => stands (runOf [op * 2 ^ 56]) op (op * 2 ^ 56)) = true
    ∧ (let s := (runs (runOf [])).withDev ((runs (runOf [])).dev.onHost fun h => { h with jobs := h.jobs.map fun p => (p.1, { p.2 with remote := false }) })
       someAnd (s.dev.job 1) (fun j => !j.remote)) = true := by decide +kernel

/-- A run at END of `n` instances, of which `k - 1` have ended. -/
def ending (n k : Nat) : State :=
  let s := runs { runOf [2 ^ 56] with count := n, logUsed := 32, logAll := 32 }
  s.withDev (s.dev.onNode 0 0 fun m => { m with count := n, nextIndex := k, ended := k - 1 })

/-- FacetInstanceEnds: an instance with further ones, the last one, and one past the watchdog. -/
theorem wit_FacetInstanceEnds : ([(3, 1, true), (1, 1, false), (3, 3, false)] : List (Nat × Nat × Bool)).all (fun q =>
    let r := { runOf [2 ^ 56] with count := q.1, logUsed := 32, logAll := 32 }
    stands r 1 (2 ^ 56) && r.slotTiles == 0 && (ending q.1 q.2.1).dev.run 0 == some r
      && someAnd ((ending q.1 q.2.1).dev.inst 0) fun x => someAnd ((ending q.1 q.2.1).dev.node 0 0) fun n =>
      let w := (((ending q.1 q.2.1).start.at_ 7).fcount 0 Reg.TGU_FACET_INSTANCES_LO 1).upd fun d =>
        (d.addActs 0 0 [.count .west Reg.TGU_FACET_LOG_BYTES_LO r.logUsed]).onNode 0 0 fun n =>
          { n with ended := n.ended + 1, logBy := n.logBy ++ [(0, r.logUsed, r.index)] }
      decide (n.nextIndex < r.count ∧ (w.dev.picOf 0).quar = false ∧ w.higherWants 0 x = false ∧ (w.dev.dropRun 0).withRoom [0] ≠ []) == q.2.2) = true
    ∧ (let s := (runs (runOf [])).withDev ((runs (runOf [])).dev.setReg .west Reg.TGU_FACET_WATCHDOG 2)
       s.dev.rn (facetHalf 0) Reg.TGU_FACET_WATCHDOG == 2 && someAnd (s.dev.run 0) fun r => r.loaded && !r.drain && decide (r.started + 2000 < max s.dev.time 2001)) = true := by
  decide +kernel

/-! ### Nodes -/

/-- A node whose operands are all ones. -/
def badNode (op : Nat) : State := nodeAt op (List.replicate 96 255)

/-- NodeFaultyOperandsFail: all nine opcodes. -/
theorem wit_NodeFaultyOperandsFail :
    Meets (badNode 0xF00) 0xF00 7 always (fun _ _ _ nb => !zeroFrom nb 0x20) ∧ Meets (badNode 0x601) 0x601 7 always (fun _ _ _ nb => !signalOk nb)
    ∧ Meets (badNode 0x602) 0x602 7 pollFree (fun _ _ _ nb => !waitOk nb) ∧ Meets (badNode 0x401) 0x401 7 always (fun _ _ _ nb => !bpmOperandsOk 0x401 nb)
    ∧ Meets (badNode 0x402) 0x402 7 always (fun _ _ _ nb => !bpmOperandsOk 0x402 nb) ∧ Meets (badNode 0x403) 0x403 7 always (fun _ _ _ nb => !bpmOperandsOk 0x403 nb)
    ∧ Meets (badNode 0x301) 0x301 7 always (fun _ _ _ nb => !copyTOk nb) ∧ Meets (badNode 0x302) 0x302 7 always (fun _ _ _ nb => !ingestOk nb)
    ∧ Meets (badNode 0x303) 0x303 7 always (fun _ _ _ nb => !windowOk nb) := by
  refine ⟨meets_of ?_, meets_of ?_, meets_of ?_, meets_of ?_, meets_of ?_, meets_of ?_, meets_of ?_, meets_of ?_, meets_of ?_⟩ <;> decide +kernel

/-- HostNodesComplete: NOP; HOST_SIGNAL as a write, an addition, an interrupt and a host write; SNAPSHOT. -/
theorem wit_HostNodesComplete_now :
    Meets (nodeAt 0xF00 []) 0xF00 7 always (fun _ _ _ nb => zeroFrom nb 0x20)
    ∧ (∀ q ∈ [(base, 0), (base, 1), (base, 0x85), (2 ^ 63 + 0x100, 0x84)],
        Meets (nodeAt 0x601 (toBytes 8 q.1 ++ toBytes 8 5 ++ toBytes 4 q.2)) 0x601 7 always fun _ _ _ nb => signalOk nb)
    ∧ Meets (nodeAt 0x700 (toBytes 8 base)) 0x700 7 always (fun _ _ _ nb => fld nb 0x20 8 % 16 == 0 && zeroFrom nb 0x28) := by
  refine ⟨meets_of (by decide +kernel), fun q hq => meets_of ?_, meets_of (by decide +kernel)⟩
  have h : ([(base, 0), (base, 1), (base, 0x85), (2 ^ 63 + 0x100, 0x84)].all fun q =>
    always ((nodeAt 0x601 (toBytes 8 q.1 ++ toBytes 8 5 ++ toBytes 4 q.2)).devAt 7) 0 0 && meets (nodeAt 0x601 (toBytes 8 q.1 ++ toBytes 8 5 ++ toBytes 4 q.2)) 0x601 7 always fun _ _ _ nb => signalOk nb) = true := by decide +kernel
  exact List.all_eq_true.mp h q hq

/-- A RUNNING HOST_WAIT whose next poll is due at 10. -/
def polling : Node := { nodeOf 0x602 .running with eng := .polling 10 base 0 0 1 0 }

/-- HostNodesComplete: HOST_WAIT of a word that is 0 already, and a poll of it. -/
theorem wit_HostNodesComplete_wait :
    Meets (nodeAt 0x602 (toBytes 8 base ++ toBytes 8 0 ++ toBytes 4 0x0100)) 0x602 7 pollFree (fun w x _ nb =>
      waitOk nb && okAnd (w.rdForm x.job x.fn (fld nb 0x20 8) 8) fun bs => condHolds (bits (fld nb 0x30 4) 0 3) (ofBytes bs) (fld nb 0x28 8))
    ∧ (let s := withNode polling (nodeBytes [])
       s.dev.inst 0 = some (instOf polling) ∧ s.dev.node 0 0 = some polling ∧ 10 ≤ max s.dev.time 10
       ∧ okAnd ((s.start.at_ 10).rdForm 1 0 base 8) (fun bs => condHolds 0 (ofBytes bs) 0) = true) := by
  refine ⟨meets_of ?_, ?_⟩ <;> decide +kernel

/-- Whether facets can take the node of a state. -/
abbrev free (s : State) : Dev → Nat → Nat → Bool := (s.start.at_ 7).facetsFree

/-- A KERNEL of two instances. -/
def kernel1 : State := nodeAt 0x100 (toBytes 8 base ++ toBytes 4 0 ++ toBytes 4 0x00100000 ++ toBytes 4 1)

/-- FacetNodesDispatch: a KERNEL, and a RUNNING one with instances left. -/
theorem wit_FacetNodesDispatch_kernel :
    Meets kernel1 0x100 7 (free kernel1) (fun w _ m nb =>
      !m.gradient && w.dev.kernelOk 0 0 m nb && !bit (kFlags nb) 1)
    ∧ (let n := { nodeOf 0x100 .running with count := 3, nextIndex := 1 }
       let s := withNode n (nodeBytes (toBytes 8 base ++ toBytes 4 0 ++ toBytes 4 0x00100000 ++ toBytes 4 2))
       let x := instOf n
       s.dev.inst 0 = some x ∧ s.dev.node 0 0 = some n ∧ (s.devAt 7).dispatching = true
       ∧ (s.start.at_ 7).outranked 0 0 x 0x100 (free s (s.devAt 7)) = false
       ∧ okAnd ((s.start.at_ 7).rdForm x.job x.fn (x.base + 128 * 0) 128) (fun _ => true) = true) := by
  refine ⟨meets_can (facetsFree_of ?_) ?_, ?_⟩ <;> decide +kernel

/-- A FETCH_EXPERTS of 8 experts on node 1. -/
def fetch1 : Fetch :=
  { seq := 0, node := 1, st := .running, isNull := false, job := 1, fn := 0, client := 0, base := base, areas := [], e := 8, slot := 0,
    prefetch := false, keep := false, mode := 0, first := 0, last := 7, tiles := 2, group := 0, entries := [], predicted := [], staged := [], demand := [5],
    passed := 0, freed := [], begun := [], streams := [], made := [], op := none, demands := [], served := false, exch := [] }

/-- A stream consumer beside the fetch that feeds it. -/
def consumer : State :=
  let s := withNodes [{ nodeOf 0x100 .ready with affinity := 2 ^ 60 + 5 }, { nodeOf 0x202 .running with succ := [0] }]
    (nodeBytes (toBytes 8 base ++ toBytes 4 0 ++ toBytes 4 0x00100202 ++ toBytes 4 0))
  { s with dev := { s.dev with efu := { s.dev.efu with fetches := [fetch1] } } }

/-- FacetNodesDispatch: a stream consumer. -/
theorem wit_FacetNodesDispatch_consumer : Meets consumer 0x100 7 (free consumer) (fun w _ m nb =>
    !m.gradient && w.dev.kernelOk 0 0 m nb && bit (kFlags nb) 1 && someAnd ((w.dev.latchSparse 0 0).feeder 0 0 m) fun _ =>
      ((w.dev.latchSparse 0 0).node 0 0).isSome) := meets_can (facetsFree_of (by decide +kernel)) (by decide +kernel)

/-- A dense MXFP4 tile of zeros. -/
def denseTile : Tile :=
  { hdr := { Hdr.fresh 0x14 64 64 0 0 scaleOne false with sectors := plainSectors 0x14 0 }, body := List.replicate (32 * plainSectors 0x14 0) 0 }

/-- A state with the header of the tile, whose body is zeros, at the start of the buffer. -/
def withTiles (s : State) : State := { s with mem := Memory.setRuns s.mem [⟨base, denseTile.stored.take 32⟩] }

/-- A state whose facets but the first are fused off. -/
def oneFacet (s : State) : State := s.withDev (s.dev.onTop fun t => { t with fusedOff := List.range' 1 319 })

/-- A MATMUL of one tile by itself. -/
def matmul1 : State :=
  oneFacet <| withTiles (nodeAt 0x101 (toBytes 8 base ++ toBytes 8 base ++ toBytes 8 (base + 0xA000) ++ toBytes 8 0 ++ toBytes 2 1 ++ toBytes 2 1
    ++ toBytes 2 1 ++ toBytes 2 0 ++ toBytes 4 (tyE4m3 * 2 ^ 16)))

set_option maxRecDepth 20000 in
/-- FacetNodesDispatch: a MATMUL. -/
theorem wit_FacetNodesDispatch_matmul : Meets matmul1 0x101 7 (free matmul1) (fun w x m nb =>
    !m.gradient && matmulOk (matmulBytes m nb) && !((w.upd (·.latchSparse 0 0)).matmulAll 0 0 x m (matmulBytes m nb)).2) := meets_can (facetsFree_of (by decide +kernel)) (by decide +kernel)

/-- A COPY of bytes. -/
def copyOf (src dst n : Nat) : State := nodeAt 0x300 (toBytes 8 src ++ toBytes 8 dst ++ toBytes 8 n ++ toBytes 8 0 ++ toBytes 4 0xFF000000)

/-- MoveNodesComplete: COPY of bytes within the device, from the host and to the host. -/
theorem wit_MoveNodesComplete_copy : ∀ q ∈ [(base, base + 0x8000, 64), (2 ^ 63 + 0x100, base, 32), (base, 2 ^ 63 + 0x40, 96)],
    Meets (copyOf q.1 q.2.1 q.2.2) 0x300 7 always fun w x _ nb => copyOk nb && !bit (cpWord nb) 0
      && (bits (cpWord nb) 6 3 == 0 || w.dev.compressible (fld nb 0x28 8))
      && okAnd (w.rdForm x.job x.fn (fld nb 0x20 8) (fld nb 0x30 8)) fun bs => bs.length == q.2.2 := by
  intro q hq
  have h : ([(base, base + 0x8000, 64), (2 ^ 63 + 0x100, base, 32), (base, 2 ^ 63 + 0x40, 96)].all fun q =>
    always ((copyOf q.1 q.2.1 q.2.2).devAt 7) 0 0 && meets (copyOf q.1 q.2.1 q.2.2) 0x300 7 always fun w x _ nb => copyOk nb && !bit (cpWord nb) 0
      && (bits (cpWord nb) 6 3 == 0 || w.dev.compressible (fld nb 0x28 8))
      && okAnd (w.rdForm x.job x.fn (fld nb 0x20 8) (fld nb 0x30 8)) fun bs => bs.length == q.2.2) = true := by decide +kernel
  exact meets_of (List.all_eq_true.mp h q hq)

set_option maxRecDepth 20000 in
/-- MoveNodesComplete: COPY of tiles, COPY_T of one tile, INGEST and WINDOW_GATHER. -/
theorem wit_MoveNodesComplete_tiles :
    Meets (nodeAt 0x300 (toBytes 8 base ++ toBytes 8 (base + 0x8000) ++ toBytes 8 1 ++ toBytes 8 0 ++ toBytes 4 0xFF000001)) 0x300 7 always
      (fun w _ _ nb => copyOk nb && bit (cpWord nb) 0 && (bits (cpWord nb) 6 3 == 0 || w.dev.compressible (fld nb 0x28 8)))
    ∧ Meets (withTiles (nodeAt 0x301 (toBytes 8 base ++ toBytes 8 (base + 0x8000) ++ toBytes 2 1 ++ toBytes 2 1 ++ toBytes 4 (tyBf16 * 2 ^ 24)))) 0x301 7 always
      (fun w x _ nb => copyTOk nb && addrForm (fld nb 0x28 8) == 0 && okAnd (w.tmTiles x.job x.fn false (fld nb 0x30 2 * fld nb 0x32 2) (fld nb 0x20 8)) fun ts =>
        ts.length == 1 && ts.zipIdx.all fun p => p.1.hdr.sparsity == 0 && p.1.hdr.trow == p.2 / fld nb 0x32 2 && p.1.hdr.tcol == p.2 % fld nb 0x32 2
          && (p.1.hdr.ty == tyInt32) == (bits (fld nb 0x34 4) 24 8 == tyInt32))
    ∧ Meets (nodeAt 0x302 (toBytes 8 base ++ toBytes 8 0 ++ toBytes 8 (base + 0x8000) ++ toBytes 2 2 ++ toBytes 2 2 ++ toBytes 4 6 ++ toBytes 4 0
      ++ toBytes 4 2)) 0x302 7 always (fun _ _ _ nb => ingestOk nb)
    ∧ Meets (nodeAt 0x303 (toBytes 8 base ++ toBytes 8 (base + 0x8000) ++ toBytes 2 2 ++ toBytes 2 2 ++ toBytes 2 3 ++ toBytes 2 0 ++ toBytes 4 0x10111))
      0x303 7 always (fun _ _ _ nb => windowOk nb) := by
  refine ⟨meets_of ?_, meets_of ?_, meets_of ?_, meets_of ?_⟩ <;> decide +kernel

/-- MoveNodesComplete, second part: a local run alone, and one beside a run to the host. -/
theorem wit_MoveNodesComplete_end :
    (let w := jobbed.start.at_ 7
     ([[⟨base, [1, 2]⟩], [⟨base, [1, 2]⟩, ⟨2 ^ 63 + 64, [3]⟩]] : List (List Run)).all fun rs =>
       (rs.all fun r => addrForm r.addr == 2 || isLocal r.addr) && w.dev.fnDelivers 0) = true
    ∧ ∀ r ∈ ([⟨base, [1, 2]⟩] : List Run), addrForm r.addr ≠ 2 := by decide +kernel

/-- An ALLOC of a size under flags, with a T1 pool of 16 pages and a T2 pool. -/
def allocOf (n c : Nat) : State :=
  let s := nodeAt 0x400 (toBytes 8 base ++ toBytes 8 n ++ toBytes 8 0 ++ toBytes 4 c)
  { s with dev := (((s.dev.setReg .west (Reg.BPM_POOL_CFG_LO + 8) 2).setReg .west (Reg.BPM_POOL_CFG_HI + 8) 16).setReg .west (Reg.BPM_POOL_CFG_LO + 64) 2).setReg .west (Reg.BPM_POOL_CFG_HI + 64) 16 }

/-- Where an ALLOC would be placed. -/
def placeOf (w : Wk) (x : Inst) (nb : List Byte) : Except Nat (Half × Nat × Nat) :=
  let c := fld nb 0x38 4
  if bit (bits c 0 16) 3 then w.dev.placePinned x.client (fld nb 0x30 8) else w.dev.place x.client (fld nb 0x28 8) (bits c 0 16) (bits c 16 2)

/-- BufferNodesComplete: an ALLOC that is placed, and ones refused with and without ON_REFUSE RECORD; FREE, RELEASE, SHARE. -/
theorem wit_BufferNodesComplete :
    Meets (allocOf 1000 0) 0x400 7 always (fun w x _ nb => w.dev.allocOperandsOk nb && okAnd (placeOf w x nb) fun _ => true)
    ∧ Meets (allocOf (2 ^ 39) (2 ^ 18 + 2 ^ 16)) 0x400 7 always (fun w x _ nb => w.dev.allocOperandsOk nb && bit (fld nb 0x38 4) 18 && !okAnd (placeOf w x nb) fun _ => true)
    ∧ Meets (allocOf (2 ^ 39) 0) 0x400 7 always (fun w x _ nb => w.dev.allocOperandsOk nb && !bit (fld nb 0x38 4) 18 && !okAnd (placeOf w x nb) fun _ => true)
    ∧ Meets (nodeAt 0x401 (toBytes 8 base)) 0x401 7 always (fun _ _ _ nb => bpmOperandsOk 0x401 nb)
    ∧ Meets (nodeAt 0x402 (toBytes 8 base)) 0x402 7 always (fun _ _ _ nb => bpmOperandsOk 0x402 nb)
    ∧ Meets (nodeAt 0x403 (toBytes 8 base)) 0x403 7 always (fun _ _ _ nb => bpmOperandsOk 0x403 nb) := by
  refine ⟨meets_of ?_, meets_of ?_, meets_of ?_, meets_of ?_, meets_of ?_, meets_of ?_⟩ <;> decide +kernel

/-- BufferNodesComplete: a T1 buffer being freed. -/
theorem wit_BufferNodesComplete_zeroed :
    (let s := { jobbed with dev := jobbed.dev.onHost fun h => { h with bufs := h.bufs.map fun (b : Buf) => { b with st := .freeing, holders := [] } } }
     let w := s.start.at_ 7
     someAnd (w.dev.host.bufs.find? fun (b : Buf) => decide (b.base = base ∧ b.st = BufSt.freeing ∧ b.pool < 8)) fun (b : Buf) => !w.dev.copyPending b.base b.size) = true := by
  decide +kernel

/-- A route body: 16 experts, K 3, `t` tokens. -/
def routeBytes (t : Nat) : List Byte :=
  toBytes 8 base ++ toBytes 8 (base + 0x8000) ++ toBytes 8 0 ++ toBytes 8 (base + 0x4000) ++ toBytes 4 16 ++ toBytes 4 0 ++ toBytes 4 0
    ++ toBytes 4 t ++ toBytes 4 3 ++ toBytes 4 0 ++ toBytes 8 0 ++ toBytes 4 64

/-- A route node, scored when its first argument says so. -/
def routeNode (scored : Bool) (t : Nat) : State :=
  if scored then nodeAt 0x201 (toBytes 8 0 ++ (routeBytes t).drop 8) else nodeAt 0x200 (routeBytes t)

/-- What the statement asks of a route node. -/
def routeFits (scored : Bool) (w : Wk) (x : Inst) (m : Node) (nb : List Byte) : Bool :=
  let t := m.shape.getD (rtTokens nb)
  let cut := w.dev.routeCut nb t
  routeOk scored nb t && decide (cut ≤ w.dev.ctxLimit .west x.client) && decide (t - cut ≤ w.dev.ctxLimit .east x.client)

/-- ExpertNodesDispatch: ROUTE and ROUTE_SCORED of no token and of two. -/
theorem wit_ExpertNodesDispatch_route : ∀ q ∈ [(false, 0), (false, 2), (true, 0), (true, 2)],
    Meets (routeNode q.1 q.2) (if q.1 then 0x201 else 0x200) 7 (fun d a b => { (routeNode q.1 q.2).start.at_ 7 with dev := d }.routeFree d a b)
      (routeFits q.1) := by
  intro q hq
  have h : ([(false, 0), (false, 2), (true, 0), (true, 2)].all fun q =>
    { (routeNode q.1 q.2).start.at_ 7 with dev := (routeNode q.1 q.2).devAt 7 }.routeFree ((routeNode q.1 q.2).devAt 7) 0 0
      && meets (routeNode q.1 q.2) (if q.1 then 0x201 else 0x200) 7 (fun d a b => { (routeNode q.1 q.2).start.at_ 7 with dev := d }.routeFree d a b)
        (routeFits q.1)) = true := by decide +kernel
  exact meets_of (List.all_eq_true.mp h q hq)

/-- A state with an area of job 1 at the first byte of the buffer, and group 2 of devices 0 and 9. -/
def withArea (s : State) : State :=
  { s with mem := Memory.setRuns s.mem [⟨base, toBytes 2 5 ++ toBytes 2 1 ++ toBytes 4 4 ++ List.replicate 24 0 ++ toBytes 4 1 ++ List.replicate 28 0⟩],
           dev := { s.dev with ce := { s.dev.ce with groups := [(2, { fid := 77, job := 1, epoch := 1, me := 0, tapMember := 0, tapOn := false,
                                                                        fan := 2, weight := 1, members := [0, 9], nextSeq := 4 })] } } }

/-- A FETCH_EXPERTS of a source mode and group. -/
def fetchNode (mode g : Nat) : State :=
  withArea (nodeAt 0x202 (toBytes 8 base ++ toBytes 8 base ++ List.replicate 24 0 ++ toBytes 4 (0x30000 + 16 * mode) ++ toBytes 2 0 ++ toBytes 2 3
    ++ toBytes 4 2 ++ toBytes 4 g))

/-- ExpertNodesDispatch: FETCH_EXPERTS LOCAL, and EXCHANGE with a group. -/
theorem wit_ExpertNodesDispatch_fetch : ∀ q ∈ [(0, 0), (2, 2)],
    Meets (fetchNode q.1 q.2) 0x202 7 (fun d a b => { (fetchNode q.1 q.2).start.at_ 7 with dev := d }.fetchFree d a b) fun w x _ nb =>
      fetchOk nb && (fetchOf 0 0 x nb).mode == q.1 && okAnd (w.demandOf (fetchOf 0 0 x nb)) (fun _ => true)
        && ((fetchOf 0 0 x nb).mode != 2 || someAnd (w.dev.group (fetchOf 0 0 x nb).group) fun g => g.job == x.job) := by
  intro q hq
  have h : ([(0, 0), (2, 2)].all fun q =>
    { (fetchNode q.1 q.2).start.at_ 7 with dev := (fetchNode q.1 q.2).devAt 7 }.fetchFree ((fetchNode q.1 q.2).devAt 7) 0 0
    && meets (fetchNode q.1 q.2) 0x202 7 (fun d a b => { (fetchNode q.1 q.2).start.at_ 7 with dev := d }.fetchFree d a b) fun w x _ nb =>
      fetchOk nb && (fetchOf 0 0 x nb).mode == q.1 && okAnd (w.demandOf (fetchOf 0 0 x nb)) (fun _ => true)
        && ((fetchOf 0 0 x nb).mode != 2 || someAnd (w.dev.group (fetchOf 0 0 x nb).group) fun g => g.job == x.job)) = true := by decide +kernel
  exact meets_of (List.all_eq_true.mp h q hq)

/-- A COMBINE of a mode with generation 5 live. -/
def combineNode (mode : Nat) : State :=
  let s := withArea (nodeAt 0x203 (toBytes 8 base ++ toBytes 8 (base + 0x400) ++ toBytes 8 0 ++ toBytes 8 (base + 0x8000) ++ toBytes 4 0
    ++ toBytes 4 (mode + 0x200) ++ toBytes 4 (if mode = 1 then 0 else 1)))
  { s with dev := { s.dev with prism := { s.dev.prism with
    batches := [{ seq := 9, node := 0, job := 1, client := 0, gen := 5, area := base, live := true, rows := [], ctxs := [] }] } } }

/-- ExpertNodesDispatch: a GRID COMBINE, one of a batch, and a COLLECTIVE barrier. -/
theorem wit_ExpertNodesDispatch_combine :
    (∀ m ∈ [1, 0], Meets (combineNode m) 0x203 7 (fun d a b => ((combineNode m).start.at_ 7).lensFree d a b) fun w x _ nb =>
      okAnd (w.rdLocal x.job (cbArea nb) 64) fun hdr => combineOk nb hdr x.job && cbGrid nb == (m == 1)
        && (cbGrid nb || (fld hdr 0 2 != 0 && (w.dev.liveBatch x.job (fld hdr 0 2)).isSome)))
    ∧ (let s := withArea (nodeAt 0x500 (List.replicate 28 0 ++ toBytes 4 (7 * 2 ^ 28 + 2 ^ 21 + 0x200)))
       Meets s 0x500 7 (fun d a b => { s.start.at_ 7 with dev := d }.collFree d a b) fun w x _ nb =>
         match w.collCheck 0 0 x nb with | .ok _ _ => true | _ => false) := by
  refine ⟨fun m hm => ?_, meets_of (by decide +kernel)⟩
  have h : ([1, 0].all fun m => ((combineNode m).start.at_ 7).lensFree ((combineNode m).devAt 7) 0 0
    && meets (combineNode m) 0x203 7 (fun d a b => ((combineNode m).start.at_ 7).lensFree d a b) fun w x _ nb =>
      okAnd (w.rdLocal x.job (cbArea nb) 64) fun hdr => combineOk nb hdr x.job && cbGrid nb == (m == 1)
        && (cbGrid nb || (fld hdr 0 2 != 0 && (w.dev.liveBatch x.job (fld hdr 0 2)).isSome))) = true := by decide +kernel
  exact meets_of (List.all_eq_true.mp h m hm)

/-- An ASYNC_COPY_REMOTE with device 9. -/
def asyncNode (put : Bool) (c : Nat) : State :=
  routed (nodeAt 0x501 (toBytes 8 base ++ toBytes 8 (2 ^ 62 + 3 * 2 ^ 40) ++ toBytes 8 64 ++ toBytes 8 c ++ toBytes 4 (9 + if put then 2 ^ 18 else 0)))

/-- FabricNodesDispatch: GET and PUT, each with and without a completion. -/
theorem wit_FabricNodesDispatch_async : ∀ q ∈ [(false, 0), (false, base + 0x100), (true, 0), (true, 2 ^ 62 + 3 * 2 ^ 40 + 8)],
    Meets (asyncNode q.1 q.2) 0x501 7 always fun w x _ nb =>
      let l := fld nb 0x20 8
      let n := fld nb 0x30 8
      let c := fld nb 0x38 8
      let put := bit (fld nb 0x40 4) 18
      w.dev.asyncOk nb && w.dev.checkRange x.job l n (!put) == 0 && (put || c == 0 || w.dev.checkRange x.job c 8 true == 0)
        && (!put || !w.dev.poisoned l n) && w.dev.reachable (bits (fld nb 0x40 4) 0 18) && put == q.1 := by
  intro q hq
  have h : ([(false, 0), (false, base + 0x100), (true, 0), (true, 2 ^ 62 + 3 * 2 ^ 40 + 8)].all fun q =>
    always ((asyncNode q.1 q.2).devAt 7) 0 0 && meets (asyncNode q.1 q.2) 0x501 7 always fun w x _ nb =>
      let l := fld nb 0x20 8
      let n := fld nb 0x30 8
      let c := fld nb 0x38 8
      let put := bit (fld nb 0x40 4) 18
      w.dev.asyncOk nb && w.dev.checkRange x.job l n (!put) == 0 && (put || c == 0 || w.dev.checkRange x.job c 8 true == 0)
        && (!put || !w.dev.poisoned l n) && w.dev.reachable (bits (fld nb 0x40 4) 0 18) && put == q.1) = true := by decide +kernel
  exact meets_of (List.all_eq_true.mp h q hq)

/-- What the statement asks of an INVALIDATE or OWN_TRANSFER. -/
def invalidates (own : Bool) (w : Wk) (x : Inst) (_ : Node) (nb : List Byte) : Bool :=
  let home := fld nb 0x20 4
  decide (home < 2 ^ 18) && decide (fld nb 0x24 4 < 2 ^ 18)
    && (if own then decide (fld nb 0x28 4 < 2 ^ 18) && zeroFrom nb 0x2C else zeroFrom nb 0x28)
    && (if home = w.dev.me then (w.dev.regionOf x.job (fld nb 0x24 4)).isSome else w.dev.level home != 3)

/-- A FENCE of a scope beside one unacknowledged write of job 1 toward device 9 and one toward the device itself. -/
def fenceNode (c : Nat) : State :=
  let s := nodeAt 0x600 (toBytes 4 c)
  let held : HeldReq := { seq := 3, txn := Txn.mk0 opWrite 1 9 3 0 (regionWord 3 0) 1 4 [1, 2, 3, 4], slot := some 0, at_ := 0, for_ := .node 1 7 0 .west }
  { s with dev := s.dev.onFab fun f => { f with
      routes := [(9, 2 ^ 62)], ports := [(0, upPort)],
      dests := [(9, { Dest.cold with nextSeq := 4, held := [held] }), (0, { Dest.cold with nextSeq := 1, held := [{ held with seq := 0 }] })] } }

/-- FabricNodesDispatch: INVALIDATE and OWN_TRANSFER of a region homed here and at device 9; FENCE of all and of one. -/
theorem wit_FabricNodesDispatch_rest :
    Meets (routed (nodeAt 0x503 (toBytes 4 0 ++ toBytes 4 3))) 0x503 7 always (invalidates false)
    ∧ Meets (routed (nodeAt 0x503 (toBytes 4 9 ++ toBytes 4 3))) 0x503 7 always (invalidates false)
    ∧ Meets (routed (nodeAt 0x502 (toBytes 4 0 ++ toBytes 4 3 ++ toBytes 4 12))) 0x502 7 always (invalidates true)
    ∧ Meets (routed (nodeAt 0x502 (toBytes 4 9 ++ toBytes 4 3 ++ toBytes 4 12))) 0x502 7 always (invalidates true)
    ∧ (let fenced (w : Wk) (_ : Inst) (_ : Node) (nb : List Byte) : Bool :=
         bits (fld nb 0x20 4) 18 13 == 0 && zeroFrom nb 0x24 && (!bit (fld nb 0x20 4) 31 || w.dev.reachable (fld nb 0x20 4 % 2 ^ 18))
           && w.dev.fab.dests.all fun e => w.dev.reachable e.1
       Meets (fenceNode 0) 0x600 7 always fenced ∧ Meets (fenceNode (2 ^ 31 + 9)) 0x600 7 always fenced) := by
  refine ⟨meets_of ?_, meets_of ?_, meets_of ?_, meets_of ?_, meets_of ?_, meets_of ?_⟩ <;> decide +kernel

/-! ### Commit, scheduler and admission -/

/-- A node that is ready to commit one write. -/
def committer (st : NodeSt) (acked : Bool) : Node :=
  { nodeOf 0x601 st with acked := acked, readyOrd := some 0, staged := [⟨base, [1, 2, 3, 4]⟩], eng := .complete }

/-- Such a node in NORMAL, or with the west half alone. -/
def commits (single : Bool) (st : NodeSt) (acked : Bool) : State :=
  let s := withNode (committer st acked) (nodeBytes [])
  if single then { s with dev := { s.dev with top := alone.dev.top } } else s

/-- CommitTakesItsSlot: a RUNNING node in NORMAL; an acknowledged one; a RUNNING one in DEGRADED. -/
theorem wit_CommitTakesItsSlot :
    (let d := (commits false .running false).devAt 7
     d.leadOf.isSome && d.node 0 0 == some (committer .running false) && (d.inst 0).isSome && !d.top.stopped && !d.top.degraded
       && d.nextToCommit .running 0) = true
    ∧ (([(false, NodeSt.committing, true), (true, NodeSt.running, false)] : List (Bool × NodeSt × Bool)).all fun q =>
        let s := commits q.1 q.2.1 q.2.2
        let d := s.devAt 7
        d.leadOf.isSome && !d.top.stopped && d.top.degraded == q.1 && d.nextToCommit q.2.1 0 && !(d.mir.asked.isSome && d.mirLive && d.mir.cut.isNone)
          && someAnd (d.node 0 0) fun n => someAnd (d.inst 0) fun x =>
            let m := d.stampStatus n
            let w : Wk := m.writes.foldl (fun (w : Wk) (r : Nat × Nat) => w.mirHold r.1 r.2) (s.start.at_ 7)
            w.noticesFit m && (m.writes.all fun r => w.dev.frozen r.1 r.2 == []) && (w.dev.writesRefused x.job m).isNone && (w.dev.bpmRefused x.job m).isNone) = true := by
  decide +kernel

/-- A node that stalls on shadow space which is full. -/
def deadlocked : State :=
  let s := withNode { nodeOf 0x300 .running with stalled := true, staged := [⟨base, [1]⟩], held := [⟨base + 0x10000, [2]⟩] } (nodeBytes [])
  s.withDev (s.dev.onTgu fun t => { t with outFrames := [⟨.west, base, 2 ^ 31⟩] })

/-- A READY KERNEL whose grace timer ran out at 7. -/
def graced : State :=
  let s := nodeAt 0x100 []
  s.withDev ((s.dev.onTgu fun t => { t with graces := [⟨0, 0, 7, none⟩] }).setReg .west Reg.TGU_PREEMPT_CFG (2 ^ 31))

/-- An instance whose deadline is 6. -/
def late : State :=
  let s := nodeAt 0x100 []
  s.withDev (s.dev.onTgu fun t => { t with insts := t.insts.map fun p => (p.1, { p.2 with deadline := some 6 }) })

/-- A mode change asked for with nothing in flight. -/
def asksStrict : State := { jobbed with dev := jobbed.dev.onTop fun t => { t with strictReq := true } }

/-- SchedulerEvents. -/
theorem wit_SchedulerEvents :
    (let d := deadlocked.devAt 7
     (∃ f ∈ deadlocked.dev.tgu.outFrames, f.page = base) ∧ d.frameHolders .west ≠ [] ∧ (∀ u ∈ d.frameHolders .west, u.2.2.2.2 = true)
       ∧ (pickVictim (d.frameHolders .west)).isSome = true)
    ∧ (let d := ((graced.start.at_ 7).graceScan).dev
       someAnd (d.tgu.graces.find? fun (g : Grace) => g.inst = 0 ∧ g.node = 0) (fun g => g.dropped.isNone && decide (g.due ≤ d.time))
         && someAnd (d.inst 0) (fun x => !d.ringFull x) && someAnd (d.node 0 0) (fun n => n.st == .ready) && bit (d.rn .west Reg.TGU_PREEMPT_CFG) 31) = true
    ∧ 0 ∈ (late.devAt 7).overdue (late.devAt 7).time
    ∧ (asksStrict.dev.top.strictReq ≠ asksStrict.dev.top.strict ∧ asksStrict.dev.tgu.insts = [])
    ∧ ((late.devAt 7).job 1).isSome = true ∧ isJobFatal stKernel = true := by
  decide +kernel

/-- A state with a tick source, a last tick, and a period. -/
def ticking (src period : Nat) (last : Option Nat) : State :=
  let d := (jobbed.dev.onTgu fun t => { t with lastTick := last }).setReg .west Reg.TGU_TICK_CFG (BitVec.ofNat 32 (src * 2 ^ 30 + 1))
  { jobbed with dev := d.setReg .west Reg.TGU_TICK_PERIOD (BitVec.ofNat 32 period) }

/-- TicksAndAdmission: an edge at exactly MIN_US after the last tick and one before that; an internal tick. -/
theorem wit_TicksAndAdmission_ticks :
    (let s := ticking 1 0 (some 10)
     let cfg (d : Dev) := d.rn d.leadHalf Reg.TGU_TICK_CFG
     bits (cfg (s.devAt 1010)) 30 2 = 1 ∧ s.dev.top.resetN = true ∧ s.dev.tgu.lastTick = some 10
       ∧ 10 + 1000 * bits (cfg (s.devAt 1010)) 0 16 ≤ (s.devAt 1010).time ∧ (s.devAt 1009).time < 10 + 1000 * bits (cfg (s.devAt 1009)) 0 16)
    ∧ (let s := ticking 2 1 (some 10)
       let d := s.devAt 3000
       bits (d.rn d.leadHalf Reg.TGU_TICK_CFG) 30 2 = 2 ∧ d.time % (1000 * d.rn d.leadHalf Reg.TGU_TICK_PERIOD) = 0 ∧ s.dev.tgu.lastTick ≠ some d.time) := by
  decide +kernel

/-- A descriptor of a graph of one node in host memory, under flags. -/
def descriptor (f : Nat) : List Byte :=
  toBytes 8 (2 ^ 63 + 0x2000) ++ toBytes 4 1 ++ toBytes 4 1 ++ List.replicate 24 0 ++ toBytes 4 f ++ toBytes 4 f ++ toBytes 4 f ++ List.replicate 12 0

/-- Ring 0 of the PF with one such descriptor. -/
def offered (f : Nat) : State :=
  let d := (jobbed.dev.setReg .west 0x20000 0x4000).setReg .west 0x2001C 1
  let d := d.setRing 0 0 { d.ring 0 0 with st := .enabled, sqTail := 1 }
  { jobbed with host := Memory.setRuns jobbed.host [⟨0x4000, descriptor f⟩], dev := d.setFunc 0 { d.func 0 with pagesOn := true } }

/-- TicksAndAdmission: a descriptor without and with FRAME. -/
theorem wit_TicksAndAdmission_descriptor : ([0, 1].all fun f =>
    let v := ((offered f).start.at_ 7).armWaiting
    let x := v.dev.ring 0 0
    let g := v.rdH (v.dev.gsdAddr 0 0 x.sqHead) 64
    x.st == .enabled && x.exposed != [] && v.dev.dispatching && (v.dev.func 0).pagesOn && !v.dev.modeChanging && !x.skip.contains x.sqHead
      && v.dev.fnDelivers 0 && gsdOk g (v.dev.ringJob 0 0) && v.dev.setupOk (fld g 0x18 8) && v.dev.hasSpace (fld g 8 4)
      && bit (fld g 0x28 4) 0 == (f == 1)) = true := by decide +kernel

/-! ### Prism, EFU and Lens -/

/-- A route node of two tokens. -/
def route2 : Route :=
  { seq := 0, node := 0, job := 1, client := 0, scored := false, nb := nodeBytes (routeBytes 2), t := 2, cut := 1, gen := some 3,
    admitted := ⟨0, 0⟩, aside := ⟨false, false⟩, stallAt := ⟨none, none⟩, stall := ⟨0, 0⟩, ord := 0 }

/-- A RUNNING route node in the Prisms. -/
def routing (r : Route) : State :=
  let s := withNode (nodeOf 0x200 .running) (nodeBytes (routeBytes 2))
  s.withDev { s.dev with prism := { s.dev.prism with routes := [r] } }

/-- PrismEfuLensEvents: a group that can be admitted, one that cannot, one stalled for 4,096 clk, and one past its time. -/
theorem wit_PrismEfuLensEvents_route :
    (let d := (routing route2).devAt 7
     d.route_ 0 0 == some route2 && route2.open_ .west && d.prismTurn .west route2 && d.canAdmit .west route2) = true
    ∧ (let d := ((routing route2).withDev ((routing route2).dev.setReg .west Reg.PRISM_CTX_CLIENT_LIMIT 0)).devAt 7
       d.route_ 0 0 == some route2 && d.prismTurn .west route2 && !d.canAdmit .west route2 && (route2.stallAt.get .west).isNone) = true
    ∧ (let r := { route2 with stallAt := ⟨some 0, none⟩ }
       let d := ((routing r).withDev ((routing r).dev.setReg .west Reg.PRISM_ADMIT_TIMEOUT 2)).devAt 3000
       d.route_ 0 0 == some r && r.stallAt.get .west == some 0 && decide (4096 ≤ (d.time - 0) * d.halfMhz .west / 1000)
         && decide (1000 * d.rn .west Reg.PRISM_ADMIT_TIMEOUT < r.stalled .west d.time) && d.rn .west Reg.PRISM_ADMIT_TIMEOUT != 0) = true := by
  decide +kernel

/-- A state with a fetch on node 0. -/
def fetching (f : Fetch) (st : NodeSt) : State :=
  let s := withNode (nodeOf 0x202 st) (nodeBytes [])
  s.withDev { s.dev with efu := { s.dev.efu with fetches := [{ f with node := 0 }] } }

/-- A stream of expert 5 whose one tile has been decoded already. -/
def stream5 : Stream :=
  { expert := 5, entry := { loc := 0, secs := 0, ty := 0x14, tiles := 1, dense := 70, sparsity := 0, mats := 1, dev := 0, crc := 0 }, users := [],
    half := .west, source := 2, tile := 0, off := 0, todo := [], mats := 0, data := [], dense := [smallTile.stored], rereads := 0, again := false, ended := false }

/-- PrismEfuLensEvents: the next expert of a fetch, a tile of a stream, a fetch in the prefetch state, and a notice. -/
theorem wit_PrismEfuLensEvents_fetch :
    (let d := (fetching fetch1 .running).devAt 7
     someAnd (d.fetch 0 0) (fun f => f.st == .running && d.fetchNext f == some 5) && someAnd (d.node 0 0) fun n => n.st == .running) = true
    ∧ (let s := fetching { fetch1 with streams := [stream5] } .running
       someAnd ((s.devAt 7).fetch 0 0) fun f => someAnd (f.streams.zipIdx.find? fun (p : Stream × Nat) => p.1.expert = 5 ∧ ¬ p.1.ended) fun p =>
         p.1.users.isEmpty && match (s.start.at_ 7).nextTile f p.1 with | .tile _ _ _ _ => true | _ => false) = true
    ∧ someAnd (((fetching { fetch1 with st := .prefetch, predicted := [5] } .waiting).devAt 7).fetch 0 0) (fun f => f.st == .prefetch) = true
    ∧ (jobbed.start.at_ 7).noticeRoom { job := 1, gen := 5, expert := 0, first := 0, count := 1, rowBase := 0, buffer := 0 } = true := by
  decide +kernel

/-! ### Fabric -/

/-- The oldest transaction of a kind on port 0 is the one given. -/
def arr (s : State) (kind : Txn → Bool) (t : Txn) : Bool := decide ((s.devAt 7).arrivedTxn 0 kind = some t)

/-- Its SEQ has not been applied. -/
def fresh (s : State) (t : Txn) : Bool := ((s.taking 7 0 t).dev.winFor t.src t.seq).marks.all fun m => decide (m.1 ≠ t.seq)

/-- A translation of its address that succeeds. -/
def goesTo (s : State) (t : Txn) (off n : Nat) (need : Need) (wr : Bool) (k : Dev → Nat → Bool) : Bool :=
  okAnd ((s.taking 7 0 t).dev.translate t t.region off n need wr) fun a => k (s.taking 7 0 t).dev a

/-- The same for a request that carries no SEQ of its own. -/
def readsAt (s : State) (t : Txn) (need : Need) (wr : Bool) : Bool :=
  let d := ((s.taking 7 0 t).upd (·.winSeen t.src)).dev
  okAnd (d.translate t t.region t.off t.readBytes need wr) fun a => t.readBytes == 0 || (d.poisonIn a t.readBytes).isNone

/-- RequestsAreServed: READ of the first sectors and of the greatest LEN, BULK GET, WRITE, BULK PUT and MASKED. -/
theorem wit_RequestsAreServed_data :
    (([reqOf opRead 2 64 [], reqOf opRead 0x70 64 []] : List Txn).all fun t => let s := arrived [t]
       arr s (·.op == opRead) t && readsAt s t t.readNeed (t.readNeed.w || t.readNeed.a)) = true
    ∧ (let t := reqOf opBulk 130 64 []
       let s := arrived [t]
       arr s (·.op == opBulk) t && bit t.len 7 && readsAt s t { r := true } false) = true
    ∧ (let t := reqOf opWrite 2 (65536 - 64) (List.replicate 64 7)
       let s := arrived [t]
       arr s (·.op == opWrite) t && !(s.devAt 7).mustWait t && fresh s t && goesTo s t t.off t.data.length { w := true } true fun _ _ => true) = true
    ∧ ([false, true].all fun m =>
       let t := { reqOf opBulk 1 64 (if m then [3] ++ List.replicate 15 0 ++ List.replicate 64 7 else List.replicate 256 7) with masked := m }
       let s := arrived [t]
       arr s (·.op == opBulk) t && !bit t.len 7 && !(s.devAt 7).mustWait t && fresh s t
         && goesTo s t t.off (if t.masked then 4096 else t.data.length) { w := true } true fun _ _ => true) = true := by decide +kernel

/-- RequestsAreServed: every AOP that is not an ordered addition, and a delivered INVALIDATE. -/
theorem wit_RequestsAreServed_atomic :
    ([0, 1, 2, 3, 4, 5, 6, 7].all fun op => let t := reqOf opAtomic op 64 (toBytes 8 5 ++ toBytes 8 9)
       let s := arrived [t]
       arr s (·.op == opAtomic) t && !(s.devAt 7).mustWait t && fresh s t && t.off % aopWidth (t.len % 16) == 0 && !t.ordered
         && goesTo s t t.off (aopWidth (t.len % 16)) { a := true } true fun _ _ => true) = true
    ∧ (let t := reqOf opInv 2 64 []
       let s := arrived [t]
       arr s (fun t => t.op == opInv && bit t.len 1) t && fresh s t && goesTo s t t.off 8 { inv := true } true fun _ _ => true) = true := by
  decide +kernel

/-- A state that has applied SEQ 5 of device 9 with a refusal. -/
def applied (s : State) : State :=
  s.withDev (s.dev.onFab fun f => { f with wins := [(9, { lowest := 5, newest := 5, marks := [(5, 0x20)], refused := [], runs := [], fences := [], lastAt := 0 })] })

/-- A request to which the second statement applies: refused from device 8, and repeated from device 9. -/
def refusedAndRepeated (kind : Txn → Bool) (t : Txn) (n : Nat) (need : Need) : Bool :=
  let u := { t with src := 8 }
  let s := arrived [u]
  arr s kind u && !(s.devAt 7).mustWait u && fresh s u
    && (match (s.taking 7 0 u).dev.translate u u.region u.off n need true with | .error st => st != stOk | .ok _ => false)
    && arr (applied (arrived [t])) kind t && !((applied (arrived [t])).devAt 7).mustWait t
    && ((((applied (arrived [t])).taking 7 0 t).dev.winFor t.src t.seq).marks.find? (fun m => m.1 = t.seq)).isSome

/-- RequestsRefusedOrRepeated: WRITE, ATOMIC and a delivered INVALIDATE. -/
theorem wit_RequestsRefusedOrRepeated :
    (refusedAndRepeated (fun t => t.op == opWrite) (reqOf opWrite 2 64 (List.replicate 64 7)) 64 { w := true }
      && refusedAndRepeated (fun t => t.op == opAtomic) (reqOf opAtomic 0 64 (toBytes 8 5 ++ toBytes 8 9)) (aopWidth 0) { a := true }
      && refusedAndRepeated (fun t => t.op == opInv && bit t.len 1) (reqOf opInv 2 64 []) 8 { inv := true }) = true := by decide +kernel

/-- InvalidateAndFenceAreHeld: an INVALIDATE with and without TRANSFER, and a FENCE. -/
theorem wit_InvalidateAndFenceAreHeld :
    ([0, 1].all fun fl => let t := reqOf opInv fl 77 []
       let s := arrived [t]
       arr s (fun t => t.op == opInv && !bit t.len 1) t && fresh s t
         && (s.taking 7 0 t).dev.fab.homes.isEmpty
         && okAnd ((s.taking 7 0 t).dev.translate t t.region 0 1 { w := true } true) fun _ =>
           someAnd ((s.taking 7 0 t).dev.regionOf t.job t.region) fun e => !bit t.len 0 || t.src == e.owner) = true
    ∧ arr (arrived [reqOf opFence 5 64 []]) (·.op == opFence) (reqOf opFence 5 64 []) = true := by decide +kernel

/-- A state whose record of device 9 is as given. -/
def toward (z : Dest) (s : State) : State := s.withDev (s.dev.onFab fun f => { f with dests := [(9, z)] })

/-- An answer of device 9. -/
def answerOf (op st seq a b len : Nat) (data : List Byte) : Txn := Txn.mk0 op 1 0 seq 9 (st * 2 ^ 56 + a * 2 ^ 14 + b) 1 len data

/-- A write of a command that device 9 has not acknowledged. -/
def heldWrite : HeldReq :=
  { seq := 5, txn := { reqOf opWrite 2 64 (List.replicate 64 7) with dest := 9, src := 0 }, slot := some 0, at_ := 0, for_ := .node 1 7 0 .west }

/-- A read of device 9 that is out, and a FENCE. -/
def outRead : OutRead := { tag := 2, txn := reqOf opRead 2 64 [], slot := some 0, at_ := 0, for_ := .restore 0 }

/-- A FENCE to device 9 that is out. -/
def outFence : OutFence := { seq := 0, node := 0, job := 1, mark := 4, ahead := 0, slot := some 0, at_ := 0 }

/-- AnswersReachTheirRequests: ACK with OK and with a refusal, READ_RESP with either, FENCE_ACK, and REACH_TIMEOUT. -/
theorem wit_AnswersReachTheirRequests :
    ([stOk, stDenied].all fun st => let t := answerOf opAck st 5 5 5 0 []
       let s := toward { Dest.cold with held := [heldWrite] } (arrived [t])
       let x := (s.taking 7 0 t).dev.dest t.src
       arr s (·.op == opAck) t && x.held == [heldWrite] && heldWrite.slot.isSome && bits t.word 14 14 == heldWrite.seq
         && bits t.word 0 14 == heldWrite.seq && bits t.word 56 8 == st && st != stParity) = true
    ∧ ([stOk, stDenied].all fun st => let t := answerOf opReadResp st 2 0 0 2 (List.replicate 64 9)
       let s := toward { Dest.cold with reads := [outRead] } (arrived [t])
       arr s (fun t => t.op == opReadResp && !(s.devAt 7).respWaits t) t && ((s.taking 7 0 t).dev.dest t.src).reads.any fun r => r.tag == t.seq) = true
    ∧ (let t := answerOf opFenceAck stOk 4 0 0 0 []
       let s := toward { Dest.cold with fences := [outFence] } (arrived [t])
       let x := (s.taking 7 0 t).dev.dest t.src
       arr s (·.op == opFenceAck) t && x.fences == [outFence] && outFence.mark == t.seq && x.held == [] && outFence.ahead == 0 && outFence.job == t.job) = true
    ∧ ((toward { Dest.cold with held := [heldWrite], reads := [outRead], fences := [outFence] } (linked { upPort with st := .down })).devAt (10 ^ 10)).unreachable 9
       = true
    ∧ ((jobbed.devAt 7).unreachable 9 = false ∧ (jobbed.devAt 7).reachable 9 = false) := by decide +kernel

/-- A flit of a header and a payload, with its CRC. -/
def flitOf (hdr : Nat) (pl : List Byte) : List Byte :=
  let b := toBytes 2 hdr ++ (pl ++ List.replicate 250 0).take 250
  b ++ toBytes 4 (crc32c b)

/-- What Accepts asks, as a test on port 0 and number 0. -/
def takes (d : Dev) (ctrl : Option Nat) (flit : List Byte) : Bool :=
  let hdr := ofBytes (flit.take 2)
  d.portExists 0 && decide ((d.fport 0).st ∈ [PortSt.training, .securing, .up]) && flit.length == 256
    && ofBytes (flit.drop 252) == crc32c (flit.take 252) && (if bit hdr 15 then some (bits hdr 8 7) else none) == ctrl && (d.fport 0).rxNum == 0 && (d.fport 0).redo == 0

/-- The test says so. -/
theorem accepts_of {d : Dev} {ctrl : Option Nat} {flit : List Byte} (h : takes d ctrl flit = true) : d.accepts 0 0 ctrl flit := by
  simp only [takes, Bool.and_eq_true, decide_eq_true_eq, beq_iff_eq] at h
  exact ⟨h.1.1.1.1.1.1, h.1.1.1.1.1.2, h.1.1.1.1.2, h.1.1.1.2, h.1.1.2, h.1.2.symm, .inl h.2⟩

/-- FlitsAreAccepted: DATA_FLIT unkeyed and keyed, MAC, CREDIT, INIT, and TIME with an echo and from a follower. -/
theorem wit_FlitsAreAccepted :
    (let s := linked upPort
     takes (s.devAt 7) none (flitOf 0 (List.replicate 40 1)) && !((s.devAt 7).acceptedPort 0 (flitOf 0 (List.replicate 40 1))).keyed) = true
    ∧ (let s := linked { upPort with keyed := true, rxGroups := 4, heldGroup := [(16383, List.replicate 252 0)] }
       let f := flitOf 0x8300 (toBytes 8 4)
       let x := (s.devAt 7).acceptedPort 0 f
       takes (s.devAt 7) none (flitOf 0 []) && takes (s.devAt 7) (some 3) f && x.keyed && x.heldGroup != [] && ofBytes ((flitPayload f).take 8) == x.rxGroups) = true
    ∧ takes ((linked upPort).devAt 7) (some 5) (flitOf 0x8500 (toBytes 2 9 ++ toBytes 2 3)) = true
    ∧ (let s := linked { upPort with st := .training, credits := [] }
       let s := s.withDev (s.dev.setReg .west Reg.FAB_PORT_CFG (2 ^ 31))
       let f := flitOf 0x8200 (toBytes 2 256 ++ toBytes 4 77 ++ toBytes 1 5 ++ toBytes 1 2 ++ toBytes 1 0 ++ List.replicate 30 3)
       let d := s.devAt 7
       takes d (some 2) f && (d.acceptedPort 0 f).st == .training && ofBytes ((flitPayload f).take 2) == d.rn (portHalf 0) Reg.FAB_REVISION
         && ofBytes (((flitPayload f).drop 8).take 1) % 2 == 0 && !bit (d.portCfg 0) 29) = true
    ∧ (let d := (linked upPort).devAt 7
       takes d (some 4) (flitOf 0x8400 (toBytes 8 1000 ++ toBytes 8 10 ++ toBytes 8 900)) && d.timeCfg == (false, 0)) = true
    ∧ (let s := linked upPort
       let d := (s.withDev (s.dev.setReg .west Reg.FAB_TIME_CFG (2 ^ 31))).devAt 7
       takes d (some 4) (flitOf 0x8400 (toBytes 8 1000)) && d.timeCfg.1 && (d.acceptedPort 0 (flitOf 0x8400 (toBytes 8 1000))).st == .up) = true := by
  decide +kernel

/-- DamagedFlitsAreAskedForAgain: a wrong CRC, another number, a NAK, and a tag that does not verify. -/
theorem wit_DamagedFlitsAreAskedForAgain :
    (let d := (linked upPort).devAt 7
     let f := (flitOf 0 []).set 5 9
     d.portExists 0 && (d.fport 0).st == .up && f.length == 256 && !(d.fport 0).discarding && ofBytes (f.drop 252) != crc32c (f.take 252)
       && ofBytes ((flitOf 0 []).drop 252) == crc32c ((flitOf 0 []).take 252) && !bit (ofBytes ((flitOf 0 []).take 2)) 15 && (d.fport 0).rxNum != 5) = true
    ∧ (let f := flitOf 0x8100 (toBytes 2 7)
       let d := (linked { upPort with txNum := 9, replay := [{ num := 6, bytes := [], ends := [] }, { num := 7, bytes := [1], ends := [] }] }).devAt 7
       let y := (d.fport 0).takeHdr (ofBytes (f.take 2))
       ofBytes (f.take 2) / 2 ^ 8 == 0x81 && ofBytes ((f.drop 2).take 2) == 7 && (y.nakNum != 7 || decide (y.nakCount < 15))
         && !(y.replay.dropWhile fun f => decide (f.num ≠ 7)).isEmpty) = true
    ∧ (let f := flitOf 0x8100 (toBytes 2 7)
       let d := (linked { upPort with txNum := 9, nakNum := 7, nakCount := 15, replay := [{ num := 7, bytes := [1], ends := [] }] }).devAt 7
       let y := (d.fport 0).takeHdr (ofBytes (f.take 2))
       ofBytes (f.take 2) / 2 ^ 8 == 0x81 && y.nakNum == 7 && y.nakCount == 15 && y.replay.any fun f => f.num == 7) = true
    ∧ (let d := (linked { upPort with keyed := true, rxGroups := 4, heldGroup := [(16383, List.replicate 252 0)] }).devAt 7
       takes d (some 3) (flitOf 0x8300 (toBytes 8 4)) && (d.fport 0).keyed && (d.fport 0).heldGroup == [(16383, List.replicate 252 0)]) = true := by
  decide +kernel

/-- PortsTrainAndFall: each state that a clause asks for. -/
theorem wit_PortsTrainAndFall :
    ([PortSt.down, .retraining, .training, .up].all fun st =>
       let d := (linked { upPort with st := st, again := st == .retraining }).devAt 7
       d.portExists 0 && (d.fport 0).st == st) = true
    ∧ ([1, 2].all fun n => let x := ((linked { upPort with st := .training, again := true, retrains := n }).devAt 7).fport 0
       x.st == .training && x.again && x.retrains == n) = true
    ∧ (let d := (linked { upPort with stream := List.replicate 4 0 }).devAt 7
       (d.fport 0).stream == List.replicate 4 0 && d.timeCfg == (false, 0) && (d.fport 0).st == .up) = true := by decide +kernel

/-! ### Collectives -/

/-- Group 2 of devices 0 and 9, in which operation 4 is under way. -/
def group2 : Group64 :=
  { fid := 77, job := 1, epoch := 1, me := 0, tapMember := 0, tapOn := false, fan := 2, weight := 1, members := [0, 9], nextSeq := 5 }

/-- The same in which the device is member 1. -/
def group2b : Group64 := { group2 with me := 1, members := [9, 0] }

/-- An ALL_REDUCE of one tile by the tree. -/
def op4 : CeOp :=
  { id := 0, group := 2, inst := 0, node := 0, exch := false, seq := 4, half := .west,
    nb := nodeBytes (toBytes 8 base ++ toBytes 8 (base + 0x8000) ++ toBytes 8 0 ++ toBytes 4 1 ++ toBytes 4 (2 ^ 23 + 2 ^ 21 + 0x200)),
    strict := false, size := 0, list := some [0], experts := 0, absent := 0, presence := [], raised := false, union := [], touched := 0, ready := [],
    done := [], bad := [], first := [], inbox := [], early := [], sent := [], asked := [], round := 1, votes := [], voted := false, heard := 0,
    orders := [], told := [], tapped := 0, tapFull := false, faults := [], left := false, verified := false }

/-- A state in which an operation of a group is under way and a transaction has arrived. -/
def colls (g : Group64) (o : CeOp) (t : Txn) : State :=
  let s := withNode (nodeOf 0x500 .running) o.nb
  s.withDev ({ s.dev with ce := { s.dev.ce with groups := [(2, g)], ops := [o] } }.onFab fun f => { f with routes := [(9, 2 ^ 62)], ports := [(0, { upPort with arrived := [t] })] })

/-- The MSG that carries one frame. -/
def msgOf (f : CeFrame) : Txn := { reqOf opMsg 1 0 (f.bytes 64) with word := regionWord 77 0, len := (f.bytes 64).length / 64 }

/-- A frame of operation 4 from member 1. -/
def frameOf (kind : Nat) (body : List Byte) : CeFrame := { epoch := 1, seq := 4, kind := kind, parts := 1, part := 0, src := 1, index := 0, body := body }

/-- What FrameComes asks, as a test. -/
def comes (s : State) (t : Txn) (f : CeFrame) (g : Group64) (o : CeOp) : Bool :=
  arr s (·.startsWith f.kind) t && fresh s t && (s.devAt 7).groupOf t == some (2, g) && (s.devAt 7).group 2 == some g && g.members.contains t.src
    && readFrames 256 t.data == some [f] && f.epoch == g.epoch && (s.devAt 7).opOf 2 == some o && (s.devAt 7).op o.id == some o && o.group == 2
    && f.seq == o.seq && exchKind f.kind == o.exch

/-- The test says so. -/
theorem frameComes_of {s : State} {t : Txn} {f : CeFrame} {g : Group64} {o : CeOp} (h : comes s t f g o = true) :
    s.FrameComes 7 0 f.kind t f 2 g o := by
  simp only [comes, arr, fresh, Bool.and_eq_true, decide_eq_true_eq, beq_iff_eq, List.all_eq_true] at h
  obtain ⟨⟨⟨⟨⟨⟨⟨⟨⟨⟨⟨h1, h2⟩, h3⟩, h4⟩, h5⟩, h6⟩, h7⟩, h8⟩, h9⟩, h10⟩, h11⟩, h12⟩ := h
  exact ⟨h1, h2, h3, h4, h5, h6, rfl, h7, h8, h9, h10, h11, h12⟩

/-- The frame of a clause comes, with what else the clause asks. -/
def comesAnd (g : Group64) (o : CeOp) (f : CeFrame) (k : State → Txn → Bool) : Bool :=
  let t := msgOf f
  comes (colls g o t) t f g o && k (colls g o t) t

/-- An ALL_GATHER, which reduces nothing. -/
def gather4 : CeOp :=
  { op4 with nb := nodeBytes (toBytes 8 base ++ toBytes 8 (base + 0x8000) ++ toBytes 8 0 ++ toBytes 4 1 ++ toBytes 4 (2 ^ 29 + 2 ^ 23 + 2 ^ 21 + 0x200)) }

/-- The stored bytes of an FP32 tile of zeros but for the last 64, with the CRC of all of them. -/
def zeroHead : List Byte :=
  (Hdr.fresh tyFp32 64 64 0 0 scaleOne false).head ++ toBytes 4 2855898390 ++ List.replicate 16320 0

/-- The operation when the first part of that tile has come from member 1. -/
def half4 : CeOp := { op4 with first := [{ frameOf 0x11 zeroHead with parts := 2 }] }

set_option maxRecDepth 20000 in
/-- CollectiveFramesApply: READY, the first part of a PARTIAL, and a FINAL. -/
theorem wit_CollectiveFramesApply_tiles :
    comesAnd group2 op4 (frameOf 0x10 ((op4.nb.drop 0x3C).take 12 ++ toBytes 4 op4.c)) (fun _ t => match readFrames 256 t.data with
      | some [f] => f.body.take 12 == (op4.nb.drop 0x3C).take 12 && fld f.body 12 4 == op4.c | _ => false) = true
    ∧ comesAnd group2 op4 { frameOf 0x11 [1, 2, 3] with parts := 2 } (fun _ _ => (op4.whole { frameOf 0x11 [1, 2, 3] with parts := 2 }).isNone) = true
    ∧ (let f := { frameOf 0x12 smallTile.stored with src := 0 }
       comesAnd group2b gather4 f fun s t => gather4.whole f == some f.body && !gather4.used group2b f && gather4.list.isSome
         && okAnd (openTile false f.body) (fun tile => gather4.formOk f tile)
         && someAnd ((s.hearing 7 0 t gather4).dev.inst gather4.inst) fun x =>
           let p := { gather4 with size := smallTile.stored.length }
           (s.hearing 7 0 t gather4).dev.checkRange x.job (p.dstAt (p.dstTile group2b 0)) p.size true == 0
             && !(s.hearing 7 0 t gather4).dev.mirFull (p.dstAt (p.dstTile group2b 0)) p.size) = true := by decide +kernel

set_option maxRecDepth 100000 in
/-- CollectiveFramesApply: the second part of a PARTIAL, which completes its tile. -/
theorem wit_CollectiveFramesApply_partial :
    (let f := { frameOf 0x11 (List.replicate 64 0) with parts := 2, part := 1 }
     comesAnd group2 half4 f fun _ _ => !half4.used group2 f && someAnd (half4.whole f) fun bs =>
       okAnd (openTile false bs) fun tile => half4.formOk { f with parts := 1, part := 0, body := bs } tile) = true := by decide +kernel

/-- CollectiveFramesApply: RESEND, PRESENCE, UNION, VOTE, VERDICT and WITHDRAW. -/
theorem wit_CollectiveFramesApply_rest :
    ([(0x13, 0), (0x18, 1), (0x19, 1), (0x20, 16), (0x21, 16), (0x22, 0)].all fun q =>
      comesAnd group2 op4 (frameOf q.1 (List.replicate q.2 0)) fun _ _ => true) = true
    ∧ comesAnd group2b op4 { frameOf 0x22 [] with src := 0 } (fun _ _ => true) = true
    ∧ ([0x10, 0x11, 0x12, 0x13, 0x18, 0x19, 0x20].all fun kind =>
      comesAnd group2 { op4 with left := true } (frameOf kind []) fun _ _ => true) = true := by decide +kernel

/-- The fetch whose exchange is under way, in which one tile of expert 5 is wanted. -/
def fetchX (want : Nat) : Fetch :=
  { fetch1 with node := 0, mode := 2, group := 2, op := some 0, exch := [{ expert := 5, owner := 1, want := want, parts := [], tiles := [], parked := [], repairs := 0 }] }

/-- The exchange's operation. -/
def opX : CeOp := { op4 with exch := true }

/-- A state with both and a frame that has arrived. -/
def exchanging (q : Fetch) (t : Txn) : State :=
  let s := colls group2 opX t
  s.withDev { s.dev with efu := { s.dev.efu with fetches := [q] } }

/-- The body of a DEMAND or REPAIR. -/
def exchBody (kind e : Nat) (map : List Byte) : List Byte := toBytes 4 4 ++ toBytes 4 1 ++ toBytes 2 0 ++ toBytes 2 7 ++ toBytes 2 e ++ toBytes 1 0 ++ toBytes 1 kind ++ map

/-- What the statement asks of DEMAND and REPAIR. -/
def exchAgrees (q : Fetch) (f : CeFrame) : Bool :=
  let t := msgOf f
  let s := exchanging q t
  comes s t f group2 opX && (s.devAt 7).fetch opX.inst opX.node == some q && fld f.body 0 4 == opX.seq && fld f.body 4 4 == group2.epoch
    && fld f.body 8 2 == q.first && fld f.body 0xA 2 == q.last && fld f.body 0xE 1 == q.slot && q.demands.all fun x => x.1 != f.src

set_option maxRecDepth 20000 in
/-- ExchangeFramesApply: DEMAND, REPAIR, and an EXPERT_TILE that is the last one wanted and one that is not. -/
theorem wit_ExchangeFramesApply :
    (exchAgrees (fetchX 1) (frameOf 1 (exchBody 1 0 [1])) && exchAgrees (fetchX 1) (frameOf 2 (exchBody 2 3 []))) = true
    ∧ ([1, 2].all fun n => let f := frameOf 3 (toBytes 4 5 ++ smallTile.stored)
       let s := exchanging (fetchX n) (msgOf f)
       comes s (msgOf f) f group2 opX && (s.devAt 7).fetch 0 0 == some (fetchX n) && someAnd ((fetchX n).exch.find? fun x => x.expert = fld f.body 0 2) fun x =>
         decide (f.index < x.want) && (x.tiles ++ x.parked).isEmpty && okAnd (openTile true (f.body.drop 4)) fun _ => true) = true := by decide +kernel

/-- A state of group 2 without an operation, whose next one is 4. -/
def quiet (t : Txn) : State :=
  let s := colls group2 op4 t
  s.withDev { s.dev with ce := { s.dev.ce with ops := [], groups := [(2, { group2 with nextSeq := 4 })] } }

/-- What the statement asks first of a MSG that starts with a kind. -/
def msgComes (kind : Nat) (t : Txn) : Bool :=
  let s := quiet t
  arr s (·.startsWith kind) t && fresh s t && (s.devAt 7).groupOf t == some (2, { group2 with nextSeq := 4 })
    && (s.devAt 7).group 2 == some { group2 with nextSeq := 4 } && group2.members.contains t.src

/-- FramesOfOtherOperations: a frame to keep, an old one, a damaged one and a newer one, of every kind. -/
theorem wit_FramesOfOtherOperations :
    ([0x01, 0x02, 0x03, 0x10, 0x11, 0x12, 0x13, 0x18, 0x19, 0x20, 0x21, 0x22].all fun kind =>
      let f := frameOf kind [1, 2, 3]
      let t := msgOf f
      msgComes kind t && readFrames 256 t.data == some [f] && ((quiet t).devAt 7).opOf 2 == none && decide ((f.seq + 2 ^ 32 - 4) % 2 ^ 32 < 2 ^ 31)
        && msgComes kind (msgOf { f with epoch := 0 }) && readFrames 256 (msgOf { f with epoch := 0 }).data == some [{ f with epoch := 0 }]
        && msgComes kind { t with data := t.data.set 1 9 } && readFrames 256 (t.data.set 1 9) == none
        && msgComes kind (msgOf { f with epoch := 2 }) && readFrames 256 (msgOf { f with epoch := 2 }).data == some [{ f with epoch := 2 }]) = true := by
  decide +kernel

/-- FabricAndCollectiveTimers, first part: runs to acknowledge, a waiting request, a dead slot and a silent source. -/
theorem wit_FabricAndCollectiveTimers_fabric :
    (let x : Win := { lowest := 5, newest := 6, marks := [(5, 0), (6, 0)], refused := [], runs := [⟨5, 2, 3, 1⟩], fences := [], lastAt := 0 }
     let s := toward { Dest.cold with held := [heldWrite], dead := [(1, 7)] } (linked upPort)
     let d := (s.withDev (s.dev.onFab fun f => { f with wins := [(9, x)] })).devAt (10 ^ 8)
     d.win 9 == some x && x.runs.any (fun r => decide (r.at_ + 1000 ≤ d.time))
       && (d.dest 9).held.any (fun h => h.slot == some 0 && decide (h.at_ + d.pathNs ≤ d.time))
       && decide (x.lastAt + max 10000000 (d.reachNs + d.pathNs + 1000000) ≤ d.time)
       && someAnd ((d.dest 9).dead.find? fun e => e.1 = 1) fun e => let p := d.fport (d.slotPort 9 1)
         p.st == .up && decide (max p.upAt e.2 + 1000000 ≤ d.time)) = true := by decide +kernel

/-- FabricAndCollectiveTimers, second part: an operation that has heard nothing, and a frame to send again. -/
theorem wit_FabricAndCollectiveTimers_collectives :
    (let d := (colls group2 op4 (reqOf opRead 1 0 [])).devAt (10 ^ 10)
     d.group 2 == some group2 && d.opOf 2 == some op4 && !op4.verified && !op4.exch && decide (op4.heard + 1000000 * d.rn d.leadHalf Reg.CE_TIMEOUT ≤ d.time)) = true
    ∧ (let r : CeRetry := { group := 2, op := 0, dest := 9, data := (frameOf 0x13 []).bytes 64, tc := 1, due := 7 }
       let s := colls group2 op4 (reqOf opRead 1 0 [])
       let d := (s.withDev (s.dev.onCe fun c => { c with retries := [r] })).devAt 7
       d.ce.retries == [r] && d.op r.op == some op4 && fld r.data 0 4 == group2.epoch && d.reachable r.dest && decide (r.due ≤ d.time)) = true := by
  decide +kernel

/-! ### The two halves, errors, reset and boot -/

/-- A state with a half's view of the lead changed. -/
def viewed (s : State) (h : Half) (f : LeadView → LeadView) : State := s.withDev (s.dev.onLead h f)

/-- LeaseKeepsTheLead, first part: a LEASE of this TERM and of another, a damaged one, a renewal, a lapse and a resend. -/
theorem wit_LeaseKeepsTheLead_messages :
    parseBridge (bridgeMsg 1 6 7) = some (1, 6, 7) ∧ parseBridge ((bridgeMsg 1 6 7).set 0 9) = none ∧ parseBridge (bridgeMsg 2 6 7) = some (2, 6, 7)
    ∧ (let d := (viewed ready .west fun v => { v with leaseAt := some 2900000 }).devAt 3000000
       let v := d.top.lead.get
       (v .west).st = .normal ∧ (v .west).lead = .west ∧ (v .east).st = .normal ∧ (v .east).lead ≠ .east ∧ (v .west).term = 1 ∧ (v .east).term = 1
         ∧ d.leadOf = some .west ∧ (∀ t, (v .west).leaseAt = some t → t + 100000 ≤ d.time) ∧ (v .west).lastValid + 2000000 ≤ d.time)
    ∧ (let v := ((viewed ready .west fun v => { v with st := .confirming, reqAt := some 2, reqKind := 1 }).devAt 30000000).top.lead.get .west
       v.reqAt = some 2 ∧ v.st = .confirming ∧ v.reqKind ≠ 0 ∧ v.bmc = 0) := by
  refine ⟨by decide +kernel, by decide +kernel, by decide +kernel, ⟨by decide +kernel, by decide +kernel, by decide +kernel, by decide +kernel,
    by decide +kernel, by decide +kernel, by decide +kernel, ?_, by decide +kernel⟩, by decide +kernel⟩
  intro t h
  have g : (((viewed ready .west fun v => { v with leaseAt := some 2900000 }).devAt 3000000).top.lead.get .west).leaseAt = some 2900000 := by decide +kernel
  have k : ((viewed ready .west fun v => { v with leaseAt := some 2900000 }).devAt 3000000).time = 3000000 := by decide +kernel
  rw [g] at h
  cases h
  rw [k]

/-- LeaseKeepsTheLead, second part: a half that has waited 100 ms, beside one in DEGRADED and beside one that is not. -/
theorem wit_LeaseKeepsTheLead_halt : ∀ st ∈ [LeadSt.normal, .degraded],
    (let d := (viewed (viewed ready .west fun v => { v with st := .confirming, lapseAt := some 5 }) .east fun v => { v with st := st }).devAt 100000005
     (d.top.lead.get .west).lapseAt = some 5 ∧ (d.top.lead.get .west).st = .confirming ∧ 5 + 100000000 ≤ d.time ∧ (d.top.lead.get .east).st = st) := by
  decide +kernel

/-- ShadowBatchesAreAcknowledged: commits sent and seen, and lead-only writes sent and waiting. -/
theorem wit_ShadowBatchesAreAcknowledged :
    (let s := withNode { nodeOf 0x400 .committing with acked := false } []
     let lw (v : Nat) (sent : Bool) : LWrite := { fn := 0, half := .west, off := Reg.TGU_FACET_WATCHDOG, value := v, sent := sent }
     let d := (s.withDev (s.dev.onTgu fun t => { t with batchOut := [(0, 0)], batchSeen := [(0, 0)], lwrites := [lw 7 true, lw 9 false] })).devAt 7
     d.leadOf = some .west ∧ (d.top.lead.get .west).st = .normal ∧ (d.top.lead.get .east).st = .normal
       ∧ (d.tgu.lwrites.filter (·.sent)).length = 1) := by decide +kernel

/-- The BMC reaches the west SC over I3C, with session 1 of a role. -/
def managed (role : Role) (s : State) : State :=
  s.withDev (s.dev.onTop fun t => { t with
    i3c := t.i3c.set .west { t.i3c.w with addr := some 9, eid := some 8 }, sessions := [{ id := 1, half := .west, use := .mgmt, role := role, updates := 0 }] })

/-- A request of that session. -/
def asks : Request := { half := .west, path := .i3c, session := 1, tag := 3, now := 7 }

/-- What Served asks over I3C, as a test. -/
def isServed (s : State) (r : Request) (code : Nat) (least : Role) (p : List Byte) : Bool :=
  r.path == .i3c && (s.devAt r.now).scServes r.half && (s.devAt r.now).pathUp r.half r.path && (s.devAt r.now).endpointReady r.half r.path
    && decide (p.length + 8 ≤ 16384) && ((s.devAt r.now).top.lifecycle != .decommissioned || [1, 2, 3].contains code)
    && someAnd ((s.devAt r.now).roleOf r) fun role => least.allows role

/-- The test says so. -/
theorem served_of {s : State} {r : Request} {code : Nat} {least : Role} {p : List Byte} (h : isServed s r code least p = true) :
    s.Served r code least p p r.tag := by
  simp only [isServed, Bool.and_eq_true, Bool.or_eq_true, decide_eq_true_eq, beq_iff_eq, bne_iff_ne] at h
  obtain ⟨⟨⟨⟨⟨⟨h1, h2⟩, h3⟩, h4⟩, h5⟩, h6⟩, h7⟩ := h
  refine ⟨h2, h3, h4, by simp [h1], by simp [h1], h5, by simp [h1], fun hl => ?_, ?_⟩
  · rcases h6 with h | h
    · exact absurd hl h
    · simpa using h
  · obtain ⟨role, hr, hk⟩ := someAnd_spec h7
    exact ⟨role, hr, hk⟩

/-- LeadReplyDecides: a half in each state that waits, one that does not, and one in SPLIT_HALT. -/
theorem wit_LeadReplyDecides :
    ([(LeadSt.lapsed, true), (.confirming, true), (.electing, true), (.normal, false), (.fenced, false)].all fun q =>
      let s := viewed (managed .officer ready) .west fun v => { v with st := q.1 }
      let v := (s.devAt 7).top.lead.get .west
      isServed s asks 0x06 .officer [] && v.st != .splitHalt
        && decide (v.st = .lapsed ∨ v.st = .confirming ∨ (v.st = .electing ∧ ((s.devAt 7).top.sc.get .west).st = .booted)) == q.2) = true
    ∧ ((viewed (managed .officer ready) .west fun v => { v with st := .splitHalt }).devAt 7).top.lead.w.st = .splitHalt := by decide +kernel

/-- ErrorsAreClassed, reports of nodes, stacks, jobs, requests, transactions and collectives. -/
theorem wit_ErrorsAreClassed_reports :
    ([NodeSt.running, .waiting, .ready].all fun st => ((withNode (nodeOf 0x400 st) []).devAt 7).node 0 0 == some (nodeOf 0x400 st)) = true
    ∧ ((ready.devAt 7).node 0 0 = none ∧ (ready.devAt 7).top.stopped = false ∧ bit (ready.devAt 7).top.stackUp 15 = true)
    ∧ ((jobbed.devAt 7).job 1).isSome = true
    ∧ ((((toward { Dest.cold with held := [heldWrite] } (linked upPort)).devAt 7).dest 9).held.find? fun r => r.seq = heldWrite.seq) = some heldWrite
    ∧ ([reqOf opWrite 2 64 (List.replicate 64 7), ackTxn 9 0 1 0 4 4 1].all fun t => arr (arrived [t]) (fun x => x.chan == t.chan) t) = true
    ∧ (let d := (colls group2 op4 (reqOf opRead 1 0 [])).devAt 7
       d.opOf 2 = some op4 ∧ op4.exch = false ∧ op4.left = false ∧ op4.voted = false ∧ op4.verified = false ∧ (aget op4.faults 1).getD 0 < 3) := by
  decide +kernel

/-- ErrorsAreClassed: an address that is mapped and not SRAM; a booted SC past its times; a running device. -/
theorem wit_ErrorsAreClassed :
    localMapped (2 ^ 20) = true ∧ isSram (2 ^ 20) = false
    ∧ (let d := ready.devAt 86400000000000
       (d.top.sc.get .west).st = .booted ∧ d.top.stopped = false ∧ (d.top.sc.get .west).watchdog + 100000000 ≤ d.time
         ∧ (d.top.sc.get .west).selfTest + 86400000000000 ≤ d.time ∧ d.top.pwrGood = true) := by decide +kernel

/-- ResetStartsTheDevice: each combination of the two pins. -/
theorem wit_ResetStartsTheDevice :
    (ready.dev.top.pwrGood = true ∧ ready.dev.top.resetN = true ∧ (ready.devAt 7).fnHalf 0 = some .west)
    ∧ (let t := (ready.withDev (ready.dev.onTop fun t => { t with resetN := false })).dev.top
       t.pwrGood = true ∧ t.resetN = false)
    ∧ (ready.withDev (ready.dev.onTop fun t => { t with resetN := false, pwrGood := false })).dev.top.pwrGood = false := by decide +kernel

/-- SCs that start, one image in flash. -/
def starting : State :=
  State.reset.withDev (State.reset.dev.onTop fun t => { t with
    resetN := true, pwrGood := true, sc := ⟨{ Sc.cold with st := .starting }, { Sc.cold with st := .starting }⟩,
    flash := { t.flash with images := ⟨{ FlashSlot.blank .active with len := 64 }, FlashSlot.blank .empty⟩ } })

/-- SCs that run the same image. -/
def bootedBoth : State :=
  starting.withDev (starting.dev.onTop fun t => { t with sc := ⟨{ Sc.cold with st := .booted, digest := 7 }, { Sc.cold with st := .booted, digest := 7 }⟩ })

/-- BootAndElection: a start, an ELECT, an election that times out, the training of the stacks, and the baseline. -/
theorem wit_BootAndElection :
    ((starting.dev.top.sc.get .west).st = .starting ∧ starting.dev.top.resetN = true ∧ (bootOrder (starting.devAt 7).top).1 = some .west)
    ∧ (let m := bridgeMsg (2 ^ 24 + 1) 7 0
       let v := bootedBoth.dev.top.lead.get .west
       parseBridge m = some (2 ^ 24 + 1, 7, 0) ∧ (2 ^ 24 + 1) / 2 ^ 24 = 1 ∧ (2 ^ 24 + 1) % 2 = Half.east.code ∧ bits (2 ^ 24 + 1) 2 1 = 0
         ∧ (bootedBoth.dev.top.sc.get .west).digest % 2 ^ 32 = 7 ∧ v.st = .electing ∧ v.granted = false ∧ v.reqKind = 0 ∧ v.health = 0
         ∧ v.peerElect ≠ some (0, 7))
    ∧ (let v := (viewed bootedBoth .west fun v => { v with electAt := some 5 }).dev.top.lead.get .west
       v.electAt = some 5 ∧ v.st = .electing ∧ v.peerElect = none ∧ v.reqKind = 0 ∧ v.granted = false)
    ∧ (let d := (ready.withDev (ready.dev.onTop fun t => { t with stage := .training })).devAt 7
       d.top.stage = .training ∧ d.top.stopped = false ∧ ∀ k ∈ d.stacksNeeded, bit (65535 : BitVec 16).toNat k = true)
    ∧ (let d := (ready.withDev (ready.dev.onTop fun t => { t with stage := .baseline })).devAt 7
       d.top.stage = .baseline ∧ d.top.stopped = false) := by decide +kernel

/-- HealthMonitorSamples: a risk that has risen by the step, one that has not, and a floor that is due. -/
theorem wit_HealthMonitorSamples :
    (let s := ready.withDev (ready.dev.setReg .west Reg.HM_RISK_STEP 1)
     let d := (s.withDev { s.dev with hm := s.dev.hm.set .west { s.dev.hm.w with floor := 9 } }).devAt 7
     let e := (d.hmHalf .west).hmHalf .east
     d.top.degraded = false ∧ e.rn e.leadHalf Reg.HM_RISK_STEP ≠ 0 ∧ e.hmBase + e.rn e.leadHalf Reg.HM_RISK_STEP ≤ e.deviceRisk)
    ∧ (let d := ready.devAt 7
       let e := (d.hmHalf .west).hmHalf .east
       ¬ (e.rn e.leadHalf Reg.HM_RISK_STEP ≠ 0 ∧ e.hmBase + e.rn e.leadHalf Reg.HM_RISK_STEP ≤ e.deviceRisk))
    ∧ (let d := (ready.withDev { ready.dev with hm := ready.dev.hm.set .west { ready.dev.hm.w with floor := 9, floorAt := 0 } }).devAt (10 ^ 12)
       (d.hm.get .west).floor ≠ 0 ∧ (d.hm.get .west).floorAt + 1000000 * bits (d.rn .west Reg.HM_CFG) 16 16 ≤ d.time) := by decide +kernel

/-! ### The Mirror -/

/-- A Mirror that guards job 1 with device 9. -/
def guarding (f : Mir → Mir) : State :=
  let s := linked upPort
  s.withDev { s.dev with mir := f { s.dev.mir with st := 2, valid := true, partner := 9, slots := 16, ring := 2 ^ 30, area := 0x3FFFF } }

/-- A cut being drained. -/
def cut3 : MirCut :=
  { n := 3, cause := 1, time := 0, pages := [], all := [base], record := List.replicate 70 7, sent := 0, closing := false, rings := [] }

/-- CutsAreTakenAndPushed: a cut asked for, an interval that has passed, a page to push, a record to send, and a close. -/
theorem wit_CutsAreTakenAndPushed :
    (let d := (guarding fun m => { m with asked := some 3, dirty := [base + 4096, base] }).devAt 7
     d.mir.asked = some 3 ∧ d.mirLive = true ∧ d.mir.cut = none ∧ (d.cutRecord d.mir.openCut 3).length ≤ 2 ^ 28)
    ∧ (let s := guarding id
       let d := (s.withDev ({ s.dev with time := 10 ^ 9 }.setReg .west Reg.MIR_CUT_CFG 5)).devAt 7
       let ms := bits (d.rn d.leadHalf Reg.MIR_CUT_CFG) 0 16
       ms ≠ 0 ∧ d.mir.closedAt + 1000000 * ms ≤ d.time ∧ d.mir.cut = none ∧ d.mir.asked = none)
    ∧ (((guarding fun m => { m with cut := some { cut3 with pages := [base] } }).start.at_ 7).mirPush base).isSome = true
    ∧ (let d := (guarding fun m => { m with cut := some { cut3 with sent := 70 } }).devAt 7
       d.mir.cut = some { cut3 with sent := 70 } ∧ (d.dest d.mir.partner).owes (fun t f => t.tc == 5 && (match f with | .engine _ => true | _ => false)) = false) := by decide +kernel

/-- The record of a cut holds a word for every node of every instance of a guarded job. -/
theorem cutRecord_long {d : Dev} {n cause : Nat} {p : Nat × Inst} (hp : p ∈ d.tgu.insts) (hj : (d.guardedJobs.any fun j => decide (j.1 = p.2.job)) = true) :
    4 * p.2.nodes.length ≤ (d.cutRecord n cause).length := by
  have h1 : 4 * p.2.nodes.length ≤ (d.instRecord p.1 p.2).length := by
    have hl : ∀ v, (toBytes 4 v).length = 4 := fun v => by simp [toBytes]
    simp [Dev.instRecord, List.length_flatMap, hl]
    omega
  have hm : p ∈ d.tgu.insts.filter fun p => d.guardedJobs.any fun j => decide (j.1 = p.2.job) := List.mem_filter.mpr ⟨hp, hj⟩
  have h2 : (d.instRecord p.1 p.2).length
      ≤ ((d.tgu.insts.filter fun p => d.guardedJobs.any fun j => decide (j.1 = p.2.job)).flatMap fun p => d.instRecord p.1 p.2).length := by
    rw [List.length_flatMap]
    exact List.single_le_sum (by simp) _ (List.mem_map.mpr ⟨p, hm, rfl⟩)
  simp only [Dev.cutRecord, List.length_append]
  omega

/-- A guarded job with an instance of more nodes than a record holds. -/
def vast : State :=
  let s := guarding fun m => { m with asked := some 3 }
  s.withDev ((s.dev.onHost fun h => { h with jobs := h.jobs.map fun p => (p.1, { p.2 with guarded := true }) }).onTgu fun t => { t with
    insts := [(0, { instOf (nodeOf 0 .done) with nodes := List.replicate (2 ^ 26 + 1) (nodeOf 0 .done) })] })

/-- CutsAreTakenAndPushed: a cut that is too large. -/
theorem wit_CutsAreTakenAndPushed_large :
    (vast.devAt 7).mir.asked = some 3 ∧ (vast.devAt 7).mirLive = true ∧ (vast.devAt 7).mir.cut = none
      ∧ 2 ^ 28 < ((vast.devAt 7).cutRecord (vast.devAt 7).mir.openCut 3).length := by
  refine ⟨by decide +kernel, by decide +kernel, by decide +kernel, ?_⟩
  have h := cutRecord_long (d := vast.devAt 7) (n := (vast.devAt 7).mir.openCut) (cause := 3)
    (p := (0, { instOf (nodeOf 0 .done) with nodes := List.replicate (2 ^ 26 + 1) (nodeOf 0 .done) })) (List.mem_cons_self ..) (by decide +kernel)
  simp only [List.length_replicate] at h
  omega

/-- A message of the Mirror from device 9. -/
def mirMsgOf (kind a b c e : Nat) : Txn :=
  Txn.mk0 opMsg 5 0 5 9 (regionWord mirFid 0) 0 1 (toBytes 8 kind ++ toBytes 8 a ++ toBytes 8 b ++ toBytes 8 c ++ toBytes 8 e ++ List.replicate 24 0)

/-- Its arrival in a state whose Mirror is as given. -/
def mirArrives (t : Txn) (f : Mir → Mir) : State := let s := arrived [t]; s.withDev { s.dev with mir := f s.dev.mir }

/-- The west half hosts device 9. -/
def hosting (m : Mir) : Mir := { m with host := m.host.set .west { m.host.w with on := true, device := 9, base := base, slots := 16, gib := 1 } }

/-- A cut's record without sections. -/
def soundRecord : List Byte :=
  let h := toBytes 4 0x4D495243 ++ toBytes 4 3 ++ List.replicate 48 0 ++ toBytes 4 64
  h ++ toBytes 4 (crc32c (h ++ toBytes 4 0))

/-- MirrorMessagesAct: HELLO unhosted and hosted, HELLO_REPLY that refuses and that accepts, and TAP_RESULT. -/
theorem wit_MirrorMessagesAct_hello :
    (let t := mirMsgOf msgHello 0 0 0 0
     arr (mirArrives t id) (isMirMsg msgHello) t && fresh (mirArrives t id) t && ((mirArrives t id).taking 7 0 t).dev.hostOf t.src == none
       && arr (mirArrives t hosting) (isMirMsg msgHello) t && ((mirArrives t hosting).taking 7 0 t).dev.hostOf t.src == some .west) = true
    ∧ ([0, 1].all fun ok => let t := mirMsgOf msgHelloReply ok 16 2 1
       let s := mirArrives t fun m => { m with partner := 9 }
       let s := s.withDev (s.dev.setReg .west Reg.MIR_PARTNER (2 ^ 31 + 9))
       let w := s.taking 7 0 t
       arr s (isMirMsg msgHelloReply) t && fresh s t && w.dev.mir.partner == t.src && bit (w.dev.rn w.dev.leadHalf Reg.MIR_PARTNER) 31
         && w.dev.mir.slots == 0 && fld t.data 8 8 == ok) = true
    ∧ (let t := mirMsgOf msgTapResult 77 4 stOk 0
       let s := mirArrives t fun m => { m with partner := 9, plans := [{ fid := 77, seq := 4, op := 0, pages := [base], bytes := 65536 }] }
       arr s (isMirMsg msgTapResult) t && fresh s t && t.src == (s.taking 7 0 t).dev.mir.partner) = true := by decide +kernel

/-- MirrorMessagesAct: CUT_CLOSE of a sound record and of a damaged one. -/
theorem wit_MirrorMessagesAct_close : ([true, false].all fun good =>
    let t := mirMsgOf msgCutClose 3 64 0 0
    let s := mirArrives t hosting
    let s := { s with mem := Memory.setRuns s.mem [⟨base + cutSlotOff 3, soundRecord.set 9 (if good then 0 else 1)⟩] }
    let w := s.taking 7 0 t
    let len := fld t.data 16 8
    let n := fld t.data 8 8
    let r := w.rdN ((w.dev.mir.host.get .west).base + cutSlotOff n) len
    arr s (isMirMsg msgCutClose) t && fresh s t && w.dev.hostOf t.src == some .west
      && decide (64 ≤ len ∧ len ≤ 2 ^ 28 ∧ fld r 0 4 = 0x4D495243 ∧ fld r 4 4 = n ∧ fld r 56 4 = len
        ∧ crc32c (r.take 60 ++ toBytes 4 0 ++ r.drop 64) = fld r 60 4) == good) = true := by decide +kernel

/-- A start of which the device is member 2 of 4. -/
def jstart : JStart :=
  { id := 0, job := 1, region := 3, base := base, members := [7, 8, 0, 9], me := 2, fan := 2, k := 4, parent := 1, have_ := 1, table := true,
    tableLeft := none, out := [], got := [], seen := some 3, seenTable := true, movedAt := 0, asking := false, children := [], lost := [], allAt := none }

/-- RestoreAndStartTimers: a restore that has its image and one that has not; a start's poll, parent and children. -/
theorem wit_RestoreAndStartTimers :
    (∀ n ∈ [5, 3], let r : MirRestore := { src := 9, job := 1, region := 0, step := n, slots := 16, cut := 3, buf := [], record := soundRecord, map := [], wanted := 0 }
      ((jobbed.withDev (jobbed.dev.onMir fun m => { m with restore := some r })).devAt 7).mir.restore = some r)
    ∧ (let d := (jobbed.withDev { jobbed.dev with start := some jstart }).devAt (10 ^ 11)
       d.start = some jstart ∧ jstart.me ≠ 0 ∧ jstart.have_ ≠ jstart.k ∧ jstart.asking = false ∧ jstart.have_ < jstart.k
         ∧ jstart.movedAt + d.startTimeout ≤ d.time ∧ jstart.parent ≠ 0 ∧ jstart.allAt = none) := by decide +kernel

/-! ### Piccolo, clocks and sensors -/

/-- A state with Piccolo's record of facet 0 as given. -/
def piccolo (p : Pic) : State := ready.withDev (ready.dev.setPic 0 p)

/-- PiccoloTestsFacets: each clause, at a facet that is idle, in a slice, in a forced slice, quarantined and retired. -/
theorem wit_PiccoloTestsFacets :
    (let d := ready.devAt (10 ^ 9)
     d.top.ready = true ∧ d.top.stopped = false ∧ bit (d.rn (facetHalf 0) Reg.DBG_SELFTEST_CFG) 31 = true ∧ d.facetIdle 0 = true
       ∧ (d.picOf 0).idleAt + 20000 ≤ d.time ∧ (d.picOf 0).next < 64 ∧ d.wantedByReady 0 = false ∧ d.tickNear = false)
    ∧ (∀ b ∈ [false, true], let d := (piccolo { Pic.cold with slice := some (63, b), sliceAt := 7 }).devAt 40007
       (d.picOf 0).slice = some (63, b) ∧ (d.picOf 0).sliceAt + 40000 ≤ d.time)
    ∧ (let d := (piccolo { Pic.cold with quar := true, redo := some 5 }).devAt 7
       d.facetOn 0 = true ∧ (d.picOf 0).quar = true ∧ (d.picOf 0).slice = none ∧ d.run 0 = none)
    ∧ (let d := (piccolo { Pic.cold with quar := true, retired := true }).devAt 7
       (d.picOf 0).retired = true ∧ d.top.flash.retired.contains 0 = false)
    ∧ (let d := ready.devAt (10 ^ 13)
       bit (d.rn .west Reg.DBG_SELFTEST_CFG) 31 = true ∧ d.picAt.get .west + bits (d.rn .west Reg.DBG_SELFTEST_CFG) 0 16 * 1000000000 ≤ d.time) := by
  decide +kernel

/-- ClocksAndSensors: a reading at the trip point, the recovery, a cap step, a sample, a block to scrub, and both uses of a pulse. -/
theorem wit_ClocksAndSensors :
    (let v := (ready.start.at_ 7).upd (·.onSc .west fun s => { s with temps := setNth s.temps 15 (ready.devAt 7).tripTemp })
     (ready.devAt 7).top.pwrGood = true ∧ v.dev.tripTemp ≤ v.dev.hottest)
    ∧ (let d := (ready.withDev (ready.dev.onTop fun t => { t with tripped := true, coolSince := some 7 })).devAt 100000007
       d.top.coolSince = some 7 ∧ d.top.tripped = true ∧ 7 + 100000000 ≤ d.time)
    ∧ (let d := (ready.withDev (ready.dev.onTop fun t => { t with ceiling := 900 })).devAt 1000000
       d.top.sc.w.st = .booted ∧ d.top.capTime + 1000000 ≤ d.time ∧ d.top.tripped = false ∧ d.clkHeld = false ∧ d.capWatts < 1000 ∧ d.top.telemetry = none)
    ∧ (let d := (ready.withDev ((ready.dev.setReg .west Reg.TOP_POWER_CAP 0).onTop fun t => { t with ceiling := 900 })).devAt 1000000
       d.clkHeld = true ∧ d.top.recovering = false ∧ d.top.tripped = false ∧ d.capWatts < 1000)
    ∧ (rsRead [] = .clean ∧ rsWhole [] = true ∧ rsRead [(31, 9)] = .fixed 31 9 ∧ rsWhole [(31, 9)] = true ∧ rsRead [(0, 1), (35, 0x8000)] = .bad)
    ∧ (let d := (ready.withDev (ready.dev.setReg .west Reg.MEM_SCRUB_CFG (2 ^ 31))).devAt 7
       let k := (placeStack (2 ^ 20)).1
       isLocal (2 ^ 20) = true ∧ isSram (2 ^ 20) = false ∧ bit (d.rn (Half.ofCode (k / 8)) Reg.MEM_SCRUB_CFG) 31 = true ∧ bit d.top.stackUp k = true
         ∧ d.lostAt (2 ^ 20) = false)
    ∧ (let s (r : Bool) := ready.withDev ((ready.dev.onTop fun t => { t with ready := r }).setReg .west Reg.FAB_TIME_CFG (2 ^ 31))
       ((s false).devAt 7).timeCfg.1 = true ∧ ((s false).devAt 7).top.ppsLast = none ∧ ((s false).devAt 7).top.timeSet = false
         ∧ ((s true).devAt 1000000).top.ready = true ∧ ppsOffset ((s true).devAt 1000000).time ≤ 1000000 ∧ -1000000 ≤ ppsOffset ((s true).devAt 1000000).time) := by
  decide +kernel

/-! ### Host ports, doorbells and records -/

/-- A state with registers of the west half written. -/
def withRegs (regs : List (Nat × Nat)) (s : State) : State := regs.foldl (fun s r => s.withDev (s.dev.setReg .west r.1 (BitVec.ofNat 32 r.2))) s

/-- The BAR4 window of the PF stands on the buffer, for a job. -/
def bar4On (job : Nat) : State :=
  withRegs [(Reg.HOST_BAR4_BASE_LO, base % 2 ^ 32), (Reg.HOST_BAR4_BASE_LO + 4, base / 2 ^ 32), (Reg.HOST_BAR4_JOB, 2 ^ 31 + job)] jobbed

/-- HostPortsAnswer: the lead's port, a function that may enable, BAR4 permitted and refused, a due cause, a pending vector. -/
theorem wit_HostPortsAnswer :
    ((jobbed.devAt 7).top.portLead = some .west ∧ (jobbed.devAt 7).mayEnable 0 = true ∧ ((jobbed.devAt 7).fnHalf 0).isSome = true)
    ∧ (∀ wr ∈ [false, true], (bar4On 1).dev.bar4 0 64 16 wr = some (base + 64, true) ∧ (bar4On 2).dev.bar4 0 64 16 wr = some (base + 64, false))
    ∧ (bar4On 1).dev.poisonIn (base + 64) 16 = none
    ∧ ((bar4On 1).withDev ((bar4On 1).dev.onHost fun x => { x with poison := [base / 64 + 1] })).dev.poisonIn (base + 64) 16 = some (base + 64)
    ∧ ((State.reset.dev.host.ports.get .west).cfgReady = false ∧ (jobbed.dev.host.ports.get .west).cfgReady = true
      ∧ jobbed.dev.fnHalf 0 = some .west ∧ jobbed.dev.fnHalf 0x40 ≠ some .west)
    ∧ (let v := ((jobbed.withDev (jobbed.dev.setVec 0 31 { jobbed.dev.vec 0 31 with addr := 0x3000, data := 5, masked := false, causes := [⟨1⟩] })).devAt 1000).vec 0 31
       (⟨1⟩ : IrqCause) ∈ v.causes ∧ vecDue v 1000 (⟨1⟩ : IrqCause).modUs = true)
    ∧ (let v := ((jobbed.withDev (jobbed.dev.setVec 0 31 { jobbed.dev.vec 0 31 with masked := true, pend := true })).devAt 7).vec 0 31
       v.masked = true ∧ v.pend = true) := by decide +kernel

/-- Ring 1 of the PF enabled, with its queues in host memory. -/
def ring1 (f : Ring → Ring) : State :=
  let s := jobbed.withDev ((jobbed.dev.setFunc 0 { jobbed.dev.func 0 with pagesOn := true, evt := ⟨true, 0, 5, 5, 0, 0⟩ }).setRing 0 1
    (f { jobbed.dev.ring 0 1 with st := .enabled }))
  withRegs [(winOff 0 0x40, 0x4000), (winOff 0 0x48, 0x8000), (winOff 0 0x50, 0x9000), (winOff 0 0x5C, 1)] s

/-- A record that waits. -/
def heldRec : HeldRec := { bytes := List.replicate 32 1, signal := true, at_ := none }

/-- DoorbellsAndRecords: a tail at the size and one past it, a head, a disabled ring, events, write-backs, and errors. -/
theorem wit_DoorbellsAndRecords :
    (let d := (ring1 id).devAt 7
     d.dbReach 0 1 = true ∧ d.dbTaken 0 1 = true ∧ idxSub (BitVec.ofNat 32 (d.sqSize 0 1)).toNat (d.ring 0 1).sqHead = d.sqSize 0 1
       ∧ d.sqSize 0 1 < idxSub (BitVec.ofNat 32 (d.sqSize 0 1 + 1)).toNat (d.ring 0 1).sqHead ∧ (d.func 0).pagesOn = true ∧ (d.func 0).evt.on = true
       ∧ d.fnDelivers 0 = true ∧ idxSub (d.ring 0 1).cqTail (0 : Word32).toNat ≤ 2 ^ d.cqLog2 0 1)
    ∧ (let d := (ring1 fun r => { r with st := .disabled }).devAt 7
       d.dbReach 0 1 = true ∧ d.dbTaken 0 1 = false)
    ∧ (let x := ((ring1 fun r => { r with wbDue := true, sqHead := 2 }).devAt 7).ring 0 1
       x.wbDue = true ∧ x.wbLast = none)
    ∧ (let d := (ring1 fun r => { r with held := [heldRec] }).devAt 7
       (d.ring 0 1).held = [heldRec] ∧ idxSub (d.ring 0 1).cqTail (d.ring 0 1).cqHead < 2 ^ d.cqLog2 0 1)
    ∧ (let d := (ring1 fun r => { r with st := .draining }).dev
       (d.ring 0 1).st = .draining ∧ d.ringInsts 0 1 = 0 ∧ (d.ring 0 1).held = [] ∧ d.tgu.frames = [])
    ∧ (let x := ((ring1 fun r => { r with sqTail := 2 }).devAt 7).ring 0 1
       x.st = .enabled ∧ x.st ≠ .disabled ∧ x.exposed ≠ [])
    ∧ (let d := (withNode (nodeOf 0x400 .running) (nodeBytes [])).devAt 7
       d.node 0 0 = some (nodeOf 0x400 .running) ∧ (nodeOf 0x400 .running).st ≠ .done) := by decide +kernel

/-! ### Registers and windows -/

/-- What Acts asks, as a test. -/
def mayAct (s : State) (fn : Nat) (win : Half) (now : Nat) (leadOnly : Bool) : Bool :=
  let d := s.devAt now
  (d.fnHalf fn).isSome && (fn == 0 || fn == 0x40) && d.windowLives win && d.top.ready && !d.top.stopped
    && (!leadOnly || ((d.top.lead.get win).leads win && (d.top.lead.get win).st == .degraded))

/-- The test says so. -/
theorem acts_of {s : State} {fn : Nat} {win : Half} {now : Nat} {leadOnly : Bool} (h : mayAct s fn win now leadOnly = true) :
    s.Acts fn win now leadOnly := by
  simp only [mayAct, Bool.and_eq_true, Bool.or_eq_true, Bool.not_eq_true', beq_iff_eq] at h
  obtain ⟨⟨⟨⟨⟨h1, h2⟩, h3⟩, h4⟩, h5⟩, h6⟩ := h
  refine ⟨h1, h2, h3, h4, h5, fun hl => ?_⟩
  rcases h6 with h | h
  · rw [hl] at h; cases h
  · exact h

/-- WindowRegistersAct: the PF and the standby function, with the west half alone for the lead-only ones. -/
theorem wit_WindowRegistersAct : alone.Acts 0 .west 7 true ∧ ready.Acts 0 .west 7 false ∧ ready.Acts 0x40 .east 7 false := by
  refine ⟨acts_of ?_, acts_of ?_, acts_of ?_⟩ <;> decide +kernel

/-- WindowRegistersAct: the lead's half in NORMAL. -/
theorem wit_WindowRegistersAct_joins : ready.Joins 0 .west 7 := by
  constructor <;> decide +kernel

/-- What RegisterAccessRules asks of an access of the PF to a register, and its part, access and scope. -/
def accesses (s : State) (off : Nat) (k : RegRow → Bool) : Bool :=
  ((s.devAt 7).fnHalf 0).isSome && decide (off < 2 ^ 24) && off % 4 == 0 && someAnd (findRow off) k

/-- RegisterAccessRules: a pair of the west half and a lead-only pair, a plain register, a lead-only one in NORMAL, and a
read-only one. -/
theorem wit_RegisterAccessRules :
    ([(jobbed, Reg.BPM_POOL_CFG_LO, false), (alone, Reg.FAB_ROUTE_ENTRY_LO, true)].all fun q =>
      accesses q.1 q.2.1 (fun r => r.part == .lo && r.acc != .ro && (r.scope == .lead) == q.2.2) && mayAct q.1 0 .west q.1.dev.time q.2.2
        && (q.1.dev.windowOf .west q.2.1).isSome
        && accesses q.1 (q.2.1 + 4) (fun r => r.part == .hi && r.acc != .ro && (r.scope == .lead) == q.2.2) && mayAct q.1 0 .west 7 q.2.2
        && ((q.1.devAt 7).windowOf .west (q.2.1 + 4)).isSome) = true
    ∧ (accesses ready Reg.HM_CFG (fun r => r.part == .plain && r.acc != .ro && r.scope != .lead) && mayAct ready 0 .west 7 false) = true
    ∧ (accesses ready Reg.CE_TIMEOUT (fun r => r.part == .plain && r.acc != .ro && r.scope == .lead)
        && (ready.devAt 7).windowLives .west && (ready.devAt 7).top.ready && !(ready.devAt 7).top.stopped
        && ((ready.devAt 7).top.lead.get .west).leads .west && ((ready.devAt 7).top.lead.get .west).st == .normal) = true
    ∧ accesses ready Reg.FAB_REVISION (fun r => r.acc == .ro) = true := by decide +kernel

/-- ClientWindowActs: the PF names its own job 1, which is not busy. -/
theorem wit_ClientWindowActs :
    (let s := jobbed.withDev (jobbed.dev.setReg .west (winOff 0 0x500) 1)
     let d := (s.posted 7).dev
     d.fnHalf 0 = some .west ∧ d.windowLives .west = true ∧ d.top.ready = true ∧ d.top.stopped = false ∧ d.rn .west (winOff 0 0x500) = 1
       ∧ (someAnd (d.job 1) fun j => j.client == clientOf 0) = true ∧ d.jobBusy 1 = false) := by decide +kernel

/-! ### Management -/

/-- A management state with the top of the device changed. -/
def office (f : Top → Top) : State := (managed .officer ready).withDev ((managed .officer ready).dev.onTop f)

/-- ManagementAnswers: the requests that only read. -/
theorem wit_ManagementAnswers :
    (isServed (office id) asks 0x01 .anyone [] && isServed (office id) asks 0x07 .officer [] && isServed (office id) asks 0x0C .officer []
      && isServed (office id) asks 0x0D .anyone [] && ((office id).devAt 7).leadServes) = true
    ∧ (isServed (office fun t => { t with telemetry := some ⟨5, [(1, [1, 2]), (2, [7])]⟩ }) asks 0x02 .anyone [1, 2, 9]) = true
    ∧ ([0, 1].all fun k => isServed (office id) asks 0x03 .operator [k, 0, 0, 0, 0]) = true := by decide +kernel

/-- ManagementActs: the requests that change the device, but LIFECYCLE_TOKEN. -/
theorem wit_ManagementActs :
    (let d := (office id).devAt 7
     isServed (office id) asks 0x04 .officer (toBytes 2 600) && decide (fld (toBytes 2 600) 0 2 = 600 ∧ 600 ≤ d.top.designPower)
       && isServed (office id) asks 0x11 .operator [] && d.leadServes && isServed (office id) asks 0x08 .officer []
       && isServed (office id) asks 0x09 .officer ([0] ++ toBytes 4 (2 ^ 23)) && fld ([0] ++ toBytes 4 (2 ^ 23)) 1 4 == 2 ^ 23 && d.top.staging.isNone
       && (stageSlot (d.top.flash.slots true)).isSome && isServed (office id) asks 0x0F .officer []) = true
    ∧ (let p := toBytes 4 64 ++ List.replicate 64 7
       isServed (office fun t => { t with staging := some ⟨true, .east, 128, 64⟩ }) asks 0x0A .officer p && fld p 0 4 == 64 && decide (64 + (p.length - 4) ≤ 128)) = true
    ∧ (isServed (office fun t => { t with staging := some ⟨true, .east, 128, 128⟩ }) asks 0x0B .officer [] && decide (((office id).devAt 7).top.minSvn ≤ 9)) = true
    ∧ (isServed (office fun t => { t with maintStop := true }) asks 0x10 .officer [] && (office fun t => { t with maintStop := true }).dev.top.maintStop) = true := by
  decide +kernel

/-- A value of `n` bytes has `n` bytes. -/
theorem toBytes_length (n x : Nat) : (toBytes n x).length = n := by
  induction n generalizing x with
  | zero => rfl
  | succ n ih => simp [toBytes, ih]

/-- Bytes written read back. -/
theorem ofBytes_toBytes (n x : Nat) : ofBytes (toBytes n x) = x % 2 ^ (8 * n) := by
  induction n generalizing x with
  | zero => simp [toBytes, ofBytes, Nat.mod_one]
  | succ n ih =>
    simp only [toBytes, ofBytes, ih, BitVec.toNat_ofNat]
    have h : (2 : Nat) ^ (8 * (n + 1)) = 256 * 2 ^ (8 * n) := by rw [Nat.mul_add, Nat.pow_add]; norm_num [Nat.mul_comm]
    rw [h, Nat.mod_mul]

/-- A token of kind 3 for this device with nonce 99. -/
def token : List Byte := toBytes 3 0 ++ ([3] ++ (List.replicate 4 0 ++ (toBytes 16 (Config.uniqueId % 2 ^ 128) ++ (toBytes 32 99 ++ List.replicate 7460 0))))

/-- The state it is for. -/
def tokened : State := office fun t => { t with nonce := some (99, 5), ownerHash := some (Config.sha384 ((token.drop 0x68).take (97 + 2592))) }

/-- ManagementActs: LIFECYCLE_TOKEN. -/
theorem wit_ManagementActs_token :
    tokened.Served asks 0x0E .anyone token token 3 ∧ (tokened.devAt 7).leadServes = true ∧ token.length = 7516 ∧ fld token 3 1 = 3
      ∧ kindAllowed 3 (tokened.devAt 7).top.lifecycle = true ∧ (tokened.devAt 7).top.nonce = some (99, 5) ∧ fld token 0x18 32 = 99
      ∧ fld token 8 16 = Config.uniqueId % 2 ^ 128
      ∧ (tokened.devAt 7).top.ownerHash = some (Config.sha384 ((token.drop 0x68).take (97 + 2592))) := by
  have hl : token.length = 7516 := by
    simp only [token, List.length_append, List.length_cons, List.length_nil, List.length_replicate, toBytes_length]
  have hs : isServed tokened asks 0x0E .anyone [] = true := by decide +kernel
  have hz := served_of hs
  refine ⟨⟨hz.serves, hz.reach, hz.ready, by simp [asks], hz.tag_, by rw [hl]; decide, hz.box, hz.life, hz.role⟩, by decide +kernel, hl,
    by decide +kernel, by decide +kernel, by decide +kernel, by decide +kernel, ?_, rfl⟩
  have h : (token.drop 8).take 16 = toBytes 16 (Config.uniqueId % 2 ^ 128) := rfl
  rw [fld, h, ofBytes_toBytes]
  simp

/-- MctpAndSessions: a path that is up, few sessions, a SECURING port of the half, and a host link that is up. -/
theorem wit_MctpAndSessions :
    (let d := (office id).devAt 7
     MgmtPath.i3c ≠ .mailbox ∧ d.scServes .west = true ∧ d.pathUp .west .i3c = true ∧ d.top.lifecycle ≠ .decommissioned
       ∧ (d.top.sessions.countP fun x => decide (x.half = .west ∧ x.use = .mgmt)) < 4 ∧ (d.host.ports.get .west).speed ≠ 0
       ∧ (someAnd (d.top.sessions.find? fun x => x.id = 1) fun x => x.use == .mgmt) = true)
    ∧ (let d := (managed .officer (linked { upPort with st := .securing })).devAt 7
       d.scServes .west = true ∧ portHalf 0 = .west ∧ (d.fport 0).st = .securing) := by decide +kernel

/-- I3cAndJtagCommands: a target without an address and one with it, RESET_N deasserted. -/
theorem wit_I3cAndJtagCommands :
    ready.dev.top.resetN = true ∧ (ready.dev.top.i3c.get .west).addr = none ∧ ((office id).dev.top.i3c.get .west).addr.isSome = true := by decide +kernel

/-! ### Results of one command that the spec gives -/

/-- The check value of CRC-32C (R55). -/
theorem test_crc : crc32c [0x31, 0x32, 0x33, 0x34, 0x35, 0x36, 0x37, 0x38, 0x39] = 0xE3069283 := by decide +kernel

/-- The worked example of the address map (R241). -/
theorem test_placeStack : placeStack 0x0000012345678900 = ⟨15, 61, 1007, 0x11A2B3, 0⟩ := by decide +kernel

/-- A code word's generator has the roots 1, α, α² and α³ (R243): the check symbols of data 1 in the last data symbol make
every syndrome zero. -/
theorem test_rsCheck : rsSyndromes ((31, 1) :: ((rsCheck (List.replicate 31 0 ++ [1])).zipIdx.map fun p => (32 + p.2, p.1))) = [0, 0, 0, 0] := by
  decide +kernel

/-- The header of the worked example of the collectives chapter: member 4's first frame of partial tile 6. -/
theorem test_frame_header :
    (({ epoch := 3, seq := 0x151, kind := 0x11, parts := 2, part := 0, src := 4, index := 6, body := [] } : CeFrame).bytes 64).take 16
      = toBytes 4 3 ++ toBytes 4 0x151 ++ toBytes 4 0x11800004 ++ toBytes 4 6 := by decide +kernel

/-- A WRITE stores its bytes at the region's base plus its offset, and no other byte (R364, R377). -/
theorem test_write : nextAnd (exec (.writeTx 0 7) (arrived [reqOf opWrite 2 64 (List.replicate 64 7)])) (fun t =>
    t.mem.length == 64 && t.mem.get (base + 64) == 7 && t.mem.get (base + 127) == 7 && t.mem.get (base + 128) == 0) = true := by decide +kernel

/-- An ATOMIC addition of 5 to the 64-bit 2^64 - 1 wraps to 4 (R361). -/
theorem test_atomic : (let s := arrived [reqOf opAtomic 0 64 (toBytes 8 5 ++ toBytes 8 0)]
    nextAnd (exec (.atomic 0 7) { s with mem := Memory.setRuns s.mem [⟨base + 64, List.replicate 8 255⟩] }) fun t =>
      t.mem == [(base + 64, 4)]) = true := by decide +kernel

/-- A misaligned access is an Unsupported Request (R7), and a read of FAB_REVISION answers its reset value. -/
theorem test_register_read :
    nextAnd (exec (.pairLoRead 0 0 (Reg.FAB_REVISION + 2) 4 7) ready) (fun t => t.dev.resp == .unsupported) = true
    ∧ nextAnd (exec (.pairLoRead 0 0 Reg.FAB_REVISION 4 7) ready) (fun t => t.dev.resp == .word 0x100) = true := by decide +kernel

/-- The clear on write 1 of TOP_FATAL_STATUS.VALID keeps the rest (R464). -/
theorem test_fatal_clear : (let s := ready.withDev (ready.dev.onTop fun t => { t with fatal := ⟨true, 1, 5, 0x3F⟩ })
    nextAnd (exec (.topFatalStatusClear 0 .west (2 ^ 31) 7) s) fun t => t.dev.top.fatal == ⟨false, 1, 5, 0x3F⟩) = true := by decide +kernel

/-- TIME never goes back: a command of an earlier moment leaves it (assumption 6). -/
theorem test_time : nextAnd (exec (.droopEvent .west 7) (ready.withDev { ready.dev with time := 9 })) (fun t => t.dev.time == 9) = true := by decide +kernel

/-- EXTEST drives the outputs only while RESET_N is asserted (R542). -/
theorem test_extest :
    nextAnd (exec .extest ready) (fun t => t.dev.top.jtag.ir == 0 && !t.dev.boundaryDrives) = true
    ∧ nextAnd (exec .extest (ready.withDev (ready.dev.onTop fun t => { t with resetN := false }))) (fun t => t.dev.boundaryDrives) = true := by decide +kernel

/-- The lease lapses 2 ms after the last valid message, and not before (R459). -/
theorem test_lapse :
    nextAnd (exec (.leaseLapse .east 1999999) ready) (fun t => t.dev.top.lead.e.st == .normal) = true
    ∧ nextAnd (exec (.leaseLapse .east 2000000) ready) (fun t => t.dev.top.lead.e.st == .confirming) = true := by decide +kernel

/-- A NOP node is RUNNING and complete after its dispatch, and commits later (R301, R324). -/
theorem test_nop_node : nextAnd (exec (.nopNode 0 0 7) (nodeAt 0xF00 [])) (fun t => someAnd (t.dev.node 0 0) fun n =>
    n.st == .running && n.eng == .complete && n.attempt == 1) = true := by decide +kernel

/-- The memories of a running state are in canonical form, and its step answers a next state: the premises of
EveryCommandCompletes and StepKeepsMemoriesCanonical. -/
theorem wit_StepKeepsMemoriesCanonical :
    (let s := { arrived [reqOf opWrite 2 64 (List.replicate 64 7)] with pending := [Instr.writeTx 0 7] }
     s.memOk ∧ ∃ t, step s = .next t) := by
  refine ⟨by unfold State.memOk; decide +kernel, ?_⟩
  have h : nextAnd (step { arrived [reqOf opWrite 2 64 (List.replicate 64 7)] with pending := [Instr.writeTx 0 7] }) (fun _ => true) = true := by
    decide +kernel
  revert h
  cases step { arrived [reqOf opWrite 2 64 (List.replicate 64 7)] with pending := [Instr.writeTx 0 7] } with
  | next t => exact fun _ => ⟨t, rfl⟩
  | fault f => exact fun h => nomatch h
  | refused r => exact fun h => nomatch h

/-- FrontCommandRuns, second part: the queue at reset is empty. -/
theorem wit_FrontCommandRuns : State.reset.pending = [] := rfl

/-- HostWordAccess: accesses that are no aligned word, by size and by offset, and one that is. -/
theorem wit_HostWordAccess : ((8 : Nat) ≠ 4 ∨ (0 : Nat) % 4 ≠ 0) ∧ ((4 : Nat) ≠ 4 ∨ (6 : Nat) % 4 ≠ 0) ∧ (4 : Nat) = 4 ∧ (8 : Nat) % 4 = 0 := by decide

/-- HealthFloor: a raised floor before and at its interval. -/
theorem wit_HealthFloor :
    (let s := ready.withDev { ready.dev with hm := ready.dev.hm.set .west { ready.dev.hm.w with floor := 9, floorAt := 0 } }
     let ns (d : Dev) := 1000000 * bits (d.rn .west Reg.HM_CFG) 16 16
     ((s.devAt 7).hm.get .west).floor ≠ 0 ∧ (s.devAt 7).time < 0 + ns (s.devAt 7) ∧ 0 + ns (s.devAt (10 ^ 12)) ≤ (s.devAt (10 ^ 12)).time) := by
  decide +kernel

/-- ParityDropIsReported: a register other than the count of lost events. -/
theorem wit_ParityDropIsReported : (someAnd (findRow Reg.HM_CFG) fun r => r.off != Reg.HOST_EVENTS_LOST_LO && r.off != Reg.HOST_EVENTS_LOST_HI) = true := by
  decide +kernel

end Sys2Proof.Tests
end

section
/-! SUPPORT. The answer to the host is that of the access alone: what a register write sets going, in whatever unit, leaves it as
it is. One lemma per operation that a register write can reach, in the order of the model. -/

namespace Sys2Proof.Machine

open Sys2Proof

/-- A fold keeps what each of its steps keeps. -/
theorem foldl_keeps {α β γ : Type} (p : β → γ) (f : β → α → β) (h : ∀ b x, p (f b x) = p b) (l : List α) (b : β) :
    p (l.foldl f b) = p b :=
  List.foldlRecOn (motive := fun c => p c = p b) l f rfl fun c hc x _ => (h c x).trans hc

section
variable {α β : Type} (l : List α)

@[simp] theorem Dev.foldl_resp (f : Dev → α → Dev) (h : ∀ d x, (f d x).resp = d.resp) (d : Dev) : (l.foldl f d).resp = d.resp :=
  foldl_keeps Dev.resp f h l d

@[simp] theorem Dev.foldl_fst_resp (f : Dev × β → α → Dev × β) (h : ∀ d x, (f d x).1.resp = d.1.resp) (d : Dev × β) :
    (l.foldl f d).1.resp = d.1.resp := foldl_keeps (fun d => d.1.resp) f h l d

@[simp] theorem Wk.foldl_resp (f : Wk → α → Wk) (h : ∀ w x, (f w x).dev.resp = w.dev.resp) (w : Wk) :
    (l.foldl f w).dev.resp = w.dev.resp := foldl_keeps (fun w => w.dev.resp) f h l w

@[simp] theorem Wk.foldl_fst_resp (f : Wk × β → α → Wk × β) (h : ∀ w x, (f w x).1.dev.resp = w.1.dev.resp) (w : Wk × β) :
    (l.foldl f w).1.dev.resp = w.1.dev.resp := foldl_keeps (fun w => w.1.dev.resp) f h l w

end

@[simp] theorem Dev.ite_resp (c : Prop) {_ : Decidable c} (d e : Dev) : (if c then d else e).resp = if c then d.resp else e.resp :=
  apply_ite Dev.resp c d e

@[simp] theorem Wk.ite_resp (c : Prop) {_ : Decidable c} (w v : Wk) :
    (if c then w else v).dev.resp = if c then w.dev.resp else v.dev.resp :=
  apply_ite (fun w : Wk => w.dev.resp) c w v

section
variable (w : Wk) (d : Dev)

/-! ### Stores, messages and events -/

@[simp] theorem Wk.wr_resp (a : Nat) (bs : List Byte) : (w.wr a bs).dev.resp = w.dev.resp := rfl
@[simp] theorem Wk.wrH_resp (a : Nat) (bs : List Byte) : (w.wrH a bs).dev.resp = w.dev.resp := rfl
@[simp] theorem Dev.setVec_resp (fn v : Nat) (x : Vec) : (d.setVec fn v x).resp = d.resp := rfl
@[simp] theorem Dev.fireVec_resp (fn v : Nat) : (d.fireVec fn v).resp = d.resp := by simp [Dev.fireVec]
@[simp] theorem Dev.raise_resp (fn v modUs : Nat) : (d.raise fn v modUs).resp = d.resp := by simp [Dev.raise]
@[simp] theorem Dev.evtDrop_resp (fn k : Nat) : (d.evtDrop fn k).resp = d.resp := by simp [Dev.evtDrop]
@[simp] theorem Wk.putEvent_resp (fn : Nat) (e : Event) : (w.putEvent fn e).dev.resp = w.dev.resp := by simp [Wk.putEvent]
@[simp] theorem Wk.reportLost_resp (fn : Nat) : (w.reportLost fn).dev.resp = w.dev.resp := by simp [Wk.reportLost]
@[simp] theorem Wk.postTo_resp (fn : Nat) (e : Event) : (w.postTo fn e).dev.resp = w.dev.resp := by simp [Wk.postTo]
@[simp] theorem Dev.logEvent_resp (h : Half) (bs : List Byte) : (d.logEvent h bs).resp = d.resp := rfl
@[simp] theorem Wk.post_resp (h : Half) (fn : Nat) (e : Event) : (w.post h fn e).dev.resp = w.dev.resp := by simp [Wk.post]
@[simp] theorem Wk.postJob_resp (h : Half) (e : Event) : (w.postJob h e).dev.resp = w.dev.resp := by simp [Wk.postJob]

/-! ### Sending on the fabric -/

@[simp] theorem Dev.setPort_resp (p : Nat) (x : FPort) : (d.setPort p x).resp = d.resp := rfl
@[simp] theorem Dev.sendFlit_resp (p : Nat) (ctrl : Option Nat) (payload : List Byte) (ends : List Txn) :
    (d.sendFlit p ctrl payload ends).resp = d.resp := by
  simp [Dev.sendFlit]

@[simp] theorem Dev.sendMac_resp (p : Nat) : (d.sendMac p).resp = d.resp := by simp [Dev.sendMac]
@[simp] theorem Dev.sendData_resp (p : Nat) (payload : List Byte) (ends : List Txn) : (d.sendData p payload ends).resp = d.resp := by
  simp [Dev.sendData]

@[simp] theorem Dev.fillGroup_resp (p : Nat) : (d.fillGroup p).resp = d.resp := by simp [Dev.fillGroup]
@[simp] theorem Dev.returnCredits_resp (p : Nat) : (d.returnCredits p).resp = d.resp := by simp [Dev.returnCredits]
@[simp] theorem Dev.drain_resp (p : Nat) : (d.drain p).resp = d.resp := by simp [Dev.drain]
@[simp] theorem Dev.enqueue_resp (p : Nat) (t : Txn) : (d.enqueue p t).resp = d.resp := by simp [Dev.enqueue]
@[simp] theorem Dev.setDest_resp (dest : Nat) (x : Dest) : (d.setDest dest x).resp = d.resp := rfl
@[simp] theorem Dev.sendOn_resp (t : Txn) (s : Nat) : (d.sendOn t s).resp = d.resp := by simp [Dev.sendOn]
@[simp] theorem Dev.onLoop_resp (t : Txn) : (d.onLoop t).resp = d.resp := rfl
@[simp] theorem Dev.respond_resp (t : Txn) : (d.respond t).resp = d.resp := by
  unfold Dev.respond
  split
  · rfl
  · split <;> simp

@[simp] theorem Dev.sendAt_resp (t : Txn) (s : Nat) : (d.sendAt t s).resp = d.resp := by simp [Dev.sendAt]
@[simp] theorem Dev.pumpHeld_resp (dest : Nat) : (d.pumpHeld dest).resp = d.resp := by
  unfold Dev.pumpHeld
  refine Dev.foldl_fst_resp _ _ (fun d seq => ?_) _
  dsimp only
  split
  · rfl
  · split <;> simp

@[simp] theorem Dev.pumpReads_resp (dest : Nat) : (d.pumpReads dest).resp = d.resp := by
  unfold Dev.pumpReads
  refine Dev.foldl_resp _ _ (fun _ _ => ?_) _
  dsimp only
  split
  · rfl
  · split <;> simp

@[simp] theorem Dev.pumpFences_resp (dest : Nat) : (d.pumpFences dest).resp = d.resp := by
  unfold Dev.pumpFences
  refine Dev.foldl_resp _ _ (fun d k => ?_) _
  dsimp only
  split
  · rfl
  · split
    · rfl
    · split <;> simp

@[simp] theorem Dev.pump_resp (dest : Nat) : (d.pump dest).resp = d.resp := by simp [Dev.pump]
@[simp] theorem Dev.sendRead_resp (dest job region off len tc : Nat) (bulk : Bool) (why : ReadFor) :
    (d.sendRead dest job region off len tc bulk why).resp = d.resp := by
  simp [Dev.sendRead]

@[simp] theorem Dev.holdReq_resp (t : Txn) (why : ReqFor) : (d.holdReq t why).resp = d.resp := by simp [Dev.holdReq]
@[simp] theorem Dev.killSlot_resp (dest s : Nat) : (d.killSlot dest s).resp = d.resp := by simp [Dev.killSlot]
@[simp] theorem Dev.killPort_resp (p : Nat) : (d.killPort p).resp = d.resp := by simp [Dev.killPort]
@[simp] theorem Dev.setupChanged_resp : d.setupChanged.resp = d.resp := by simp [Dev.setupChanged]

/-! ### Frames of collectives -/

@[simp] theorem Dev.frameTo_resp (h : Half) (k member : Nat) (f : CeFrame) : (d.frameTo h k member f).resp = d.resp := by
  unfold Dev.frameTo
  split <;> simp

/-! ### What an ended attempt gives up -/

@[simp] theorem Dev.untake_resp (acts : List CommitAct) : (d.untake acts).resp = d.resp := by
  unfold Dev.untake
  refine Dev.foldl_resp _ _ (fun _ _ => ?_) _
  split <;> simp

@[simp] theorem Dev.dropBitmaps_resp (seq : Nat) : (d.dropBitmaps seq).resp = d.resp := rfl
@[simp] theorem Dev.endOps_resp (seq i : Nat) : (d.endOps seq i).resp = d.resp := rfl
@[simp] theorem Dev.dropOp_resp (id : Nat) : (d.dropOp id).resp = d.resp := rfl
@[simp] theorem Dev.withdraw_resp (seq i : Nat) : (d.withdraw seq i).resp = d.resp := by
  unfold Dev.withdraw
  refine Dev.foldl_resp _ _ (fun _ _ => ?_) _
  split <;> simp

@[simp] theorem Dev.setPic_resp (f : Nat) (p : Pic) : (d.setPic f p).resp = d.resp := rfl
@[simp] theorem Dev.fallIdle_resp (f : Nat) : (d.fallIdle f).resp = d.resp := rfl
@[simp] theorem Dev.holdNs_resp (seq i : Nat) : (d.holdNs seq i).resp = d.resp := by
  unfold Dev.holdNs
  refine Dev.foldl_resp _ _ (fun d r => ?_) _
  dsimp only
  split
  · simp
  · split <;> simp

@[simp] theorem Dev.endFetch_resp (seq i : Nat) : (d.endFetch seq i).resp = d.resp := rfl
@[simp] theorem Dev.dropFetches_resp (seq : Nat) : (d.dropFetches seq).resp = d.resp := rfl
@[simp] theorem Dev.dropGoneSlots_resp : d.dropGoneSlots.resp = d.resp := rfl
@[simp] theorem Dev.returnFreed_resp : d.returnFreed.resp = d.resp := rfl
@[simp] theorem Dev.freeBuf_resp (base : Nat) : (d.freeBuf base).resp = d.resp := by simp [Dev.freeBuf]
@[simp] theorem Dev.freeFor_resp (job handle : Nat) : (d.freeFor job handle).1.resp = d.resp := by
  unfold Dev.freeFor
  split
  · rfl
  · simp [apply_ite Prod.fst]

@[simp] theorem Dev.freeNotices_resp (l : List Notice) : (d.freeNotices l).resp = d.resp := by simp [Dev.freeNotices]
@[simp] theorem Dev.countIn_resp (hs : List Half) (off : Nat) : (d.countIn hs off).resp = d.resp := by simp [Dev.countIn]
@[simp] theorem Dev.retireGen_resp (job gen : Nat) : (d.retireGen job gen).resp = d.resp := by simp [Dev.retireGen]
@[simp] theorem Dev.combEnds_resp (seq i : Nat) : (d.combEnds seq i).resp = d.resp := by
  unfold Dev.combEnds
  split <;> simp

@[simp] theorem Dev.retireInstGens_resp (seq : Nat) : (d.retireInstGens seq).resp = d.resp := by simp [Dev.retireInstGens]
@[simp] theorem Dev.dropRouting_resp (job : Nat) : (d.dropRouting job).resp = d.resp := rfl
@[simp] theorem Dev.cutWaits_resp (seq i : Nat) : (d.cutWaits seq i).resp = d.resp := by
  unfold Dev.cutWaits
  dsimp only
  refine (Dev.foldl_resp _ _ (fun d r => ?_) _).trans (Dev.foldl_resp _ _ (fun d r => ?_) _)
  · refine Dev.foldl_resp _ _ (fun d h => ?_) _
    split <;> simp
  · split <;> simp

@[simp] theorem Wk.discard_resp (seq i : Nat) : (w.discard seq i).dev.resp = w.dev.resp := by
  unfold Wk.discard
  split
  · rfl
  · split <;> simp

@[simp] theorem Dev.dropJobState_resp (job : Nat) : (d.dropJobState job).resp = d.resp := by simp [Dev.dropJobState]
@[simp] theorem Dev.evictRetained_resp (f : Nat) : (d.evictRetained f).resp = d.resp := rfl
@[simp] theorem Dev.facetErr_resp (f : Nat) : (d.facetErr f).resp = d.resp := rfl
@[simp] theorem Dev.evictBad_resp (f : Nat) : (d.evictBad f).resp = d.resp := by
  unfold Dev.evictBad
  split
  · rfl
  · split <;> simp

@[simp] theorem Dev.noteContained_resp (h : Half) (status : Nat) (facet : Option Nat) :
    (d.noteContained h status facet).resp = d.resp := by
  simp only [Dev.noteContained]
  split <;> simp

@[simp] theorem Dev.countKill_resp (seq i : Nat) : (d.countKill seq i).resp = d.resp := by
  unfold Dev.countKill
  split
  · rfl
  · split <;> simp

/-! ### Ending nodes, instances and jobs -/

@[simp] theorem Dev.hand_resp (fn r : Nat) (h : HeldRec) : (d.hand fn r h).resp = d.resp := by simp [Dev.hand]
@[simp] theorem Dev.handGraph_resp (fn r : Nat) (bytes : List Byte) (irq : Bool) : (d.handGraph fn r bytes irq).resp = d.resp := by
  simp [Dev.handGraph]

@[simp] theorem Dev.setInst_resp (seq : Nat) (x : Inst) : (d.setInst seq x).resp = d.resp := rfl
@[simp] theorem Dev.onNode_resp (seq i : Nat) (f : Node → Node) : (d.onNode seq i f).resp = d.resp := by
  unfold Dev.onNode
  split
  · rfl
  · split <;> simp

@[simp] theorem Dev.freeExch_resp (seq : Nat) : (d.freeExch seq).resp = d.resp := rfl
@[simp] theorem Dev.closeNode_resp (seq i status : Nat) : (d.closeNode seq i status).resp = d.resp := by
  unfold Dev.closeNode
  split
  · rfl
  · split <;> simp

@[simp] theorem Wk.combRetire_resp (seq i : Nat) : (w.combRetire seq i).dev.resp = w.dev.resp := by
  unfold Wk.combRetire
  split
  · split
    · rfl
    · split
      · rfl
      · split <;> simp
  · rfl

@[simp] theorem Wk.closeNode_resp (seq i status : Nat) : (w.closeNode seq i status).dev.resp = w.dev.resp := by simp [Wk.closeNode]
@[simp] theorem Dev.closeInst_resp (seq : Nat) : (d.closeInst seq).resp = d.resp := by
  unfold Dev.closeInst
  split <;> simp

@[simp] theorem Wk.haltRing_resp (fn r job status : Nat) : (w.haltRing fn r job status).dev.resp = w.dev.resp := by simp [Wk.haltRing]
@[simp] theorem Wk.killAll_resp (seq status : Nat) : (w.killAll seq status).dev.resp = w.dev.resp := by
  unfold Wk.killAll
  split
  · rfl
  · refine Wk.foldl_resp _ _ (fun _ _ => ?_) _
    split <;> simp

@[simp] theorem Wk.disarm_resp (p : FrameGraph → Bool) : (w.disarm p).1.dev.resp = w.dev.resp := by
  unfold Wk.disarm
  refine Wk.foldl_fst_resp _ _ (fun wb fr => ?_) _
  dsimp only
  split <;> simp

@[simp] theorem Wk.jobFatal_resp (job status : Nat) : (w.jobFatal job status).dev.resp = w.dev.resp := by simp [Wk.jobFatal]
@[simp] theorem Dev.sparseCounts_resp (seq i : Nat) : (d.sparseCounts seq i).resp = d.resp := by
  unfold Dev.sparseCounts
  split
  · rfl
  · refine Dev.foldl_resp _ _ (fun _ _ => ?_) _
    split <;> simp

@[simp] theorem Wk.failNode_resp (seq i status d0 : Nat) : (w.failNode seq i status d0).dev.resp = w.dev.resp := by
  unfold Wk.failNode
  split
  · rfl
  · split <;> simp

@[simp] theorem Wk.fail_resp (seq i status d0 : Nat) : (w.fail seq i status d0).dev.resp = w.dev.resp := by
  unfold Wk.fail
  split
  · rfl
  · split <;> simp

@[simp] theorem Wk.killOne_resp (seq i : Nat) (counted : Bool) : (w.killOne seq i counted).dev.resp = w.dev.resp := by
  unfold Wk.killOne
  split <;> simp

@[simp] theorem Wk.killRerun_resp (seq i : Nat) (counted : Bool) : (w.killRerun seq i counted).dev.resp = w.dev.resp := by
  unfold Wk.killRerun
  split
  · rfl
  · dsimp only
    split
    · simp
    · split <;> simp

@[simp] theorem Dev.dropKeyed_resp (seq i : Nat) : (d.dropKeyed seq i).resp = d.resp := by
  unfold Dev.dropKeyed
  split <;> simp

@[simp] theorem Wk.contained_resp (seq i status d0 : Nat) (facet : Option Nat) (h : Half) (island : Nat) :
    (w.contained seq i status d0 facet h island).dev.resp = w.dev.resp := by
  unfold Wk.contained
  split
  · rfl
  · split <;> simp

@[simp] theorem Wk.raiseStatus_resp (seq i status d0 : Nat) (h : Half) : (w.raiseStatus seq i status d0 h).dev.resp = w.dev.resp := by
  simp [Wk.raiseStatus]

@[simp] theorem Wk.abortInst_resp (seq : Nat) : (w.abortInst seq).1.dev.resp = w.dev.resp := by
  unfold Wk.abortInst
  split <;> simp

@[simp] theorem Wk.abortQueued_resp (fn r : Nat) (p : List Byte → Bool) : (w.abortQueued fn r p).1.dev.resp = w.dev.resp := by
  unfold Wk.abortQueued
  refine Wk.foldl_fst_resp _ _ (fun wb n => ?_) _
  dsimp only
  split <;> simp

@[simp] theorem Dev.takeFrames_resp (seq i : Nat) (l : List Run) : (Dev.takeFrames seq i l d).resp = d.resp := by
  induction l generalizing d with
  | nil => simp [Dev.takeFrames]
  | cons r l ih =>
    unfold Dev.takeFrames
    split <;> simp [ih]

@[simp] theorem Wk.stage_resp (seq i : Nat) (rs : List Run) : (w.stage seq i rs).dev.resp = w.dev.resp := by
  unfold Wk.stage
  split <;> simp

@[simp] theorem Dev.readyToCommit_resp (seq i : Nat) : (d.readyToCommit seq i).resp = d.resp := by
  unfold Dev.readyToCommit
  split <;> simp

@[simp] theorem Dev.engineDone_resp (seq i : Nat) : (d.engineDone seq i).resp = d.resp := by simp [Dev.engineDone]

/-! ### Buffers and pools -/

@[simp] theorem Wk.rekeyUnit_resp (old new unit : Nat) : (w.rekeyUnit old new unit).dev.resp = w.dev.resp := rfl
@[simp] theorem Wk.rekey_resp (base size epoch : Nat) (zero : Bool) : (w.rekey base size epoch zero).dev.resp = w.dev.resp := by
  unfold Wk.rekey
  refine Wk.foldl_resp _ _ (fun w k => ?_) _
  rw [Wk.upd_dev, Dev.onHost_resp]
  split
  · rw [Wk.upd_dev, Dev.onHost_resp, Wk.wr_resp]
  · split
    · rw [Wk.ite_resp, Wk.foldl_resp _ _ fun w u => w.rekeyUnit_resp _ _ _, ite_self]
    · rfl

@[simp] theorem Wk.clear_resp (a n : Nat) : (w.clear a n).dev.resp = w.dev.resp := by
  rw [Wk.clear, Wk.ite_resp, Wk.wr_resp, Wk.foldl_resp _ _ fun w c => w.wr_resp _ _, ite_self]

@[simp] theorem Wk.commitAlloc_resp (h : Half) (p k flags : Nat) : (w.commitAlloc h p k flags).dev.resp = w.dev.resp := by
  unfold Wk.commitAlloc
  split <;> simp

@[simp] theorem Dev.onBuf_resp (base : Nat) (f : Buf → Buf) : (d.onBuf base f).resp = d.resp := rfl
@[simp] theorem Dev.poolCfg_resp (h : Half) (p size count : Nat) : (d.poolCfg h p size count).resp = d.resp := by simp [Dev.poolCfg]
@[simp] theorem Dev.setReserve_resp (h : Half) (p c v : Nat) : (d.setReserve h p c v).resp = d.resp := by simp [Dev.setReserve]
@[simp] theorem Wk.dropBuffers_resp (job : Nat) : (w.dropBuffers job).dev.resp = w.dev.resp := by
  unfold Wk.dropBuffers
  refine Wk.foldl_resp _ _ (fun _ _ => ?_) _
  dsimp only
  split
  · rfl
  · split <;> simp

/-! ### Rings and jobs -/

@[simp] theorem Dev.ringCfg_resp (who fn r : Nat) (v : Word32) : (d.ringCfg who fn r v).resp = d.resp := by simp [Dev.ringCfg]
@[simp] theorem Dev.evtCfg_resp (fn : Nat) (v : Word32) : (d.evtCfg fn v).resp = d.resp := by simp [Dev.evtCfg]
@[simp] theorem Dev.unmask_resp (fn v : Nat) : (d.unmask fn v).resp = d.resp := by simp [Dev.unmask]
@[simp] theorem Dev.jobResult_resp (fn res : Nat) : (d.jobResult fn res).resp = d.resp := by simp [Dev.jobResult]
@[simp] theorem Dev.jobCreate_resp (fn : Nat) : (d.jobCreate fn).resp = d.resp := by
  unfold Dev.jobCreate
  split <;> simp

@[simp] theorem Wk.removeJob_resp (job : Nat) : (w.removeJob job).dev.resp = w.dev.resp := by
  unfold Wk.removeJob
  split <;> simp

/-- A fold over rings keeps the answer when each ring's step does. -/
theorem Wk.foldl_rings_resp {β : Type} (g : Wk → Nat → Nat → β → Wk × Bool) (b : β)
    (h : ∀ w fn r, (g w fn r b).1.dev.resp = w.dev.resp) (l : List (Nat × Nat)) (w : Wk) :
    (l.foldl (fun w fr => (g w fr.1 fr.2 b).1) w).dev.resp = w.dev.resp :=
  Wk.foldl_resp l _ (fun w fr => h w fr.1 fr.2) w

@[simp] theorem Wk.forceRemove_resp (job : Nat) : (w.forceRemove job).dev.resp = w.dev.resp := by
  simp [Wk.forceRemove, Wk.foldl_rings_resp Wk.abortQueued _ fun w fn r => w.abortQueued_resp fn r _]

@[simp] theorem Wk.jobCtl_resp (fn action : Nat) : (w.jobCtl fn action).dev.resp = w.dev.resp := by
  unfold Wk.jobCtl
  dsimp only
  split
  · rfl
  · split
    · simp
    · split
      · simp
      · split <;> simp

/-! ### Secure Controllers -/

@[simp] theorem Dev.onSc_resp (h : Half) (f : Sc → Sc) : (d.onSc h f).resp = d.resp := rfl

/-! ### Refusals and ports -/

@[simp] theorem Wk.refusedAfter_resp (f : ReqFor) (dest status : Nat) (fs : List (Nat × Nat)) :
    (w.refusedAfter f dest status fs).dev.resp = w.dev.resp := by
  unfold Wk.refusedAfter
  split <;> simp

@[simp] theorem Wk.portTo_resp (p : Nat) (st : PortSt) : (w.portTo p st).dev.resp = w.dev.resp := by simp [Wk.portTo]

/-! ### Windows and acknowledgements -/

@[simp] theorem Dev.setWin_resp (src : Nat) (x : Win) : (d.setWin src x).resp = d.resp := rfl
@[simp] theorem Dev.sendRun_resp (src : Nat) (r : AckRun) : (d.sendRun src r).resp = d.resp := by simp [Dev.sendRun]
@[simp] theorem Dev.queueAck_resp (src seq status tc job : Nat) : (d.queueAck src seq status tc job).resp = d.resp := by
  unfold Dev.queueAck
  split
  · simp
  · split
    · rfl
    · split <;> simp

@[simp] theorem Dev.fenceAcks_resp (src : Nat) : (d.fenceAcks src).resp = d.resp := by
  unfold Dev.fenceAcks
  split <;> simp

@[simp] theorem Dev.regionSettle_resp : d.regionSettle.resp = d.resp := by simp [Dev.regionSettle]
@[simp] theorem Dev.leaveDone_resp (src seq : Nat) : (d.leaveDone src seq).resp = d.resp := by simp [Dev.leaveDone]
@[simp] theorem Dev.seqDone_resp (src seq tc job st : Nat) : (d.seqDone src seq tc job st).resp = d.resp := by simp [Dev.seqDone]
@[simp] theorem Wk.homeDone_resp (id : Nat) : (w.homeDone id).dev.resp = w.dev.resp := by
  unfold Wk.homeDone
  split <;> simp

@[simp] theorem Wk.fenceCheck_resp : w.fenceCheck.dev.resp = w.dev.resp := by simp [Wk.fenceCheck]
@[simp] theorem Wk.invalidateCheck_resp : w.invalidateCheck.dev.resp = w.dev.resp := by simp [Wk.invalidateCheck]
/-- An outcome that is settled keeps the answer, if the engine that hears of it does. -/
theorem Wk.settle_resp (hook : EngineHook) (hh : ∀ w t status, (hook w t status).dev.resp = w.dev.resp) (dest : Nat) (h : HeldReq)
    (status : Nat) : (w.settle hook dest h status).dev.resp = w.dev.resp := by
  unfold Wk.settle
  dsimp only
  split <;> simp [hh]

/-! ### Remote copies -/

@[simp] theorem Dev.countGateway_resp : d.countGateway.resp = d.resp := by simp [Dev.countGateway]
@[simp] theorem Wk.getFails_resp (id status : Nat) : (w.getFails id status).dev.resp = w.dev.resp := by
  unfold Wk.getFails
  split <;> simp

/-! ### Mirror: messages, cuts and pages -/

@[simp] theorem Wk.mirState_resp (st : Nat) (valid : Bool) : (w.mirState st valid).dev.resp = w.dev.resp := by simp [Wk.mirState]
@[simp] theorem Dev.mirWrite_resp (off : Nat) (bs : List Byte) : (d.mirWrite off bs).resp = d.resp := by simp [Dev.mirWrite]
@[simp] theorem Dev.mirAppend_resp (kind tag job addr a b c : Nat) (data : List Byte) :
    (d.mirAppend kind tag job addr a b c data).resp = d.resp := by
  simp [Dev.mirAppend]

@[simp] theorem Wk.cutRequest_resp (cause : Nat) : (w.cutRequest cause).dev.resp = w.dev.resp := by simp [Wk.cutRequest]
@[simp] theorem Wk.journalCause_resp : w.journalCause.dev.resp = w.dev.resp := by simp [Wk.journalCause]
@[simp] theorem Wk.mirAssign_resp : w.mirAssign.dev.resp = w.dev.resp := by
  unfold Wk.mirAssign
  split
  · rfl
  · refine Wk.foldl_resp _ _ (fun _ _ => ?_) _
    dsimp only
    split
    · rfl
    · split <;> simp

@[simp] theorem Wk.mirUnassign_resp : w.mirUnassign.dev.resp = w.dev.resp := by simp [Wk.mirUnassign]
@[simp] theorem Wk.mirSync_resp : w.mirSync.dev.resp = w.dev.resp := by simp [Wk.mirSync]
@[simp] theorem Wk.mirBufs_resp : w.mirBufs.dev.resp = w.dev.resp := by simp [Wk.mirBufs]
@[simp] theorem Wk.mirWake_resp (n : Nat) (closed : Bool) : (w.mirWake n closed).dev.resp = w.dev.resp := by simp [Wk.mirWake]
@[simp] theorem Dev.mirNext_resp : d.mirNext.resp = d.resp := rfl
@[simp] theorem Wk.cutFails_resp : w.cutFails.dev.resp = w.dev.resp := by
  unfold Wk.cutFails
  split <;> simp

@[simp] theorem Wk.mirStale_resp : w.mirStale.dev.resp = w.dev.resp := by simp [Wk.mirStale]
@[simp] theorem Dev.mirMsg_resp (dest kind a b c e : Nat) : (d.mirMsg dest kind a b c e).resp = d.resp := by simp [Dev.mirMsg]
@[simp] theorem Wk.tapEnds_resp (fid seq : Nat) (ok : Bool) : (w.tapEnds fid seq ok).dev.resp = w.dev.resp := by
  unfold Wk.tapEnds
  split <;> simp

/-! ### Collectives -/

@[simp] theorem Dev.onOp_resp (id : Nat) (f : CeOp → CeOp) : (d.onOp id f).resp = d.resp := by simp [Dev.onOp]
@[simp] theorem Wk.memberLost_resp (o : CeOp) (m : Nat) : (w.memberLost o m).dev.resp = w.dev.resp := by
  simp only [Wk.memberLost]
  split
  · simp
  · split <;> simp

@[simp] theorem Wk.endWith_resp (status : Nat) (si : Nat × Nat) : (w.endWith status si).dev.resp = w.dev.resp := by
  unfold Wk.endWith
  split <;> simp

@[simp] theorem Wk.endDepends_resp (status seq : Nat) (is : List Nat) : (w.endDepends status seq is).dev.resp = w.dev.resp := by
  unfold Wk.endDepends
  split <;> simp

@[simp] theorem Wk.ceEnd_resp (id status d0 : Nat) : (w.ceEnd id status d0).dev.resp = w.dev.resp := by
  simp only [Wk.ceEnd]
  repeat' split
  all_goals simp

@[simp] theorem Wk.ceHook_resp (t : Txn) (status : Nat) : (w.ceHook t status).dev.resp = w.dev.resp := by
  unfold Wk.ceHook
  split
  · rfl
  · split
    · rfl
    · split
      · rfl
      · split
        · simp
        · split
          · simp
          · split <;> simp

@[simp] theorem Dev.groupResult_resp (r : Nat) : (d.groupResult r).resp = d.resp := by simp [Dev.groupResult]
@[simp] theorem Dev.groupInstall_resp (k : Nat) : (d.groupInstall k).resp = d.resp := by simp [Dev.groupInstall]
@[simp] theorem Wk.groupReform_resp (k : Nat) : (w.groupReform k).dev.resp = w.dev.resp := by
  unfold Wk.groupReform
  split
  · rfl
  · split <;> simp

@[simp] theorem Dev.groupRemove_resp (k : Nat) : (d.groupRemove k).resp = d.resp := by simp [Dev.groupRemove]
@[simp] theorem Dev.groupLookup_resp (k : Nat) : (d.groupLookup k).resp = d.resp := by
  unfold Dev.groupLookup
  split <;> simp

@[simp] theorem Wk.groupCtl_resp (v : Nat) : (w.groupCtl v).dev.resp = w.dev.resp := by
  unfold Wk.groupCtl
  split <;> simp

@[simp] theorem Dev.memberWrite_resp (v : Nat) : (d.memberWrite v).resp = d.resp := by simp [Dev.memberWrite]

/-! ### Regions, readers, routes and ports -/

@[simp] theorem Dev.regionResult_resp (r : Nat) : (d.regionResult r).resp = d.resp := by simp [Dev.regionResult]
@[simp] theorem Dev.regionInstall_resp : d.regionInstall.resp = d.resp := by simp [Dev.regionInstall]
@[simp] theorem Dev.regionDrop_resp (e : Region) : (d.regionDrop e).resp = d.resp := by simp [Dev.regionDrop]
@[simp] theorem Dev.regionRemove_resp : d.regionRemove.resp = d.resp := by
  simp only [Dev.regionRemove]
  split <;> simp

@[simp] theorem Dev.regionLookup_resp : d.regionLookup.resp = d.resp := by
  simp only [Dev.regionLookup]
  split <;> simp

@[simp] theorem Dev.regionCtl_resp (v : Nat) : (d.regionCtl v).resp = d.resp := by simp [Dev.regionCtl]
@[simp] theorem Dev.routeWrite_resp (lo hi : Nat) : (d.routeWrite lo hi).resp = d.resp := by simp [Dev.routeWrite]
@[simp] theorem Dev.setupHashWrite_resp (lo hi : Nat) : (d.setupHashWrite lo hi).resp = d.resp := by simp [Dev.setupHashWrite]
@[simp] theorem Dev.readerCtl_resp (v : Nat) : (d.readerCtl v).resp = d.resp := by
  unfold Dev.readerCtl
  dsimp only
  split
  · rfl
  split
  · rw [Dev.setupChanged_resp, Dev.onFab_resp]
  split
  · rw [Dev.setupChanged_resp, Dev.onFab_resp]
  split
  · exact Dev.foldl_resp _ _ (fun d i => d.setReg_resp _ _ _) _
  · rfl

@[simp] theorem Dev.setRemote_resp (job : Nat) (on : Bool) : (d.setRemote job on).resp = d.resp := by
  unfold Dev.setRemote
  split <;> simp

@[simp] theorem Dev.remoteCtl_resp (v : Nat) : (d.remoteCtl v).resp = d.resp := by simp [Dev.remoteCtl]
@[simp] theorem Wk.portEnable_resp (p : Nat) : (w.portEnable p).dev.resp = w.dev.resp := by simp [Wk.portEnable]
@[simp] theorem Wk.portCfgWrite_resp (b v : Nat) : (w.portCfgWrite b v).dev.resp = w.dev.resp := by simp [Wk.portCfgWrite]

/-! ### Expert fetches -/

@[simp] theorem Dev.onFetch_resp (seq i : Nat) (g : Fetch → Fetch) : (d.onFetch seq i g).resp = d.resp := rfl
@[simp] theorem Dev.askPiece_resp (h : Half) (seq i job e : Nat) (en : Entry) (p : Nat × Nat) :
    (d.askPiece h seq i job e en p).resp = d.resp := by
  simp [Dev.askPiece]

@[simp] theorem Dev.onStream_resp (seq i k : Nat) (g : Stream → Stream) : (d.onStream seq i k g).resp = d.resp := rfl
@[simp] theorem Dev.pumpStream_resp (f : Fetch) (k : Nat) (s : Stream) : (d.pumpStream f k s).resp = d.resp := by simp [Dev.pumpStream]
@[simp] theorem Dev.pumpStaged_resp (f : Fetch) (s : Staged) : (d.pumpStaged f s).resp = d.resp := by simp [Dev.pumpStaged]
@[simp] theorem Dev.efuPump_resp : d.efuPump.resp = d.resp := by simp [Dev.efuPump]
@[simp] theorem Dev.evictWhile_resp (h : Half) (bad : Dev → Bool) (k : Nat) : (d.evictWhile h bad k).resp = d.resp := by
  induction k generalizing d with
  | zero => rfl
  | succ k ih =>
    unfold Dev.evictWhile
    split
    · rfl
    · split
      · rfl
      · simp [ih]

@[simp] theorem Dev.evictUntil_resp (h : Half) (bad : Dev → Bool) : (d.evictUntil h bad).resp = d.resp := by simp [Dev.evictUntil]

/-! ### Remote loads -/

@[simp] theorem Wk.loadFails_resp (f seq i attempt id status : Nat) :
    (w.loadFails f seq i attempt id status).dev.resp = w.dev.resp := by
  unfold Wk.loadFails
  split
  · rfl
  · split <;> simp

/-! ### Residents and failed experts -/

@[simp] theorem Dev.residentTrim_resp (h : Half) : (d.residentTrim h).resp = d.resp := by simp [Dev.residentTrim]
@[simp] theorem Dev.predClear_resp (h : Half) (v : Nat) : (d.predClear h v).resp = d.resp := rfl
@[simp] theorem Dev.dropReads_resp (p : ReadFor → Bool) : (d.dropReads p).resp = d.resp := rfl
@[simp] theorem Wk.streamFails_resp (f : Fetch) (s : Stream) (status d0 : Nat) :
    (w.streamFails f s status d0).dev.resp = w.dev.resp := by
  simp [Wk.streamFails]

@[simp] theorem Wk.expertFails_resp (seq i e status : Nat) : (w.expertFails seq i e status).dev.resp = w.dev.resp := by
  unfold Wk.expertFails
  split
  · rfl
  · split <;> simp

/-! ### Routing contexts -/

@[simp] theorem Dev.ctxHighWrite_resp (h : Half) : (d.ctxHighWrite h).resp = d.resp := by simp [Dev.ctxHighWrite]

/-! ### Mirror: set-up and restore -/

@[simp] theorem Wk.cutClosed_resp (n free : Nat) : (w.cutClosed n free).dev.resp = w.dev.resp := by
  unfold Wk.cutClosed
  split
  · rfl
  · dsimp only
    split
    · rfl
    · rw [Wk.mirWake_resp, Wk.upd_dev, Dev.mirNext_resp, Wk.ite_resp]
      simp

@[simp] theorem Wk.mirHook_resp (t : Txn) (status : Nat) : (w.mirHook t status).dev.resp = w.dev.resp := by simp [Wk.mirHook]
@[simp] theorem Wk.mirOff_resp : w.mirOff.dev.resp = w.dev.resp := by simp [Wk.mirOff]
@[simp] theorem Wk.partnerWrite_resp (v : Nat) : (w.partnerWrite v).dev.resp = w.dev.resp := by simp [Wk.partnerWrite]
@[simp] theorem Wk.mirRoute_resp (dest : Nat) : (w.mirRoute dest).dev.resp = w.dev.resp := by simp [Wk.mirRoute]
@[simp] theorem Wk.hostHeader_resp (h : Half) : (w.hostHeader h).dev.resp = w.dev.resp := by simp [Wk.hostHeader]
@[simp] theorem Wk.hostWrite_resp (h : Half) (v : Nat) : (w.hostWrite h v).dev.resp = w.dev.resp := by simp [Wk.hostWrite]
@[simp] theorem Wk.mirJobCtl_resp (v : Nat) : (w.mirJobCtl v).dev.resp = w.dev.resp := by
  simp only [Wk.mirJobCtl]
  split
  · simp
  · split <;> simp

@[simp] theorem Dev.onRestore_resp (f : MirRestore → MirRestore) : (d.onRestore f).resp = d.resp := rfl
@[simp] theorem Dev.restoreAsk_resp (r : MirRestore) (off n : Nat) : (d.restoreAsk r off n).resp = d.resp := by simp [Dev.restoreAsk]
@[simp] theorem Wk.restoreEnd_resp (result : Nat) : (w.restoreEnd result).dev.resp = w.dev.resp := by simp [Wk.restoreEnd]
@[simp] theorem Wk.restoreRead_resp (step off n : Nat) : (w.restoreRead step off n).dev.resp = w.dev.resp := by
  simp only [Wk.restoreRead]
  split <;> simp

/-- A folded step that keeps the answer, or gives up, keeps the answer. -/
theorem Wk.foldl_option_resp {α : Type} (l : List α) (f : Option Wk → α → Option Wk) (r : Resp)
    (h : ∀ o x, (∀ v ∈ o, v.dev.resp = r) → ∀ v ∈ f o x, v.dev.resp = r) (o : Option Wk) (ho : ∀ v ∈ o, v.dev.resp = r) :
    ∀ v ∈ l.foldl f o, v.dev.resp = r :=
  List.foldlRecOn (motive := fun o : Option Wk => ∀ v ∈ o, v.dev.resp = r) l f ho fun o ho x _ => h o x ho

theorem Wk.restoreCreate_resp (x : CutSections) (mode : Nat) : ∀ v ∈ w.restoreCreate x mode, v.dev.resp = w.dev.resp := by
  unfold Wk.restoreCreate
  dsimp only
  split
  · simp
  · refine Wk.foldl_option_resp _ _ _ (fun o b ho => ?_) _ (Wk.foldl_option_resp _ _ _ (fun o j ho => ?_) _ (by simp))
    · cases o with
      | none => simp
      | some u =>
        have hu := ho u rfl
        dsimp only
        split
        · simp
        · split <;> simp [hu]
    · cases o with
      | none => simp
      | some u =>
        have hu := ho u rfl
        dsimp only
        split <;> simp [hu]

@[simp] theorem Wk.restoreNext_resp : w.restoreNext.dev.resp = w.dev.resp := by
  unfold Wk.restoreNext
  split
  · rfl
  · dsimp only
    split
    · simp
    split
    · simp
    split
    · split
      · simp
      · split
        · simp
        · rename_i v hv
          simp [Wk.restoreCreate_resp w _ _ v hv]
    · simp

@[simp] theorem Wk.restoreGot_resp (n : Nat) : (w.restoreGot n).dev.resp = w.dev.resp := by
  simp only [Wk.restoreGot]
  split <;> simp

@[simp] theorem Wk.restoreFails_resp (at_ n status : Nat) : (w.restoreFails at_ n status).dev.resp = w.dev.resp := by
  unfold Wk.restoreFails
  split <;> simp

@[simp] theorem Wk.restoreStart_resp (v : Nat) : (w.restoreStart v).dev.resp = w.dev.resp := by simp [Wk.restoreStart]

/-! ### Job start -/

@[simp] theorem Dev.onStart_resp (f : JStart → JStart) : (d.onStart f).resp = d.resp := rfl
@[simp] theorem Dev.startStatus_resp (result status parent : Nat) : (d.startStatus result status parent).resp = d.resp := by
  simp [Dev.startStatus]

@[simp] theorem Wk.ownSector_resp (state : Nat) : (w.ownSector state).dev.resp = w.dev.resp := by
  unfold Wk.ownSector
  split <;> simp

@[simp] theorem Wk.startFails_resp (status : Nat) : (w.startFails status).dev.resp = w.dev.resp := by
  unfold Wk.startFails
  split <;> simp

@[simp] theorem Dev.sectorTo_resp (x : JStart) (to_ i : Nat) (bs : List Byte) : (d.sectorTo x to_ i bs).resp = d.resp := by
  simp [Dev.sectorTo]

@[simp] theorem Wk.startCheck_resp : w.startCheck.dev.resp = w.dev.resp := by
  unfold Wk.startCheck
  split <;> simp

@[simp] theorem Wk.childLost_resp (c : Nat) : (w.childLost c).dev.resp = w.dev.resp := by
  unfold Wk.childLost
  split <;> simp

@[simp] theorem Wk.parentLost_resp : w.parentLost.dev.resp = w.dev.resp := by
  unfold Wk.parentLost
  split <;> simp

@[simp] theorem Wk.startReadFails_resp (id : Nat) (member : Option Nat) (status : Nat) :
    (w.startReadFails id member status).dev.resp = w.dev.resp := by
  unfold Wk.startReadFails
  split
  · rfl
  · split
    · rfl
    · split
      · split <;> simp
      · simp

@[simp] theorem Wk.startHook_resp (t : Txn) (status : Nat) : (w.startHook t status).dev.resp = w.dev.resp := by
  unfold Wk.startHook
  split <;> simp

@[simp] theorem Wk.startBegin_resp : w.startBegin.dev.resp = w.dev.resp := by
  simp only [Wk.startBegin]
  split
  · simp
  · split <;> simp

@[simp] theorem Wk.jstartCtl_resp (v : Nat) : (w.jstartCtl v).dev.resp = w.dev.resp := by simp [Wk.jstartCtl]

/-! ### Clocks -/

@[simp] theorem Wk.clockEvent_resp (map old new : Nat) : (w.clockEvent map old new).dev.resp = w.dev.resp := by simp [Wk.clockEvent]
@[simp] theorem Wk.setClk_resp (h : Half) (mhz : Nat) : (w.setClk h mhz).dev.resp = w.dev.resp := by simp [Wk.setClk]
@[simp] theorem Wk.facetClkWrite_resp (v : Word32) : (w.facetClkWrite v).dev.resp = w.dev.resp := by simp [Wk.facetClkWrite]
@[simp] theorem Wk.thermal_resp : w.thermal.dev.resp = w.dev.resp := by simp [Wk.thermal]
@[simp] theorem Wk.thermCfgWrite_resp (v : Word32) : (w.thermCfgWrite v).dev.resp = w.dev.resp := by simp [Wk.thermCfgWrite]

/-! ### Failed reads and lost destinations -/

@[simp] theorem engineHook_resp (t : Txn) (status : Nat) : (engineHook w t status).dev.resp = w.dev.resp := by
  simp [engineHook]

@[simp] theorem Wk.readFails_resp (r : OutRead) (dest status : Nat) : (w.readFails r dest status).dev.resp = w.dev.resp := by
  unfold Wk.readFails
  split
  · split <;> simp
  all_goals simp

@[simp] theorem Wk.giveUp_resp (dest : Nat) (lost : Option Nat → Bool) : (w.giveUp dest lost).dev.resp = w.dev.resp := by
  simp [Wk.giveUp, Wk.settle_resp _ _ engineHook_resp]

@[simp] theorem Wk.routeSet_resp (lo hi : Nat) : (w.routeSet lo hi).dev.resp = w.dev.resp := by
  simp only [Wk.routeSet]
  split <;> simp

/-! ### Mailbox -/

@[simp] theorem Dev.mailboxAnswer_resp (h : Half) (m : List Byte) : (d.mailboxAnswer h m).resp = d.resp := by simp [Dev.mailboxAnswer]
@[simp] theorem Dev.mailboxGo_resp (h : Half) (v : Word32) : (d.mailboxGo h v).resp = d.resp := by simp [Dev.mailboxGo]

/-! ### Register writes -/

@[simp] theorem Dev.trainTable_resp (base : Nat) : (d.trainTable base).resp = d.resp := by
  simp only [Dev.trainTable]
  split <;> simp

@[simp] theorem Dev.retainWrite_resp (h : Half) (v : Nat) : (d.retainWrite h v).resp = d.resp := by simp [Dev.retainWrite]
@[simp] theorem Dev.powerCapWrite_resp (v : Nat) : (d.powerCapWrite v).resp = d.resp := by simp [Dev.powerCapWrite]
@[simp] theorem Dev.plainWrite_resp (h : Half) (row : RegRow) (off : Nat) (v : Word32) : (d.plainWrite h row off v).resp = d.resp := by
  simp [Dev.plainWrite]

@[simp] theorem Wk.pairCommit_resp (h : Half) (row : RegRow) (off fn lo hi : Nat) :
    (w.pairCommit h row off fn lo hi).dev.resp = w.dev.resp := by
  simp [Wk.pairCommit]

@[simp] theorem Wk.writeTopHost_resp (h : Half) (who : Nat) (row : RegRow) (off fn : Nat) (v : Word32) :
    (w.writeTopHost h who row off fn v).dev.resp = w.dev.resp := by
  simp [Wk.writeTopHost]

@[simp] theorem Wk.writeEngine_resp (h : Half) (row : RegRow) (off : Nat) (v : Word32) :
    (w.writeEngine h row off v).dev.resp = w.dev.resp := by
  simp [Wk.writeEngine]

@[simp] theorem Wk.writeFar_resp (h : Half) (row : RegRow) (off : Nat) (v : Word32) :
    (w.writeFar h row off v).dev.resp = w.dev.resp := by
  simp [Wk.writeFar]

@[simp] theorem Wk.regEffect_resp (who : Nat) (h : Half) (off : Nat) (v : Word32) :
    (w.regEffect who h off v).dev.resp = w.dev.resp := by
  simp only [Wk.regEffect]
  split
  · split <;> simp
  · simp

@[simp] theorem Wk.regWrite_resp (who : Nat) (h : Half) (off : Nat) (v : Word32) : (w.regWrite who h off v).dev.resp = w.dev.resp := by
  unfold Wk.regWrite
  split <;> simp

@[simp] theorem Dev.msixWrite_resp (k : Nat × Nat × Nat) (v : Word32) : (d.msixWrite k v).resp = d.resp := by
  simp only [Dev.msixWrite]
  split <;> simp

end

end Sys2Proof.Machine
end

section
/-! PROOFS. Register accesses of the host through BAR0 and BAR2 (R7, R8, R547 to R552). -/

namespace Sys2Proof.Machine

open Sys2Proof

/-! ### The access path of a register (R7, R545) -/

theorem wordAccess_iff (off size : Nat) : wordAccess off size = true ↔ size = 4 ∧ off % 4 = 0 := by
  simp [wordAccess]

theorem wordAccess_eq_false (off size : Nat) : wordAccess off size = false ↔ size ≠ 4 ∨ off % 4 ≠ 0 := by
  rw [Bool.eq_false_iff, ne_eq, wordAccess_iff, not_and_or]

theorem Wk.bar0Write_unaligned (w : Wk) (fn off size : Nat) (v : Word32) (h : wordAccess off size = false) :
    w.bar0Write fn off size v = w.upd fun d => { d with resp := .unsupported } := by
  simp [Wk.bar0Write, h]

theorem Wk.hostRead_unaligned (w : Wk) (fn bar off size : Nat) (h : wordAccess off size = false) :
    w.hostRead fn bar off size = w.upd fun d => { d with resp := .unsupported } := by
  simp [Wk.hostRead, h]

/-- A write of an aligned word is answered with a Successful Completion, whatever it does (R7). -/
theorem Wk.bar0Write_resp (w : Wk) (fn off size : Nat) (v : Word32) (h : wordAccess off size = true) :
    (w.bar0Write fn off size v).dev.resp = .ok := by
  simp only [Wk.bar0Write, h, not_true_eq_false, if_false]
  split
  · split <;> simp
  · split
    · rfl
    · split <;> simp

/-! ### No register stands in the MSI-X table or the pending bit array (R276, R304) -/

theorem RegRow.lt_of_covers {r : RegRow} {off : Nat} (hs : 0 < r.s1) (h : r.covers off = true) :
    r.off ≤ off ∧ off < r.off + r.n1 * r.s1 := by
  simp only [RegRow.covers, Bool.and_eq_true, decide_eq_true_eq] at h
  obtain ⟨hle, ⟨hlt, -⟩, -⟩ := h
  have := (Nat.div_lt_iff_lt_mul hs).1 hlt
  omega

theorem regsHost_avoid_msix : ∀ r ∈ regsHost, 0 < r.s1 ∧ (r.off + r.n1 * r.s1 ≤ 0x18000 ∨ 0x18804 ≤ r.off) := by
  decide

theorem findRow_msix {off : Nat} {row : RegRow} (h : findRow off = some row) : ¬ (0x18000 ≤ off ∧ off < 0x18804) := by
  rintro ⟨hlo, hhi⟩
  have hrows : rowsAt off = regsHost := by
    unfold rowsAt
    rw [if_neg (by omega), if_pos (by omega)]
  rw [findRow, hrows] at h
  obtain ⟨hs, hfar⟩ := regsHost_avoid_msix row (List.mem_of_find?_eq_some h)
  have := RegRow.lt_of_covers hs (List.find?_some (p := fun r : RegRow => r.covers off) h)
  omega

/-! ### A register of a half window, through the PF or the standby function (R545) -/

/-- Offset in BAR0 of the PF or the standby function of an offset of a half window. -/
def barOff (win : Half) (off : Nat) : Nat := win.code * 2 ^ 24 + off

theorem barOff_lt (win : Half) {off : Nat} (h : off < 2 ^ 24) : barOff win off < 2 ^ 25 := by
  cases win <;> simp only [barOff, Half.code] <;> omega

theorem barOff_div (win : Half) {off : Nat} (h : off < 2 ^ 24) : barOff win off / 2 ^ 24 = win.code := by
  simp only [barOff]; omega

theorem barOff_mod (win : Half) {off : Nat} (h : off < 2 ^ 24) : barOff win off % 2 ^ 24 = off := by
  simp only [barOff]; omega

theorem wordAccess_barOff (win : Half) {off : Nat} (h : off % 4 = 0) : wordAccess (barOff win off) 4 = true := by
  rw [wordAccess_iff]
  exact ⟨rfl, by simp only [barOff]; omega⟩

theorem ofCode_code (win : Half) : Half.ofCode win.code = win := by cases win <;> rfl

/-- What the access rules assume of an access: a port carries the function, the PF or the standby function, and a register
stands at the aligned offset of the half window. -/
structure Dev.AtReg (d : Dev) (fn off : Nat) (row : RegRow) : Prop where
  port : (d.fnHalf fn).isSome = true
  who : fn = 0 ∨ fn = 0x40
  lt : off < 2 ^ 24
  aligned : off % 4 = 0
  row : findRow off = some row

theorem Dev.AtReg.msixWord {d : Dev} {fn off : Nat} {row : RegRow} (h : d.AtReg fn off row) (win : Half) :
    d.msixWord fn (barOff win off) = none := by
  obtain ⟨hf, hfn⟩ := Option.isSome_iff_exists.1 h.port
  have hmsix := findRow_msix h.row
  have hno : ¬ (barOff win off < 2 ^ 25 ∧ 0x18000 ≤ off ∧ off < 0x18200) := by omega
  simp only [Dev.msixWord, hfn, if_pos h.who, barOff_mod win h.lt, if_neg hno]

theorem Dev.AtReg.readMsix {d : Dev} {fn off : Nat} {row : RegRow} (h : d.AtReg fn off row) (win : Half) :
    d.readMsix fn (barOff win off) = none := by
  have hmsix := findRow_msix h.row
  have hno : ¬ (barOff win off < 2 ^ 25 ∧ off = 0x18800) := by omega
  simp only [Dev.readMsix, h.msixWord win, if_pos h.who, barOff_mod win h.lt, if_neg hno]

theorem Dev.AtReg.bar0 {d : Dev} {fn off : Nat} {row : RegRow} (h : d.AtReg fn off row) (win : Half) :
    d.bar0 fn (barOff win off) = some (win, off) := by
  obtain ⟨hf, hfn⟩ := Option.isSome_iff_exists.1 h.port
  simp only [Dev.bar0, hfn, if_pos h.who, if_pos (barOff_lt win h.lt), barOff_div win h.lt, barOff_mod win h.lt, ofCode_code]

/-- A write of a word reaches the register at its offset of the half window, and is completed at once. -/
theorem Wk.bar0Write_window {w : Wk} {fn off : Nat} {row : RegRow} (h : w.dev.AtReg fn off row) (win : Half) (v : Word32) :
    w.bar0Write fn (barOff win off) 4 v = (w.upd fun d => { d with resp := .ok }).regWrite fn win off v := by
  have hn : (w.upd fun d => { d with resp := .ok }).dev.AtReg fn off row := ⟨h.port, h.who, h.lt, h.aligned, h.row⟩
  have hvf : ¬ (fn ≠ 0 ∧ fn ≠ 0x40 ∧ 0x800 ≤ barOff win off) := by have := h.who; omega
  simp only [Wk.bar0Write, wordAccess_barOff win h.aligned, not_true_eq_false, if_false, hn.msixWord win, hn.bar0 win, if_neg hvf]

/-- A read of a word through BAR0 reads the register at its offset of the half window. -/
theorem Wk.hostRead_window {w : Wk} {fn off : Nat} {row : RegRow} (h : w.dev.AtReg fn off row) (win : Half) :
    w.hostRead fn 0 (barOff win off) 4 = w.regRead fn win off := by
  simp only [Wk.hostRead, wordAccess_barOff win h.aligned, not_true_eq_false, if_false, h.readMsix win, h.bar0 win]
  rfl

/-! ### What a write that has reached its register does (R547 to R551) -/

theorem Wk.regWrite_readOnly {w : Wk} {off : Nat} {row : RegRow} (hrow : findRow off = some row) (hro : row.acc = .ro) (who : Nat)
    (h : Half) (v : Word32) : w.regWrite who h off v = w := by
  simp only [Wk.regWrite, hrow, hro, true_or, if_true]

/-- The half window takes a write of the PF or the standby function to a register that is not read-only. -/
structure Wk.Takes (w : Wk) (fn : Nat) (win : Half) (row : RegRow) : Prop where
  who : fn = 0 ∨ fn = 0x40
  writable : row.acc ≠ .ro
  lives : w.dev.windowLives win = true
  ready : w.dev.top.ready = true
  runs : w.dev.top.stopped = false

theorem Wk.Takes.regWrite {w : Wk} {fn off : Nat} {win : Half} {row : RegRow} (h : w.Takes fn win row) (hrow : findRow off = some row)
    (v : Word32) :
    w.regWrite fn win off v =
      if row.scope ≠ .lead then w.regEffect fn win off v
      else if ¬ (w.dev.top.lead.get win).leads win then w
      else if (w.dev.top.lead.get win).st = .degraded then w.regEffect fn win off v
      else w.upd (·.onTgu fun t => { t with lwrites := t.lwrites ++ [⟨fn, win, off, v, false⟩] }) := by
  obtain ⟨hwho, hacc, hlives, hready, hruns⟩ := h
  have hvf : (fn != 0 && fn != 0x40) = false := by rcases hwho with rfl | rfl <;> rfl
  simp [Wk.regWrite, hrow, hvf, hacc, hlives, hready, hruns]

/-- A write that is taken has its register's effect at once, to a lead-only register if the half leads alone. -/
theorem Wk.regWrite_atOnce {w : Wk} {fn off : Nat} {win : Half} {row : RegRow} (h : w.Takes fn win row) (hrow : findRow off = some row)
    (hlead : row.scope = .lead → (w.dev.top.lead.get win).leads win = true ∧ (w.dev.top.lead.get win).st = .degraded) (v : Word32) :
    w.regWrite fn win off v = w.regEffect fn win off v := by
  rw [h.regWrite hrow]
  by_cases hscope : row.scope = .lead
  · obtain ⟨hleads, hdeg⟩ := hlead hscope
    simp [hscope, hleads, hdeg]
  · rw [if_pos hscope]

/-- In a half that leads in NORMAL, a write to a lead-only register joins the writes for the next batch (R548). -/
theorem Wk.regWrite_joins {w : Wk} {fn off : Nat} {win : Half} {row : RegRow} (h : w.Takes fn win row) (hrow : findRow off = some row)
    (hscope : row.scope = .lead) (hleads : (w.dev.top.lead.get win).leads win = true) (hst : (w.dev.top.lead.get win).st = .normal)
    (v : Word32) :
    w.regWrite fn win off v = w.upd (·.onTgu fun t => { t with lwrites := t.lwrites ++ [⟨fn, win, off, v, false⟩] }) := by
  simp [h.regWrite hrow, hscope, hleads, hst]

/-! ### Pairs (R8, R552) -/

theorem Wk.regEffect_lo {w : Wk} {off p : Nat} {row : RegRow} {h : Half} (hrow : findRow off = some row) (hpart : row.part = .lo)
    (hwin : w.dev.windowOf h off = some p) (who : Nat) (v : Word32) :
    w.regEffect who h off v = w.upd fun d => { d with hold := aput d.hold (holdKey h row off) v } := by
  simp only [Wk.regEffect, hrow, hwin, hpart]

/-- The live value of the low word of the pair whose _HI stands at an offset. -/
def Dev.liveLow (d : Dev) (h : Half) (off : Nat) : Word32 :=
  match findRow (off - 4) with
  | some r => d.live h r (off - 4)
  | none => 0

theorem Wk.regEffect_hi {w : Wk} {off p : Nat} {row : RegRow} {h : Half} (hrow : findRow off = some row) (hpart : row.part = .hi)
    (hwin : w.dev.windowOf h off = some p) (who : Nat) (v : Word32) :
    w.regEffect who h off v =
      (w.upd fun d => { d with hold := adel d.hold (holdKey h row off) }).pairCommit h row off p
        ((aget w.dev.hold (holdKey h row off)).getD (w.dev.liveLow h off)).toNat v.toNat := by
  simp only [Wk.regEffect, hrow, hwin, hpart]
  rfl

theorem Wk.regRead_lo {w : Wk} {off : Nat} {row : RegRow} (hrow : findRow off = some row) (hpart : row.part = .lo) (fn : Nat) (h : Half) :
    w.regRead fn h off = w.upd fun d =>
      { d with resp := .word ((w.afterOwn fn h off).readWindow h off),
               capt := aput d.capt (fn, holdKey h row off) ((w.afterOwn fn h off).readWindow h (off + 4)) } := by
  simp only [Wk.regRead, hrow, hpart]

theorem Wk.regRead_hi {w : Wk} {off : Nat} {row : RegRow} (hrow : findRow off = some row) (hpart : row.part = .hi) (fn : Nat) (h : Half) :
    w.regRead fn h off = w.upd fun d =>
      { d with resp := .word ((aget d.capt (fn, holdKey h row off)).getD ((w.afterOwn fn h off).readWindow h off)),
               capt := adel d.capt (fn, holdKey h row off) } := by
  simp only [Wk.regRead, hrow, hpart]

theorem Wk.regRead_plain {w : Wk} {off : Nat} {row : RegRow} (hrow : findRow off = some row) (hpart : row.part = .plain) (fn : Nat)
    (h : Half) :
    w.regRead fn h off = w.upd fun d => { d with resp := .word ((w.afterOwn fn h off).readWindow h off) } := by
  simp only [Wk.regRead, hrow, hpart]

/-! ### The four commands at a register of a half window -/

section
variable {s : State} {fn now off : Nat} {row : RegRow}

theorem exec_registerWrite_window (h : (s.devAt now).AtReg fn off row) (win : Half) (v : Word32) :
    exec (.registerWrite fn (barOff win off) 4 v now) s = .next (s.put ((s.posted now).regWrite fn win off v)) :=
  congrArg (finish s) (Wk.bar0Write_window (w := s.start.at_ now) h win v)

theorem exec_pairHiWrite_window (h : (s.devAt now).AtReg fn off row) (win : Half) (v : Word32) :
    exec (.pairHiWrite fn (barOff win off) v now) s = .next (s.put ((s.posted now).regWrite fn win off v)) :=
  congrArg (finish s) (Wk.bar0Write_window (w := s.start.at_ now) h win v)

theorem exec_pairLoWrite_window (h : s.dev.AtReg fn off row) (win : Half) (v : Word32) :
    exec (.pairLoWrite fn (barOff win off) v) s =
      .next (s.put ((s.start.upd fun d => { d with resp := .ok }).regWrite fn win off v)) :=
  congrArg (finish s) (Wk.bar0Write_window (w := s.start) h win v)

theorem exec_pairLoRead_window (h : (s.devAt now).AtReg fn off row) (win : Half) :
    exec (.pairLoRead fn 0 (barOff win off) 4 now) s = .next (s.put ((s.start.at_ now).regRead fn win off)) :=
  congrArg (finish s) (Wk.hostRead_window (w := s.start.at_ now) h win)

end

/-! ### The statements -/

/-- Settles O54: an access that is no aligned word never gets past the check of R7, and no effect of a register write changes the
answer that the write was given before it. -/
theorem hostWordAccess : Obligations.HostWordAccess := by
  intro s fn off size now v
  refine ⟨fun h => ?refused, fun hsize haligned => ?posted⟩
  case refused =>
    have hw := (wordAccess_eq_false off size).2 h
    exact ⟨fun bar => congrArg (finish s) ((s.start.at_ now).hostRead_unaligned fn bar off size hw),
      congrArg (finish s) ((s.start.at_ now).bar0Write_unaligned fn off size v hw)⟩
  case posted =>
    have hw := (wordAccess_iff off size).2 ⟨hsize, haligned⟩
    exact ⟨_, rfl, (s.start.at_ now).bar0Write_resp fn off size v hw⟩

/-- Settles O51: an access of the PF or the standby function reaches its register, and what is then done is that of the
register's part, scope and access code. -/
theorem registerAccessRules : Obligations.RegisterAccessRules := by
  intro s fn now off win v row bar d seen hport hwho hlt haligned hrow
  have hn : (s.devAt now).AtReg fn off row := ⟨hport, hwho, hlt, haligned, hrow⟩
  have hw := exec_registerWrite_window hn win v
  have hr := exec_pairLoRead_window hn win
  have takes (hacc : row.acc ≠ .ro) (hlives : d.windowLives win = true) (hready : d.top.ready = true) (hruns : d.top.stopped = false) :
      (s.posted now).Takes fn win row := ⟨hwho, hacc, hlives, hready, hruns⟩
  have atOnce (hacts : s.Acts fn win now (row.scope == .lead)) (hacc : row.acc ≠ .ro) :
      (s.posted now).regWrite fn win off v = (s.posted now).regEffect fn win off v :=
    Wk.regWrite_atOnce (takes hacc hacts.lives hacts.ready hacts.runs) hrow (fun h => hacts.lead (beq_iff_eq.2 h)) v
  refine ⟨fun p hpart hacts hacc hp => ?lo, fun p hpart hacts hacc hp => ?hi, fun hpart => ?readLo, fun hpart => ?readHi,
    fun hpart => ?readPlain, fun hpart hacts hacc => ?plain, fun hscope hacc hlives hready hruns hleads hst => ?joins,
    fun hro => ?readOnly⟩
  case lo =>
    have ht : (s.start.upd fun d => { d with resp := .ok }).Takes fn win row := ⟨hwho, hacc, hacts.lives, hacts.ready, hacts.runs⟩
    refine (exec_pairLoWrite_window ⟨hport, hwho, hlt, haligned, hrow⟩ win v).trans ?_
    rw [Wk.regWrite_atOnce ht hrow (fun h => hacts.lead (beq_iff_eq.2 h)), Wk.regEffect_lo hrow hpart hp]
    rfl
  case hi =>
    refine (exec_pairHiWrite_window hn win v).trans ?_
    rw [atOnce hacts hacc, Wk.regEffect_hi hrow hpart hp]
    rfl
  case readLo => rw [Wk.regRead_lo hrow hpart] at hr; exact hr
  case readHi => rw [Wk.regRead_hi hrow hpart] at hr; exact hr
  case readPlain => rw [Wk.regRead_plain hrow hpart] at hr; exact hr
  case plain => rw [atOnce hacts hacc] at hw; exact hw
  case joins => rw [Wk.regWrite_joins (takes hacc hlives hready hruns) hrow hscope hleads hst] at hw; exact hw
  case readOnly => rw [Wk.regWrite_readOnly hrow hro] at hw; exact hw

end Sys2Proof.Machine
end

section
/-! PROOFS. Temperature, the power cap, telemetry, patrol scrub, reference clocks and PPS_IN (R22, R24, R241, R247, R516 to R520,
R567, R569). -/

namespace Sys2Proof.Machine

open Sys2Proof

/-- A timed command on the device alone, by what it makes of the device at its time. -/
theorem onDev_devAt {s : State} {now : Nat} (f : Dev → Dev) {d : Dev} (h : f (s.devAt now) = d) :
    onDev s (fun d => f (d.at_ now)) = .next (s.withDev d) := by
  rw [onDev_eq, ← h]
  rfl

/-! ### What an event leaves of the package state (R289, R300) -/

@[simp] theorem Dev.ite_top (c : Prop) {_ : Decidable c} (d e : Dev) : (if c then d else e).top = if c then d.top else e.top :=
  apply_ite Dev.top c d e

@[simp] theorem Wk.ite_top (c : Prop) {_ : Decidable c} (w v : Wk) :
    (if c then w else v).dev.top = if c then w.dev.top else v.dev.top :=
  apply_ite (fun w : Wk => w.dev.top) c w v

section
variable (w : Wk) (d : Dev)

@[simp] theorem Wk.wrH_top (a : Nat) (bs : List Byte) : (w.wrH a bs).dev.top = w.dev.top := rfl
@[simp] theorem Dev.setVec_top (fn v : Nat) (x : Vec) : (d.setVec fn v x).top = d.top := rfl
@[simp] theorem Dev.fireVec_top (fn v : Nat) : (d.fireVec fn v).top = d.top := by simp [Dev.fireVec]
@[simp] theorem Dev.raise_top (fn v modUs : Nat) : (d.raise fn v modUs).top = d.top := by simp [Dev.raise]
@[simp] theorem Dev.evtDrop_top (fn k : Nat) : (d.evtDrop fn k).top = d.top := by simp [Dev.evtDrop]
@[simp] theorem Wk.putEvent_top (fn : Nat) (e : Event) : (w.putEvent fn e).dev.top = w.dev.top := by simp [Wk.putEvent]
@[simp] theorem Wk.reportLost_top (fn : Nat) : (w.reportLost fn).dev.top = w.dev.top := by simp [Wk.reportLost]

/-- An event for one function's ring leaves the package state alone. -/
@[simp] theorem Wk.postTo_top (fn : Nat) (e : Event) : (w.postTo fn e).dev.top = w.dev.top := by simp [Wk.postTo]

theorem Sc.logEvent_clk (s : Sc) (bs : List Byte) : (s.logEvent bs).clk = s.clk := by
  simp only [Sc.logEvent]
  split <;> rfl

@[simp] theorem Dev.logEvent_tripped (h : Half) (bs : List Byte) : (d.logEvent h bs).top.tripped = d.top.tripped := rfl

@[simp] theorem Dev.logEvent_clk (x h : Half) (bs : List Byte) :
    ((d.logEvent h bs).top.sc.get x).clk = (d.top.sc.get x).clk := by
  cases h <;> cases x <;> simp [Dev.logEvent, Both.set, Both.get, Sc.logEvent_clk]

/-- What every post of an event keeps, since the SCs' logs are all it changes of the package state. -/
theorem Wk.post_keeps {γ : Type} (p : Top → γ) (hlog : ∀ (d : Dev) h bs, p (d.logEvent h bs).top = p d.top)
    (h : Half) (fn : Nat) (e : Event) : p (w.post h fn e).dev.top = p w.dev.top := by
  simp only [Wk.post]
  split
  case isTrue =>
    refine (foldl_keeps (fun w : Wk => p w.dev.top) _ (fun w fn => ?_) _ _).trans ?_
    · simp
    · exact (hlog _ _ _).trans (hlog _ _ _)
  case isFalse => simp [apply_ite p, hlog]

@[simp] theorem Wk.clockEvent_tripped (map old new : Nat) : (w.clockEvent map old new).dev.top.tripped = w.dev.top.tripped := by
  rw [Wk.clockEvent, Wk.post_keeps w Top.tripped Dev.logEvent_tripped]

@[simp] theorem Wk.clockEvent_clk (map old new : Nat) (x : Half) :
    ((w.clockEvent map old new).dev.top.sc.get x).clk = (w.dev.top.sc.get x).clk := by
  rw [Wk.clockEvent, Wk.post_keeps w (fun t => (t.sc.get x).clk) (Dev.logEvent_clk · x)]

/-! ### Facet clk (R22, R24) -/

@[simp] theorem Wk.setClk_tripped (h : Half) (mhz : Nat) : (w.setClk h mhz).dev.top.tripped = w.dev.top.tripped := by
  simp only [Wk.setClk]
  split
  · rfl
  · exact Wk.clockEvent_tripped _ _ _ _

@[simp] theorem Wk.setClk_clk (h x : Half) (mhz : Nat) :
    ((w.setClk h mhz).dev.top.sc.get x).clk = if x = h then mhz else (w.dev.top.sc.get x).clk := by
  simp only [Wk.setClk]
  split
  case isTrue hold =>
    split
    · next hx => rw [hx, hold]
    · rfl
  case isFalse =>
    rw [Wk.clockEvent_clk]
    cases h <;> cases x <;> rfl

end

/-! ### Temperature (R519, R520) -/

/-- At TRIP_C or above the device is left TRIPPED and each half at 400 MHz. -/
theorem Wk.thermal_trips {w : Wk} (h : w.dev.tripTemp ≤ w.dev.hottest) :
    w.thermal.dev.top.tripped = true ∧ ∀ x, (w.thermal.dev.top.sc.get x).clk = 400 := by
  simp only [Wk.thermal, if_pos h]
  refine ⟨by simp, fun x => ?_⟩
  cases x <;> simp

theorem Wk.tempReading_stores {w : Wk} (hpwr : w.dev.top.pwrGood = true) {n : Nat} (hn : n < 16) (h : Half) (temp : Int) :
    w.tempReading h n temp = (w.upd (·.onSc h fun s => { s with temps := setNth s.temps n temp })).thermal := by
  rw [Wk.tempReading, if_neg (by simp [hpwr, hn])]

theorem Dev.tripRecovery_cooled {d : Dev} {t : Nat} (hcool : d.top.coolSince = some t) (htrip : d.top.tripped = true)
    (hdue : t + 100000000 ≤ d.time) :
    d.tripRecovery = d.onTop fun t => { t with tripped := false, recovering := true, capBelow := 0 } := by
  simp only [Dev.tripRecovery, hcool, if_pos (And.intro htrip hdue)]

/-! ### The power cap (R517, R518) -/

/-- A step is due once a Secure Controller has booted and 1 ms has passed since the last one. -/
theorem not_capStep_idle {sw se : ScSt} {last time : Nat} (hboot : sw = .booted ∨ se = .booted) (hdue : last + 1000000 ≤ time) :
    ¬((sw ≠ .booted ∧ se ≠ .booted) ∨ time < last + 1000000) := by
  rw [not_or, not_and_or, not_ne_iff, not_ne_iff, not_lt]
  exact ⟨hboot, hdue⟩

/-- The working state once a step's mean powers are stored. -/
def Wk.capMeasured (w : Wk) (power west east : Nat) : Wk :=
  w.upd fun d => d.onTop fun t => { t with power := power, halfPower := ⟨west, east⟩, capTime := d.time }

/-- A half's clock one step down, not below 400 MHz. -/
def Wk.clkDown (w : Wk) (h : Half) : Wk := w.setClk h (max 400 ((w.dev.top.sc.get h).clk - 25))

section
variable {w : Wk} {power : Nat} (hboot : w.dev.top.sc.w.st = .booted ∨ w.dev.top.sc.e.st = .booted)
  (hdue : w.dev.top.capTime + 1000000 ≤ w.dev.time) (htrip : w.dev.top.tripped = false) (hover : w.dev.capWatts < power)
include hboot hdue htrip hover

theorem Wk.capStep_lowers (hfree : w.dev.clkHeld = false) (west east : Nat) :
    w.capStep power west east =
      (((w.capMeasured power west east).clkDown .west).clkDown .east).upd (·.onTop fun t => { t with capBelow := 0 }) := by
  simp [Wk.capStep, if_neg (not_capStep_idle hboot hdue), htrip, hfree, hover, Wk.capMeasured, Wk.clkDown]

theorem Wk.capStep_pinned (hheld : w.dev.clkHeld = true) (hrec : w.dev.top.recovering = false) (west east : Nat) :
    w.capStep power west east = (w.capMeasured power west east).upd fun e =>
      e.count .west Reg.TOP_POWER_OVER_NS_LO (w.dev.time - w.dev.top.capTime) := by
  simp [Wk.capStep, if_neg (not_capStep_idle hboot hdue), htrip, hheld, hrec, hover, Wk.capMeasured]

end

/-! ### Telemetry (R516) -/

@[simp] theorem Dev.onSc_time (d : Dev) (h : Half) (f : Sc → Sc) : (d.onSc h f).time = d.time := rfl

theorem Dev.telemetrySample_due {d : Dev} (hboot : d.top.sc.w.st = .booted ∨ d.top.sc.e.st = .booted)
    (hdue : ∀ t, d.top.telemetry = some t → t.time + 1000000 ≤ d.time) (tw te : Int) :
    d.telemetrySample tw te =
      let e := (d.onSc .west fun s => { s with stackTemp := tw }).onSc .east fun s => { s with stackTemp := te }
      e.onTop fun t => { t with telemetry := some ⟨d.time, (List.range 12).map fun i => (i + 1, e.telemetryItem ⟨tw, te⟩ (i + 1))⟩ } := by
  have hruns : ¬(d.top.sc.w.st ≠ .booted ∧ d.top.sc.e.st ≠ .booted) := by rwa [not_and_or, not_ne_iff, not_ne_iff]
  cases hlast : d.top.telemetry with
  | none => simp [Dev.telemetrySample, hruns, hlast]
  | some t => simp [Dev.telemetrySample, hruns, hlast, hdue t hlast]

/-! ### Patrol scrub (R241, R247) -/

section
variable {w : Wk} {errs : List (Nat × Sym)} (a : Nat)

theorem Wk.eccRead_clean (h : rsRead errs = .clean) (hw : rsWhole errs = true) : w.eccRead a errs = w := by
  simp [Wk.eccRead, h, hw]

theorem Wk.eccRead_fixed {i : Nat} {y : Sym} (h : rsRead errs = .fixed i y) (hw : rsWhole errs = true) :
    w.eccRead a errs = w.upd fun d => (d.count (halfOf a) Reg.MEM_ECC_CE_LO 1).count .west Reg.TOP_ERR_CORRECTED_LO 1 := by
  simp [Wk.eccRead, h, hw]

theorem Wk.eccRead_bad (h : rsRead errs = .bad) : w.eccRead a errs = w.upd (·.poisonBlock a) := by
  simp [Wk.eccRead, h]

end

/-- The working state once one more block of a stack is counted as scrubbed. -/
def Wk.scrubCounted (w : Wk) (a : Nat) : Wk :=
  let k := (placeStack a).stack
  let n := (aget w.dev.host.scrub k).getD 0 + 1
  w.upd fun d => (if n = stackBlocks then d.count (Half.ofCode (k / 8)) Reg.MEM_SCRUB_PASSES_LO 1 else d).onHost fun s =>
    { s with scrub := aput s.scrub k (n % stackBlocks) }

theorem Wk.patrolScrub_reads {w : Wk} {a : Nat} (hloc : isLocal a = true) (hsram : isSram a = false)
    (hcfg : bit (w.dev.rn (Half.ofCode ((placeStack a).stack / 8)) Reg.MEM_SCRUB_CFG) 31 = true)
    (hup : bit w.dev.top.stackUp (placeStack a).stack = true) (hlost : w.dev.lostAt a = false) (errs : List (Nat × Sym)) :
    w.patrolScrub a errs = (w.scrubCounted a).eccRead a errs := by
  rw [Wk.patrolScrub, if_neg (by simp [hloc, hsram, hcfg, hup, hlost])]
  rfl

/-! ### Reference clocks and device time (R567, R569) -/

theorem Wk.serdesLoss_retrains (w : Wk) {q : Nat} (hq : q < 4) :
    w.serdesLoss q = ((List.range 16).map fun i => 16 * q + i).foldl
      (fun w p => if (w.dev.fport p).st = .up ∨ (w.dev.fport p).st = .securing then w.portTo p .retraining else w) w :=
  if_neg (not_le.2 hq)

theorem le_cdiv_mul (x : Nat) {b : Nat} (hb : 0 < b) : x ≤ cdiv x b * b := by
  have := Nat.lt_div_mul_add (a := x + b - 1) hb
  unfold cdiv
  omega

section
variable {d : Dev} (hmaster : d.timeCfg.1 = true) (hapart : ∀ t, d.top.ppsLast = some t → t + 900000000 ≤ d.time)
include hmaster hapart

theorem Dev.pps_sets (hready : d.top.ready = false) (hset : d.top.timeSet = false) :
    d.pps = { d with time := cdiv d.time 1000000000 * 1000000000,
                     top := { d.top with timeSet := true, ppsLast := some (cdiv d.time 1000000000 * 1000000000) } } := by
  cases hlast : d.top.ppsLast with
  | none => simp [Dev.pps, hmaster, hlast, hready, hset]
  | some t => simp [Dev.pps, hmaster, hlast, hapart t hlast, hready, hset]

theorem Dev.pps_slews (hready : d.top.ready = true) (hlo : -1000000 ≤ ppsOffset d.time) (hhi : ppsOffset d.time ≤ 1000000) :
    d.pps = d.onTop fun t => { t with slew := ppsOffset d.time, ppsLast := some d.time } := by
  have hnear : ¬(ppsOffset d.time > 1000000 ∨ ppsOffset d.time < -1000000) := by omega
  cases hlast : d.top.ppsLast with
  | none => simp [Dev.pps, hmaster, hlast, hready, if_neg hnear]
  | some t => simp [Dev.pps, hmaster, hlast, hapart t hlast, hready, if_neg hnear]

end

/-! ### The statement -/

/-- Settles O48: each command comes to its own operation on the working state at the command's time, and under the command's
condition that operation is the chapter's effect. That the time over the cap grows by the time since the last step, and that the
first edge of PPS_IN has no limit of offset, are the model's choices (assumptions 21 and 24). -/
theorem clocksAndSensors : Obligations.ClocksAndSensors := by
  intro s h now w d
  refine ⟨fun n temp hpwr hn => ?temp, fun t hcool htrip hdue => ?recovery,
    fun power west east hboot hdue htrip hover => ⟨fun hfree => ?lowers, fun hheld hrec => ?pinned⟩,
    fun tw te hboot hdue => ?telemetry, fun a data check => ?scrub,
    fun q hq => congrArg (finish s) (w.serdesLoss_retrains hq),
    fun hmaster hapart => ⟨fun hready hset => ?sets, fun hready hlo hhi => ?slews⟩⟩
  case temp =>
    have hrun := congrArg (finish s) (w.tempReading_stores hpwr hn h temp)
    refine ⟨hrun, fun htrip => ?_⟩
    obtain ⟨htripped, hclk⟩ := Wk.thermal_trips htrip
    exact ⟨_, hrun, htripped, hclk .west, hclk .east⟩
  case recovery => exact onDev_devAt Dev.tripRecovery (Dev.tripRecovery_cooled hcool htrip hdue)
  case lowers => exact congrArg (finish s) (Wk.capStep_lowers (w := w) hboot hdue htrip hover hfree west east)
  case pinned => exact congrArg (finish s) (Wk.capStep_pinned (w := w) hboot hdue htrip hover hheld hrec west east)
  case telemetry => exact onDev_devAt (·.telemetrySample tw te) (Dev.telemetrySample_due hboot hdue tw te)
  case scrub =>
    intro k errs x hloc hsram hcfg hup hlost
    have hread := Wk.patrolScrub_reads (w := w) hloc hsram hcfg hup hlost errs
    exact ⟨fun hr hw => congrArg (finish s) (hread.trans (Wk.eccRead_clean a hr hw)),
      fun i y hr hw => congrArg (finish s) (hread.trans (Wk.eccRead_fixed a hr hw)),
      fun hr => congrArg (finish s) (hread.trans (Wk.eccRead_bad a hr))⟩
  case sets =>
    exact ⟨_, onDev_devAt Dev.pps (Dev.pps_sets hmaster hapart hready hset), Nat.mul_mod_left _ _,
      le_cdiv_mul d.time (by decide), rfl⟩
  case slews => exact onDev_devAt Dev.pps (Dev.pps_slews hmaster hapart hready hlo hhi)

end Sys2Proof.Machine
end

section
/-! PROOFS. Tiles, accumulators and tile memory of the facet (R54, R56, R57, R161, R162, R168 to R175, R187, R204 to R209). -/

namespace Sys2Proof.Machine

open Sys2Proof

/-! ### Operands: the body's natural numbers and the statement's words (R143, R156) -/

theorem FacetRun.rs_eq_toNat (r : FacetRun) (i : Nat) : r.rs i = (r.sreg i).toNat :=
  (apply_ite BitVec.toNat (i = 0) 0 (nth r.s i 0)).symm

theorem sext_eq_toInt (x w : Nat) : sext x w = (BitVec.ofNat w x).toInt := by
  rcases w with - | w
  · simp [sext, Nat.mod_one, BitVec.toInt_zero_length]
  · have hp : 2 ^ (w + 1) = 2 * 2 ^ w := by rw [pow_succ, Nat.mul_comm]
    rw [BitVec.toInt_eq_toNat_cond, BitVec.toNat_ofNat, sext, Nat.add_sub_cancel]
    refine if_congr ?_ rfl rfl
    omega

theorem immOf_eq_toNat (word : Nat) : immOf word = (immWord word).toNat := by
  rw [immOf, sext_eq_toInt, immWord, BitVec.signExtend, BitVec.toNat_ofInt]
  rfl

/-- An address S[SA] + IMM, modulo 2^64. -/
theorem FacetRun.rs_add_immOf (r : FacetRun) (i word : Nat) :
    (r.rs i + immOf word) % 2 ^ 64 = (r.sreg i + immWord word).toNat := by
  rw [r.rs_eq_toNat, immOf_eq_toNat, BitVec.toNat_add]

/-! ### What counting and staging leave of the facets -/

@[simp] theorem Dev.onNode_fac (d : Dev) (seq i : Nat) (g : Node → Node) : (d.onNode seq i g).fac = d.fac := by
  unfold Dev.onNode
  split
  · rfl
  · split <;> rfl

section
variable (w : Wk) (f : Nat) (r : FacetRun)

@[simp] theorem Wk.fcount_fac (off n : Nat) : (w.fcount f off n).dev.fac = w.dev.fac := Dev.count_fac ..

@[simp] theorem Wk.ingress_fac (n : Nat) : (w.ingress f n).dev.fac = w.dev.fac := w.fcount_fac ..

@[simp] theorem Wk.sparse_fac (off n : Nat) : (w.sparse f r off n).dev.fac = w.dev.fac := by
  unfold Wk.sparse
  split
  · rfl
  · exact Dev.onNode_fac ..

@[simp] theorem Wk.mmaCount_fac (F : Nat) (o : MmaOut) : (w.mmaCount f r F o).dev.fac = w.dev.fac := by
  simp only [Wk.mmaCount, Wk.sparse_fac]
  split <;> simp only [Wk.fcount_fac]

end

/-! ### How a body that counted or staged something ends its command -/

section
variable {s : State} {f op word now st d0 : Nat} {r q : FacetRun} {w : Wk} {body : Wk → Nat → FacetRun → Nat → Res}

/-- A body that goes on from a working state of its own, which still holds the facets' runs. -/
theorem facetInstr_thenRun (h : s.atInstr f op word r) (hfac : w.dev.fac = s.dev.fac)
    (hb : body (s.start.at_ now) f r word = .next w q) :
    facetInstr f now op body s = .next (s.put (w.thenRun f q.onward)) := by
  have hrun : w.dev.run f = some r := by rw [Dev.run, hfac]; exact h.1
  rw [facetInstr_atInstr h, hb]
  simp only [applyRes, hrun, Option.isSome_some, if_true]
  rfl

theorem facetInstr_fatal (h : s.atInstr f op word r) (hb : body (s.start.at_ now) f r word = .fatal w st d0) :
    facetInstr f now op body s = .next (s.put (w.facetFail r st d0)) := by
  rw [facetInstr_atInstr h, hb]
  rfl

end

/-! ### How a body goes on with what it read -/

section
variable (w : Wk) {α : Type}

@[simp] theorem Res.ofTile_ok (a : α) (k : α → Res) : Res.ofTile w (.ok a) k = k a := rfl
@[simp] theorem Res.ofRead_ok (a : α) (k : α → Res) : Res.ofRead w (.ok a) k = k a := rfl

theorem Res.put_ok {r q : FacetRun} {sec : Nat} {t : Tile} (h : r.putTile sec t = .ok q) : Res.put w r sec t = .next w q := by
  rw [Res.put, h, Res.ofTile_ok]

end

/-! ### Rows of an accumulator (R162, R175) -/

theorem nth_zipIdx_map (l : List Nat) (g : Nat × Nat → Nat) {i : Nat} (h : i < l.length) :
    nth (l.zipIdx.map g) i 0 = g (nth l i 0, i) := by
  simp [nth, List.getD, h]

@[simp] theorem loadAcc_length (acc : List Nat) (v : View) (top H : Nat) (add : Bool) :
    (loadAcc acc v top H add).length = acc.length := by
  simp [loadAcc]

/-- An element of the rows from `top` comes from the tile, any other stays. -/
theorem nth_loadAcc (acc : List Nat) (v : View) (top H : Nat) (add : Bool) {i : Nat} (h : i < acc.length) :
    nth (loadAcc acc v top H add) i 0 =
      if top ≤ i / 64 ∧ i / 64 < top + H then
        (if add then flc ((f32 (nth acc i 0)).add (v.val (i / 64 - top) (i % 64))) else fl (v.val (i / 64 - top) (i % 64)))
      else nth acc i 0 :=
  nth_zipIdx_map acc _ h

/-! ### The bodies of MATRIX -/

section
variable (w : Wk) (f : Nat) {r q : FacetRun} {word : Nat} {t : Tile}

theorem bodyAccLoad_dense (add : Bool) (ht : r.tile (r.ptr (bits word 46 6)) = .ok t) (hd : t.hdr.sparsity = 0) :
    bodyAccLoad add w f r word = .next w (r.setSlot (bits word 52 4)
      (loadAcc (r.slot (bits word 52 4)) t.view (64 / 2 ^ bits word 38 2 * bits word 36 2) (64 / 2 ^ bits word 38 2) add)) := by
  simp only [bodyAccLoad, mTpa, ht, Res.ofTile_ok, hd, ne_eq, not_true_eq_false, if_false]
  rfl

theorem bodyAccStore_dense (ht : r.tile (r.ptr (bits word 46 6)) = .ok t) (hd : t.hdr.sparsity = 0)
    (hq : r.putTile (r.ptr (bits word 46 6)) (storeAcc t.hdr (w.conv r (bits word 32 2) (bits word 24 8)) (r.slot (bits word 52 4))
      (64 / 2 ^ bits word 38 2 * bits word 36 2) (64 / 2 ^ bits word 38 2)) = .ok q) :
    bodyAccStore w f r word = .next w q := by
  simp only [bodyAccStore, mTpa, ht, Res.ofTile_ok, hd, ne_eq, not_true_eq_false, if_false]
  exact Res.put_ok w hq

/-- An MMA whose pairs are accepted: it fails at a dropped index, takes free values for the rows of a false zero-map, or goes
on with what the pairs left (R54, R209). -/
theorem Res.mma_accepted (fold arb : Nat) (form clear : Bool) (acc : List Nat) {as bs : List Tile} (k : Wk → List Nat → Res)
    (h : ((as.zip bs).all fun p => pairOk p.1.hdr p.2.hdr form (64 / 2 ^ fold)) = true) {o : MmaOut}
    (ho : o = mmaPairs (64 / 2 ^ fold * arb) (64 / 2 ^ fold) form r.sfod
      (if clear then setRows acc (64 / 2 ^ fold * arb) (64 / 2 ^ fold) fun _ => 0 else acc) (as.zip bs)) :
    Res.mma w f r fold arb form clear acc as bs k =
      if o.stop then .fatal (w.mmaCount f r (2 ^ fold) o) 0x31 0
      else if o.undef then
        let free := (w.mmaCount f r (2 ^ fold) o).dev.drawMany (64 * (64 / 2 ^ fold))
        k { w.mmaCount f r (2 ^ fold) o with dev := free.1 }
          (setRows o.acc (64 / 2 ^ fold * arb) (64 / 2 ^ fold) fun i => nth free.2 (i - 64 * (64 / 2 ^ fold * arb)) 0)
      else k (w.mmaCount f r (2 ^ fold) o) o.acc := by
  subst ho
  simp only [Res.mma, h, not_true_eq_false, if_false]

theorem bodyMma_tiles {as bs : List Tile} (has : r.tiles (bits word 46 6) (2 ^ bits word 38 2) = .ok as)
    (hbs : r.tiles (bits word 40 6) (2 ^ bits word 38 2) = .ok bs) :
    bodyMma w f r word = Res.mma w f r (bits word 38 2) (bits word 36 2) (bit word 35) (bit word 34) (r.slot (bits word 52 4)) as bs
      fun w acc => .next w (r.setSlot (bits word 52 4) acc) := by
  simp only [bodyMma, mFold, mTpa, has, hbs, Res.ofTile_ok]
  rfl

end

/-- Settles O9: on the tiles that it takes each body has an equation, and the facet's step carries it to the state. The free rows
of a false zero-map and the counts of an MMA that fails are the model's reading (assumption 30), the free values' source its choice
(assumption 4). -/
theorem facetAccumulators : Obligations.FacetAccumulators := by
  intro s f now word r H top acc
  refine ⟨fun hat => ?zero, fun c op add t hc hat ht hd => ?load, fun t q hat ht hd hq => ?store, ?mma⟩
  case zero => exact facetInstr_next hat now bodyAccZero rfl
  case load =>
    refine ⟨loadAcc (r.slot acc) t.view top H add, ?_, loadAcc_length .., fun i hi => nth_loadAcc _ _ _ _ _ (by simpa using hi)⟩
    have hbody := bodyAccLoad_dense (s.start.at_ now) f add ht hd
    simp only [List.mem_cons, Prod.mk.injEq, List.not_mem_nil, or_false] at hc
    obtain ⟨rfl, rfl, rfl⟩ | ⟨rfl, rfl, rfl⟩ := hc <;> exact facetInstr_next hat now _ hbody
  case store => exact facetInstr_next hat now bodyAccStore (bodyAccStore_dense _ f ht hd hq)
  case mma =>
    intro as bs hat has hbs hpairs o w free
    have hfac : w.dev.fac = s.dev.fac := Wk.mmaCount_fac ..
    have hbody := (bodyMma_tiles (s.start.at_ now) f has hbs).trans
      (Res.mma_accepted _ f _ _ _ _ _ _ hpairs (o := o) rfl)
    by_cases hstop : o.stop = true
    · rw [if_pos hstop] at hbody ⊢
      exact facetInstr_fatal hat hbody
    rw [if_neg hstop] at hbody ⊢
    by_cases hundef : o.undef = true
    · rw [if_pos hundef] at hbody ⊢
      exact facetInstr_thenRun hat (w := { w with dev := free.1 }) hfac hbody
    · rw [if_neg hundef] at hbody ⊢
      exact facetInstr_thenRun hat hfac hbody

/-! ### The bodies of TILE that meet memory (R161, R187) -/

/-- TLDR, TSTR and TGATHER take a dense tile of a non-MX type (R161). -/
theorem not_sparse_or_mx {h : Hdr} (hd : h.sparsity = 0) (hmx : isMx h.ty = false) : ¬ (h.sparsity ≠ 0 ∨ isMx h.ty = true) := by
  simp [hd, hmx]

/-- Local writes with their form and alignment right. -/
theorem fwriteOk_ok {a align : Nat} (hl : isLocal a = true) (ha : a % align = 0) : fwriteOk a align = .ok () := by
  simp [fwriteOk, hl, ha]

theorem runsOk_ok {rs : List Run} (h : ∀ x ∈ rs, isLocal x.addr = true) : runsOk rs = .ok () := by
  induction rs with
  | nil => rfl
  | cons x l ih =>
    rw [runsOk, List.foldl_cons, fwriteOk_ok (h x (List.mem_cons_self ..)) (Nat.mod_one _)]
    exact ih fun y hy => h y (List.mem_cons_of_mem x hy)

section
variable {s : State} {f now word : Nat} {r q : FacetRun} {t : Tile} {w' : Wk}

/-- Writes that have their frames are counted as egress and staged, and nothing else (R187). -/
theorem State.stages.fstage {rs : List Run} (h : s.stages f now r rs w') : (s.start.at_ now).fstage f r rs = w' := by
  obtain ⟨rfl, m, hm, hheld, hfit, hwest, heast⟩ := h
  change (s.storing f now _).stage r.seq r.node rs = _
  simp only [Wk.stage, hm, hheld, hfit, Nat.not_lt.2 hwest, Nat.not_lt.2 heast, or_self, if_false, List.isEmpty_nil, and_self, if_true]

theorem State.stages.fac {rs : List Run} (h : s.stages f now r rs w') : w'.dev.fac = s.dev.fac := by
  rw [h.1, Wk.upd_dev, Dev.onNode_fac]
  exact Wk.fcount_fac ..

/-- A facet's writes are staged by a body whose other operands stand as they should. -/
theorem facetInstr_stages {op : Nat} {rs : List Run} {body : Wk → Nat → FacetRun → Nat → Res} (h : s.atInstr f op word r)
    (hs : s.stages f now r rs w') (hb : body (s.start.at_ now) f r word = .next ((s.start.at_ now).fstage f r rs) r) :
    facetInstr f now op body s = .next (s.put (w'.thenRun f r.onward)) :=
  facetInstr_thenRun h hs.fac (hs.fstage ▸ hb)

end

section
variable (w : Wk) (f : Nat) {r q : FacetRun} {word : Nat} {t : Tile}

theorem bodyTload_opens {hb bs : List Byte} {n : Nat} (hhead : w.fread r (r.sreg (bits word 39 5) + immWord word).toNat 32 32 = .ok hb)
    (hn : storedSectors hb = some n) (hread : w.fread r (r.sreg (bits word 39 5) + immWord word).toNat (32 + 32 * n) 32 = .ok bs)
    (ht : openTile false bs = .ok t) (hq : r.putTile (r.ptr (bits word 50 6)) t = .ok q) :
    bodyTload w f r word = .next (w.ingress f (32 + 32 * n)) q := by
  simp only [bodyTload, tSA, r.rs_add_immOf, hhead, Res.ofRead_ok, hn, hread, ht]
  exact Res.put_ok _ hq

theorem bodyTstore_local (ht : r.tile (r.ptr (bits word 50 6)) = .ok t) (hl : isLocal (r.sreg (bits word 39 5) + immWord word).toNat = true)
    (ha : (r.sreg (bits word 39 5) + immWord word).toNat % 32 = 0) :
    bodyTstore w f r word = .next (w.fstage f r [⟨(r.sreg (bits word 39 5) + immWord word).toNat, t.facetStored⟩]) r := by
  simp only [bodyTstore, FacetRun.tpOf, tSA, r.rs_add_immOf, ht, Res.ofTile_ok, fwriteOk_ok hl ha, Res.ofRead_ok]

section
variable (ht : r.tile (r.ptr (bits word 50 6)) = .ok t) (hd : t.hdr.sparsity = 0) (hmx : isMx t.hdr.ty = false)
include ht hd hmx

theorem bodyTldr_dense {b : List Byte} (hrows : w.rowsIn r (elemBits t.hdr.ty / 8) (t.hdr.cols * (elemBits t.hdr.ty / 8))
      (r.sreg (bits word 39 5)).toNat (r.sreg (bits word 34 5)).toNat t.hdr.rows t.body = .ok b)
    (hq : r.putTile (r.ptr (bits word 50 6)) ({ t with body := b } : Tile).unmapped = .ok q) :
    bodyTldr w f r word = .next (w.ingress f (t.hdr.rows * (t.hdr.cols * (elemBits t.hdr.ty / 8)))) q := by
  simp only [bodyTldr, FacetRun.tpOf, tSA, tSB, r.rs_eq_toNat, ht, Res.ofTile_ok, if_neg (not_sparse_or_mx hd hmx),
    hrows, Res.ofRead_ok]
  exact Res.put_ok _ hq

theorem bodyTstr_dense (hl : ∀ x ∈ rowsOut t (r.sreg (bits word 39 5)).toNat (r.sreg (bits word 34 5)).toNat, isLocal x.addr = true) :
    bodyTstr w f r word =
      .next (w.fstage f r (rowsOut t (r.sreg (bits word 39 5)).toNat (r.sreg (bits word 34 5)).toNat)) r := by
  simp only [bodyTstr, FacetRun.tpOf, tSA, tSB, r.rs_eq_toNat, ht, Res.ofTile_ok, if_neg (not_sparse_or_mx hd hmx),
    runsOk_ok hl, Res.ofRead_ok]

/-- `es` is the bytes of a list entry and `ix` the rows that the list names. -/
theorem bodyTgather_dense {es n : Nat} {ent : List Byte} {ix : List Nat} {rows : List (List Nat)}
    (hes : es = (if bits word 6 2 = 0 then 8 else 4))
    (hent : w.fread r (r.sreg (bits word 34 5)).toNat (t.hdr.rows * es) 1 = .ok ent)
    (hix : ix = (chunks es ent).map fun e => if es = 8 then ofBytes (e.drop 4) else ofBytes e)
    (hrows : w.gatherRows r t.hdr.ty (r.sreg (bits word 39 5)).toNat (bits (r.sreg (bits word 39 5 + 1)).toNat 0 16)
      (bits (r.sreg (bits word 39 5 + 1)).toNat 16 16) (bits (r.sreg (bits word 39 5 + 1)).toNat 32 32) ix = .ok (rows, n))
    (hq : r.putTile (r.ptr (bits word 50 6))
      ({ hdr := { t.hdr with cols := 64 },
         body := packElems (elemBits t.hdr.ty) (rows.flatten ++ List.replicate (4096 - rows.flatten.length) 0) } : Tile).mapped
        = .ok q) :
    bodyTgather w f r word = .next ((w.sparse f r Reg.TGU_SPARSE_DROP_INDEX_LO n).ingress f
      ((ix.length - n) * 64 * (elemBits t.hdr.ty / 8))) q := by
  simp only [bodyTgather, FacetRun.tpOf, tSA, tSB, r.rs_eq_toNat, ht, Res.ofTile_ok, if_neg (not_sparse_or_mx hd hmx),
    ← hes, hent, Res.ofRead_ok, ← hix, hrows]
  exact Res.put_ok _ hq

end

end

/-- Settles O11: on the operands that it takes each body has an equation, and the facet's step carries it to the state. The lengths
that TSTORE writes and what TGATHER counts as ingress are the model's own (assumption 29). -/
theorem facetTilesAndMemory : Obligations.FacetTilesAndMemory := by
  intro s f now word r tp w a
  refine ⟨fun hb bs n t q hat hhead hn hread ht hq => ?tload, fun t w' hat ht hl ha hs => ?tstore,
    ?tldr, ?tstr, ?tgather⟩
  case tload => exact facetInstr_thenRun hat (Wk.ingress_fac ..) (bodyTload_opens w f hhead hn hread ht hq)
  case tstore => exact facetInstr_stages hat hs (bodyTstore_local w f ht hl ha)
  case tldr =>
    intro t b q hat ht hd hmx eb hrows hq
    exact facetInstr_thenRun hat (Wk.ingress_fac ..) (bodyTldr_dense w f ht hd hmx hrows hq)
  case tstr =>
    intro t w' hat ht hd hmx rs hl hs
    exact facetInstr_stages hat hs (bodyTstr_dense w f ht hd hmx hl)
  case tgather =>
    intro t ent rows n q hat ht hd hmx es g hent ix hrows body hq
    exact facetInstr_thenRun hat ((Wk.ingress_fac ..).trans (Wk.sparse_fac ..))
      (bodyTgather_dense w f ht hd hmx rfl hent rfl hrows hq)

end Sys2Proof.Machine
end

section
/-! PROOFS. Commands that are one write of a set-up register of a half window (R545 to R551). -/

namespace Sys2Proof.Machine

open Sys2Proof

/-! ### A write of the PF or the standby function to a half window -/

/-- A register that can be written stands at this aligned offset of a half window, and is one of the lead's only exactly if
`lead` is set (R4, R547). -/
def writableAt (lead : Bool) (off : Nat) : Bool :=
  decide (off < 2 ^ 24) && off % 4 == 0 &&
    match findRow off with
    | some row => row.acc != .ro && (row.scope == .lead) == lead
    | none => false

theorem writableAt_iff (lead : Bool) (off : Nat) :
    writableAt lead off = true ↔ off < 2 ^ 24 ∧ off % 4 = 0 ∧
      ∃ row, findRow off = some row ∧ row.acc ≠ .ro ∧ (row.scope == .lead) = lead := by
  cases h : findRow off <;> simp [writableAt, h, and_assoc]

section
variable {s : State} {fn now off : Nat} {win : Half} {lead : Bool} {v : Word32}

/-- The command reaches its register, and is completed at once. -/
theorem winWrite_regWrite {row : RegRow} (h : (s.devAt now).AtReg fn off row) :
    winWrite fn win off v now s = .next (s.put ((s.posted now).regWrite fn win off v)) :=
  congrArg (finish s) (Wk.bar0Write_window (w := s.start.at_ now) h win v)

/-- A write that acts at once leaves what its register's effect leaves. -/
theorem winWrite_acts {w : Wk} (h : s.Acts fn win now lead) (hoff : writableAt lead off = true)
    (heff : (s.posted now).regEffect fn win off v = w) : winWrite fn win off v now s = .next (s.put w) := by
  obtain ⟨hlt, haligned, row, hrow, hacc, hscope⟩ := (writableAt_iff lead off).1 hoff
  have ht : (s.posted now).Takes fn win row := ⟨h.who, hacc, h.lives, h.ready, h.runs⟩
  rw [winWrite_regWrite ⟨h.port, h.who, hlt, haligned, hrow⟩,
    Wk.regWrite_atOnce ht hrow (fun hs => h.lead (hscope.symm.trans (beq_iff_eq.2 hs))), heff]

/-- A write to a register of the lead's only, in a half that leads in NORMAL, joins the next batch (R548). -/
theorem winWrite_joins (h : s.Joins fn win now) (hoff : writableAt true off = true) :
    winWrite fn win off v now s = .next (s.joined now fn win off v) := by
  obtain ⟨hlt, haligned, row, hrow, hacc, hscope⟩ := (writableAt_iff true off).1 hoff
  have ht : (s.posted now).Takes fn win row := ⟨h.who, hacc, h.lives, h.ready, h.runs⟩
  rw [winWrite_regWrite ⟨h.port, h.who, hlt, haligned, hrow⟩, Wk.regWrite_joins ht hrow (beq_iff_eq.1 hscope) h.leads h.normal]
  rfl

end

/-! ### What a register stores of a value (R4) -/

theorem setBits_low_mod (v k x : Nat) : setBits v 0 k x % 2 ^ k = x % 2 ^ k := by
  have h : v - v % 2 ^ k = 2 ^ k * (v / 2 ^ k) := by have := Nat.div_add_mod v (2 ^ k); omega
  simp [setBits, bits, h]

/-- A value with a row's limited fields held to their range. -/
def RegRow.limited (row : RegRow) (v : Nat) : Nat :=
  row.limits.foldl (fun v l => setBits v l.lo l.w (min l.max (max l.min (bits v l.lo l.w)))) v

/-- Of the old value a register keeps the bits that are not writable. -/
theorem RegRow.w32_store (row : RegRow) (old v : Nat) :
    w32 (row.store old v) = (w32 old &&& ~~~ w32 row.mask) ||| w32 (row.store 0 v) := by
  simp only [RegRow.store, w32, BitVec.ofNat_toNat, BitVec.setWidth_eq, BitVec.zero_and, BitVec.zero_or]

theorem RegRow.w32_store_zero {row : RegRow} (hlim : row.limits = []) (v : Word32) : w32 (row.store 0 v.toNat) = v &&& w32 row.mask := by
  simp only [RegRow.store, hlim, List.foldl_nil, w32, BitVec.ofNat_toNat, BitVec.setWidth_eq, BitVec.zero_and, BitVec.zero_or]

/-- A register whose writable bits are the low `k` takes the limited value modulo `2 ^ k`. -/
theorem RegRow.store_zero {row : RegRow} {k : Nat} (hk : k ≤ 32) (hmask : row.mask = 2 ^ k - 1) (v : Nat) :
    row.store 0 v = row.limited v % 2 ^ k := by
  have hle : 2 ^ k ≤ 2 ^ 32 := Nat.pow_le_pow_right (by omega) hk
  have hlt : 2 ^ k - 1 < 2 ^ 32 := by have := Nat.two_pow_pos k; omega
  have hstore : row.store 0 v = row.limited v % 2 ^ 32 &&& (2 ^ k - 1) := by
    simp only [RegRow.store, RegRow.limited, hmask, BitVec.zero_and, BitVec.zero_or, BitVec.toNat_and, BitVec.toNat_ofNat,
      Nat.mod_eq_of_lt hlt]
  rw [hstore, Nat.and_two_pow_sub_one_eq_mod, Nat.mod_mod_of_dvd _ (Nat.pow_dvd_pow 2 hk)]

theorem RegRow.store_unlimited {row : RegRow} {k : Nat} (hk : k ≤ 32) (hmask : row.mask = 2 ^ k - 1) (hlim : row.limits = []) (v : Nat) :
    row.store 0 v = v % 2 ^ k := by
  rw [RegRow.store_zero hk hmask, RegRow.limited, hlim]
  rfl

/-- One field, the whole register, with a largest value. -/
theorem RegRow.store_limited {row : RegRow} {k m : Nat} (hk : k ≤ 32) (hmask : row.mask = 2 ^ k - 1)
    (hlim : row.limits = [⟨0, k, 0, m⟩]) (v : Nat) : row.store 0 v = min m (v % 2 ^ k) := by
  have hlt : min m (v % 2 ^ k) < 2 ^ k := lt_of_le_of_lt (min_le_right ..) (Nat.mod_lt _ (Nat.two_pow_pos k))
  have hval : row.limited v = setBits v 0 k (min m (v % 2 ^ k)) := by simp [RegRow.limited, hlim, bits]
  rw [RegRow.store_zero hk hmask, hval, setBits_low_mod, Nat.mod_eq_of_lt hlt]

/-! ### What has an effect: the rules of a register's block -/

theorem Dev.windowOf_unowned (d : Dev) (h : Half) {off : Nat} (hoff : off < 0x20000 ∨ 0x40000 ≤ off) : d.windowOf h off = some 0 :=
  if_neg (by omega)

section
variable {w : Wk} {off : Nat} {row : RegRow} (hrow : findRow off = some row) (hpart : row.part = .plain) (who : Nat) (h : Half) (v : Word32)
include hrow hpart

theorem Wk.regEffect_topHost (hoff : off < 0x20000) : w.regEffect who h off v = w.writeTopHost h who row off 0 v := by
  have hlt : off < 0x40000 := by omega
  simp only [Wk.regEffect, hrow, hpart, w.dev.windowOf_unowned h (.inl hoff), if_pos hlt]

theorem Wk.regEffect_engine (hlo : 0x40000 ≤ off) (hhi : off < 0x200000) : w.regEffect who h off v = w.writeEngine h row off v := by
  simp only [Wk.regEffect, hrow, hpart, w.dev.windowOf_unowned h (.inr hlo), if_neg (Nat.not_lt.2 hlo), if_pos hhi]

theorem Wk.regEffect_far (hoff : 0x200000 ≤ off) : w.regEffect who h off v = w.writeFar h row off v := by
  have hlo : 0x40000 ≤ off := by omega
  simp only [Wk.regEffect, hrow, hpart, w.dev.windowOf_unowned h (.inr hlo), if_neg (Nat.not_lt.2 hlo), if_neg (Nat.not_lt.2 hoff)]

end

/-! ### Registers that stand in an array -/

/-- The row of an offset is the one row of the offset's block that covers it. -/
theorem findRow_of_unique {off : Nat} {row : RegRow} (hmem : row ∈ rowsAt off) (hcov : row.covers off = true)
    (huniq : ∀ r ∈ rowsAt off, r.covers off = true → r = row) : findRow off = some row := by
  obtain ⟨r, hr⟩ := Option.isSome_iff_exists.1 (List.find?_isSome.2 ⟨row, hmem, hcov⟩ : (findRow off).isSome = true)
  rw [show findRow off = some r from hr, huniq r (List.mem_of_find?_eq_some hr) (List.find?_some (p := fun r : RegRow => r.covers off) hr)]

/-- The row of BPM_POOL_RESERVE (R272). -/
def rowPoolReserve : RegRow :=
  { off := Reg.BPM_POOL_RESERVE, acc := .rw, reset := 0, mask := 0x1FFFFF, scope := .perHalf, part := .plain,
    n1 := 16, s1 := 0x100, n2 := 64, s2 := 4 }

theorem regsBpm_avoid_poolReserve :
    ∀ r ∈ regsBpm, r = rowPoolReserve ∨ 0 < r.s1 ∧ (r.off + r.n1 * r.s1 ≤ 0x101000 ∨ 0x102000 ≤ r.off) := by
  decide

theorem rowsAt_bpm {off : Nat} (hlo : 0x100000 ≤ off) (hhi : off < 0x140000) : rowsAt off = regsBpm := by
  simp only [rowsAt]
  repeat rw [if_neg (by omega)]
  rw [if_pos hhi]

/-- Offset in a half window of a client's reserve of a pool. -/
def reserveOff (p c : Nat) : Nat := Reg.BPM_POOL_RESERVE + 0x100 * p + 4 * c

theorem reserveOff_eq (p c : Nat) : reserveOff p c = 0x101000 + 0x100 * p + 4 * c := rfl

theorem findRow_poolReserve {p c : Nat} (hp : p < 16) (hc : c < 64) : findRow (reserveOff p c) = some rowPoolReserve := by
  have hrows : rowsAt (reserveOff p c) = regsBpm := rowsAt_bpm (by rw [reserveOff_eq]; omega) (by rw [reserveOff_eq]; omega)
  apply findRow_of_unique
  · rw [hrows]; decide
  · have hdist : reserveOff p c - Reg.BPM_POOL_RESERVE = 0x100 * p + 4 * c := by rw [reserveOff_eq, Reg.BPM_POOL_RESERVE]; omega
    have hle : Reg.BPM_POOL_RESERVE ≤ reserveOff p c := by rw [reserveOff_eq, Reg.BPM_POOL_RESERVE]; omega
    have hp' : (0x100 * p + 4 * c) / 0x100 = p := by omega
    have hc' : (0x100 * p + 4 * c) % 0x100 = 4 * c := by omega
    simp [RegRow.covers, rowPoolReserve, hdist, hle, hp', hc', hp, hc]
  · intro r hr hcov
    rw [hrows] at hr
    rcases regsBpm_avoid_poolReserve r hr with h | ⟨hs, hfar⟩
    · exact h
    · have := RegRow.lt_of_covers hs hcov
      rw [reserveOff_eq] at this
      omega

theorem findRow_portCfg : ∀ p < 16, findRow (Reg.FAB_PORT_CFG + 4 * p) = findRow Reg.FAB_PORT_CFG := by decide

theorem findRow_poolCfg : ∀ p < 16, findRow (Reg.BPM_POOL_CFG_HI + 8 * p) = findRow Reg.BPM_POOL_CFG_HI ∧
    findRow (Reg.BPM_POOL_CFG_LO + 8 * p) = findRow Reg.BPM_POOL_CFG_LO := by decide

/-! ### The effect of each register that a command names -/

section
variable (w : Wk) (who : Nat) (h : Half) (v : Word32)

theorem Wk.regEffect_deviceMode :
    w.regEffect who h Reg.TOP_DEVICE_MODE v = w.upd (·.onTop fun t => { t with strictReq := bit v.toNat 0 }) := by
  rw [Wk.regEffect_topHost rfl rfl who h v (by decide)]
  simp +decide only [Wk.writeTopHost, reduceIte]

theorem Wk.regEffect_fatalStatus : w.regEffect who h Reg.TOP_FATAL_STATUS v =
    if bit v.toNat 31 then w.upd (·.onTop fun t => { t with fatal := { t.fatal with valid := false } }) else w := by
  rw [Wk.regEffect_topHost rfl rfl who h v (by decide)]
  simp +decide only [Wk.writeTopHost, reduceIte]

theorem Wk.regEffect_facetClk : w.regEffect who h Reg.TOP_FACET_CLK v = w.facetClkWrite v := by
  rw [Wk.regEffect_topHost rfl rfl who h v (by decide)]
  simp +decide only [Wk.writeTopHost, reduceIte]

theorem Wk.regEffect_thermCfg : w.regEffect who h Reg.TOP_THERM_CFG v = w.thermCfgWrite v := by
  rw [Wk.regEffect_topHost rfl rfl who h v (by decide)]
  simp +decide only [Wk.writeTopHost, reduceIte]

theorem Wk.regEffect_jstartCtl : w.regEffect who h Reg.TOP_JSTART_CTL v = w.jstartCtl v.toNat := by
  rw [Wk.regEffect_topHost rfl rfl who h v (by decide)]
  simp +decide only [Wk.writeTopHost, reduceIte]

theorem Wk.jstartCtl_start : w.jstartCtl (1 : Word32).toNat = w.startBegin := by
  simp +decide only [Wk.jstartCtl, reduceIte]

theorem Wk.jstartCtl_cancel : w.jstartCtl (2 : Word32).toNat = w.startFails stAborted := by
  simp +decide only [Wk.jstartCtl, reduceIte]

theorem Wk.regEffect_ctxHigh : w.regEffect who h Reg.PRISM_CTX_HIGH v = w.upd (·.ctxHighWrite h) := by
  rw [Wk.regEffect_engine rfl rfl who h v (by decide) (by decide)]
  simp +decide only [Wk.writeEngine, reduceIte]

theorem Wk.regEffect_predClear : w.regEffect who h Reg.EFU_PRED_CLEAR v = w.upd (·.predClear h v.toNat) := by
  rw [Wk.regEffect_engine rfl rfl who h v (by decide) (by decide)]
  simp +decide only [Wk.writeEngine, reduceIte]

theorem Wk.regEffect_mailbox : w.regEffect who h Reg.SEC_MAILBOX_CTL v = w.upd (·.mailboxGo h v) := by
  rw [Wk.regEffect_far rfl rfl who h v (by decide)]
  simp +decide only [Wk.writeFar, reduceIte]

theorem Wk.regEffect_remoteCtl : w.regEffect who h Reg.FAB_REMOTE_CTL v = w.upd (·.remoteCtl v.toNat) := by
  rw [Wk.regEffect_far rfl rfl who h v (by decide)]
  simp +decide only [Wk.writeFar, reduceIte]

theorem Wk.regEffect_regionCtl : w.regEffect who h Reg.FAB_REGION_CTL v = w.upd (·.regionCtl v.toNat) := by
  rw [Wk.regEffect_far rfl rfl who h v (by decide)]
  simp +decide only [Wk.writeFar, reduceIte]

theorem Dev.regionCtl_install (d : Dev) : d.regionCtl (1 : Word32).toNat = d.regionInstall := by
  simp +decide only [Dev.regionCtl, reduceIte]

theorem Dev.regionCtl_remove (d : Dev) : d.regionCtl (2 : Word32).toNat = d.regionRemove := by
  simp +decide only [Dev.regionCtl, reduceIte]

theorem Dev.regionCtl_lookup (d : Dev) : d.regionCtl (3 : Word32).toNat = d.regionLookup := by
  simp +decide only [Dev.regionCtl, reduceIte]

theorem Wk.regEffect_readerCtl : w.regEffect who h Reg.FAB_READER_CTL v = w.upd (·.readerCtl v.toNat) := by
  rw [Wk.regEffect_far rfl rfl who h v (by decide)]
  simp +decide only [Wk.writeFar, reduceIte]

theorem Wk.regEffect_memberData : w.regEffect who h Reg.CE_MEMBER_DATA v = w.upd (·.memberWrite v.toNat) := by
  rw [Wk.regEffect_far rfl rfl who h v (by decide)]
  simp +decide only [Wk.writeFar, reduceIte]

theorem Wk.regEffect_groupCtl : w.regEffect who h Reg.CE_GROUP_CTL v = w.groupCtl v.toNat := by
  rw [Wk.regEffect_far rfl rfl who h v (by decide)]
  simp +decide only [Wk.writeFar, reduceIte]

theorem Wk.regEffect_mirJobCtl : w.regEffect who h Reg.MIR_JOB_CTL v = w.mirJobCtl v.toNat := by
  rw [Wk.regEffect_far rfl rfl who h v (by decide)]
  simp +decide only [Wk.writeFar, reduceIte]

theorem Wk.regEffect_mirPartner : w.regEffect who h Reg.MIR_PARTNER v = w.partnerWrite v.toNat := by
  rw [Wk.regEffect_far rfl rfl who h v (by decide)]
  simp +decide only [Wk.writeFar, reduceIte]

theorem Wk.regEffect_mirHost : w.regEffect who h Reg.MIR_HOST_DEVICE v = w.hostWrite h v.toNat := by
  rw [Wk.regEffect_far rfl rfl who h v (by decide)]
  simp +decide only [Wk.writeFar, reduceIte]

theorem Wk.regEffect_restoreCtl : w.regEffect who h Reg.MIR_RESTORE_CTL v = w.restoreStart v.toNat := by
  rw [Wk.regEffect_far rfl rfl who h v (by decide)]
  simp +decide only [Wk.writeFar, reduceIte]

theorem Wk.regEffect_facetRetain :
    w.regEffect who h Reg.TGU_FACET_RETAIN v = w.upd fun d => d.retainWrite h (min 24576 (v.toNat % 32768)) := by
  rw [Wk.regEffect_engine rfl rfl who h v (by decide) (by decide)]
  simp +decide only [Wk.writeEngine, reduceIte]
  rw [RegRow.store_limited (k := 15) (by decide) rfl rfl]
  rfl

theorem Dev.plainWrite_eq (d : Dev) (row : RegRow) (off : Nat) :
    d.plainWrite h row off v = d.setReg h off ((d.reg h off &&& ~~~ w32 row.mask) ||| w32 (row.store 0 v.toNat)) := by
  rw [Dev.plainWrite, RegRow.w32_store]
  simp only [Dev.rn, w32, BitVec.ofNat_toNat, BitVec.setWidth_eq]

theorem Wk.regEffect_residentLimit : w.regEffect who h Reg.EFU_RESIDENT_LIMIT v =
    w.upd fun d => (d.setReg h Reg.EFU_RESIDENT_LIMIT
      ((d.reg h Reg.EFU_RESIDENT_LIMIT &&& ~~~0x1FF) ||| w32 (min 256 (v.toNat % 512)))).residentTrim h := by
  rw [Wk.regEffect_engine rfl rfl who h v (by decide) (by decide)]
  simp +decide only [Wk.writeEngine, reduceIte, Dev.plainWrite_eq]
  rw [RegRow.store_limited (k := 9) (by decide) rfl rfl]
  rfl

theorem Wk.regEffect_laneSplit : w.regEffect who h Reg.TGU_LANE_SPLIT v =
    w.upd fun d => d.setReg h Reg.TGU_LANE_SPLIT ((d.reg h Reg.TGU_LANE_SPLIT &&& ~~~0x100FF) ||| (v &&& 0x100FF)) := by
  rw [Wk.regEffect_engine rfl rfl who h v (by decide) (by decide)]
  simp +decide only [Wk.writeEngine, reduceIte, Dev.plainWrite_eq]
  rw [RegRow.w32_store_zero rfl]
  rfl

theorem Wk.regEffect_poolReserve {p c : Nat} (hp : p < 16) (hc : c < 64) :
    w.regEffect who h (reserveOff p c) v = w.upd (·.setReserve h p c (v.toNat % 2097152)) := by
  have hp' : (reserveOff p c - Reg.BPM_POOL_RESERVE) / 0x100 = p := by rw [reserveOff_eq, Reg.BPM_POOL_RESERVE]; omega
  have hc' : (reserveOff p c - Reg.BPM_POOL_RESERVE) % 0x100 / 4 = c := by rw [reserveOff_eq, Reg.BPM_POOL_RESERVE]; omega
  rw [Wk.regEffect_engine (findRow_poolReserve hp hc) rfl who h v (by rw [reserveOff_eq]; omega) (by rw [reserveOff_eq]; omega)]
  simp +decide only [Wk.writeEngine, rowPoolReserve, reduceIte]
  rw [RegRow.store_unlimited (k := 21) (by decide) rfl rfl, hp', hc']
  rfl

theorem Wk.regEffect_portCfg {p : Nat} (hp : p < 16) :
    w.regEffect who h (Reg.FAB_PORT_CFG + 4 * p) v = w.portCfgWrite (16 * h.code + p) v.toNat := by
  have hoff : 0x200000 ≤ Reg.FAB_PORT_CFG + 4 * p := by simp only [Reg.FAB_PORT_CFG]; omega
  have hi : (Reg.FAB_PORT_CFG + 4 * p - Reg.FAB_PORT_CFG) / 4 = p := by omega
  rw [Wk.regEffect_far (findRow_portCfg p hp) rfl who h v hoff]
  simp +decide only [Wk.writeFar, reduceIte]
  rw [hi]

/-! #### Pairs -/

/-- A pair whose two words have one scope commits the low word held for it. -/
theorem Wk.regEffect_pair {lo : Nat} {row low : RegRow} (hrow : findRow (lo + 4) = some row) (hlow : findRow lo = some low)
    (hpart : row.part = .hi) (hpartLow : low.part = .lo) (hscope : row.scope = low.scope) (hoff : lo + 4 < 0x20000 ∨ 0x40000 ≤ lo + 4) :
    w.regEffect who h (lo + 4) v = (w.upd (·.dropLo h lo)).pairCommit h row (lo + 4) 0 (w.dev.heldLo h lo) v.toNat := by
  have hkey : holdKey h row (lo + 4) = holdKey h low lo := by
    simp [holdKey, hpart, hpartLow, regKey, hscope]
  have hdrop : (fun d : Dev => d.dropLo h lo) = fun d => { d with hold := adel d.hold (holdKey h low lo) } := by
    funext d
    simp only [Dev.dropLo, hlow]
  have hheld : w.dev.heldLo h lo = ((aget w.dev.hold (holdKey h low lo)).getD (w.dev.liveLow h (lo + 4))).toNat := by
    simp only [Dev.heldLo, Dev.liveLow, Nat.add_sub_cancel, hlow]
  rw [Wk.regEffect_hi hrow hpart (w.dev.windowOf_unowned h hoff), hkey, hdrop, hheld]

theorem Wk.regEffect_trainTable : w.regEffect who h Reg.TGU_TRAIN_TABLE_HI v =
    (w.upd (·.dropLo h Reg.TGU_TRAIN_TABLE_LO)).upd (·.trainTable (w.dev.heldLo h Reg.TGU_TRAIN_TABLE_LO + 2 ^ 32 * v.toNat)) := by
  refine (w.regEffect_pair (lo := Reg.TGU_TRAIN_TABLE_LO) who h v rfl rfl rfl rfl rfl (by decide)).trans ?_
  simp +decide only [Wk.pairCommit, reduceIte]

theorem Wk.regEffect_routeEntry : w.regEffect who h Reg.FAB_ROUTE_ENTRY_HI v =
    (w.upd (·.dropLo h Reg.FAB_ROUTE_ENTRY_LO)).routeSet (w.dev.heldLo h Reg.FAB_ROUTE_ENTRY_LO) v.toNat := by
  refine (w.regEffect_pair (lo := Reg.FAB_ROUTE_ENTRY_LO) who h v rfl rfl rfl rfl rfl (by decide)).trans ?_
  simp +decide only [Wk.pairCommit, reduceIte]

theorem Wk.regEffect_setupHash : w.regEffect who h Reg.FAB_SETUP_HASH_HI v =
    (w.upd (·.dropLo h Reg.FAB_SETUP_HASH_LO)).upd (·.setupHashWrite (w.dev.heldLo h Reg.FAB_SETUP_HASH_LO) v.toNat) := by
  refine (w.regEffect_pair (lo := Reg.FAB_SETUP_HASH_LO) who h v rfl rfl rfl rfl rfl (by decide)).trans ?_
  simp +decide only [Wk.pairCommit, reduceIte]

theorem Wk.regEffect_poolCfg {p : Nat} (hp : p < 16) : w.regEffect who h (Reg.BPM_POOL_CFG_HI + 8 * p) v =
    (w.upd (·.dropLo h (Reg.BPM_POOL_CFG_LO + 8 * p))).upd
      (·.poolCfg h p (w.dev.heldLo h (Reg.BPM_POOL_CFG_LO + 8 * p) % 2 ^ 24) (v.toNat % 2 ^ 21)) := by
  obtain ⟨hhi, hlo⟩ := findRow_poolCfg p hp
  have hoff : Reg.BPM_POOL_CFG_HI + 8 * p = Reg.BPM_POOL_CFG_LO + 8 * p + 4 := by
    simp only [Reg.BPM_POOL_CFG_LO, Reg.BPM_POOL_CFG_HI]; omega
  have hi : (Reg.BPM_POOL_CFG_LO + 8 * p + 4 - Reg.BPM_POOL_CFG_HI) / 8 = p := by omega
  rw [hoff] at hhi ⊢
  rw [w.regEffect_pair who h v hhi hlo rfl rfl rfl (by simp only [Reg.BPM_POOL_CFG_LO]; omega)]
  simp +decide only [Wk.pairCommit, reduceIte, Nat.add_sub_cancel, hlo, hi]
  rw [RegRow.store_unlimited (k := 24) (by decide) rfl rfl, RegRow.store_unlimited (k := 21) (by decide) rfl rfl]

end

/-! ### Where the arrays can be written -/

theorem writableAt_portCfg : ∀ p < 16, writableAt false (Reg.FAB_PORT_CFG + 4 * p) = true := by decide

theorem writableAt_poolCfg : ∀ p < 16, writableAt false (Reg.BPM_POOL_CFG_HI + 8 * p) = true := by decide

theorem writableAt_poolReserve {p c : Nat} (hp : p < 16) (hc : c < 64) : writableAt false (reserveOff p c) = true :=
  (writableAt_iff ..).2 ⟨by rw [reserveOff_eq]; omega, by rw [reserveOff_eq]; omega, _, findRow_poolReserve hp hc, by decide, rfl⟩

/-! ### The statement -/

/-- Settles O52: a write that the half window takes has its register's effect at once or, to a register of the lead's only in NORMAL,
joins the next batch (assumption 14); the effect is the one that the register's equation above names. -/
theorem windowRegistersAct : Obligations.WindowRegistersAct := by
  intro s fn now p c win v n w
  have hp : p % 16 < 16 := Nat.mod_lt _ (by decide)
  have hc : c % 64 < 64 := Nat.mod_lt _ (by decide)
  refine ⟨fun h => ?own, fun h => ?lead, fun h => ?joins⟩
  case own =>
    exact ⟨winWrite_acts h (by decide) (w.regEffect_fatalStatus ..),
      winWrite_acts h (by decide) (w.regEffect_deviceMode ..),
      winWrite_acts h (by decide) (w.regEffect_facetClk ..),
      winWrite_acts h (by decide) (w.regEffect_thermCfg ..),
      winWrite_acts h (by decide) (w.regEffect_ctxHigh ..),
      winWrite_acts h (by decide) (w.regEffect_predClear ..),
      winWrite_acts h (by decide) (w.regEffect_facetRetain ..),
      winWrite_acts h (writableAt_poolReserve hp hc) (w.regEffect_poolReserve _ _ _ hp hc),
      winWrite_acts h (writableAt_portCfg _ hp) (w.regEffect_portCfg _ _ _ hp),
      winWrite_acts h (by decide) (w.regEffect_mirHost ..),
      winWrite_acts h (by decide) ((w.regEffect_jstartCtl ..).trans w.jstartCtl_start),
      winWrite_acts h (by decide) ((w.regEffect_jstartCtl ..).trans w.jstartCtl_cancel),
      winWrite_acts h (by decide) (w.regEffect_mailbox ..),
      winWrite_acts h (by decide) (w.regEffect_laneSplit ..),
      winWrite_acts h (by decide) (w.regEffect_residentLimit ..),
      winWrite_acts h (writableAt_poolCfg _ hp) (w.regEffect_poolCfg _ _ _ hp)⟩
  case lead =>
    exact ⟨winWrite_acts h (by decide) (w.regEffect_remoteCtl ..),
      winWrite_acts h (by decide) (w.regEffect_remoteCtl ..),
      winWrite_acts h (by decide) ((w.regEffect_regionCtl ..).trans (congrArg w.upd (funext Dev.regionCtl_install))),
      winWrite_acts h (by decide) ((w.regEffect_regionCtl ..).trans (congrArg w.upd (funext Dev.regionCtl_remove))),
      winWrite_acts h (by decide) ((w.regEffect_regionCtl ..).trans (congrArg w.upd (funext Dev.regionCtl_lookup))),
      winWrite_acts h (by decide) (w.regEffect_readerCtl ..),
      winWrite_acts h (by decide) (w.regEffect_readerCtl ..),
      winWrite_acts h (by decide) (w.regEffect_readerCtl ..),
      winWrite_acts h (by decide) (w.regEffect_memberData ..),
      winWrite_acts h (by decide) (w.regEffect_groupCtl ..),
      winWrite_acts h (by decide) (w.regEffect_groupCtl ..),
      winWrite_acts h (by decide) (w.regEffect_groupCtl ..),
      winWrite_acts h (by decide) (w.regEffect_groupCtl ..),
      winWrite_acts h (by decide) (w.regEffect_mirJobCtl ..),
      winWrite_acts h (by decide) (w.regEffect_mirJobCtl ..),
      winWrite_acts h (by decide) (w.regEffect_mirPartner ..),
      winWrite_acts h (by decide) (w.regEffect_restoreCtl ..),
      winWrite_acts h (by decide) (w.regEffect_trainTable ..),
      winWrite_acts h (by decide) (w.regEffect_routeEntry ..),
      winWrite_acts h (by decide) (w.regEffect_setupHash ..)⟩
  case joins =>
    repeat' apply And.intro
    all_goals exact winWrite_joins h (by decide)

end Sys2Proof.Machine
end

section
/-! PROOFS. Nodes of the Prisms, the EFUs, the Lenses and the CEs at dispatch, and the events that they wait for (R68 to R73, R90, R91,
R101 to R111, R118, R127 to R130, R400, R401). -/

namespace Sys2Proof.Machine

open Sys2Proof

/-! ### What an engine's own work does with operands that pass its checks -/

section
variable {w : Wk} {i j : Nat} {x : Inst} {nb : List Byte}

/-- The place in the Prisms that a route node of `t` tokens takes (R71, R90). -/
def routeOf (i j : Nat) (x : Inst) (m : Node) (nb : List Byte) (scored : Bool) (t cut : Nat) : Route :=
  { seq := i, node := j, job := x.job, client := x.client, scored := scored, nb := nb, t := t, cut := cut, gen := none,
    admitted := ⟨0, 0⟩, aside := ⟨false, false⟩, stallAt := ⟨none, none⟩, stall := ⟨0, 0⟩, ord := m.dispOrd }

theorem Wk.runRoute_enters {m : Node} {scored : Bool} {t cut : Nat} (ht : t = m.shape.getD (rtTokens nb)) (hcut : cut = w.dev.routeCut nb t)
    (hok : routeOk scored nb t = true) (hwest : cut ≤ w.dev.ctxLimit .west x.client) (heast : t - cut ≤ w.dev.ctxLimit .east x.client) :
    w.runRoute scored i j x m nb =
      let r := routeOf i j x m nb scored t cut
      let v := w.upd (·.onPrism fun p => { p with routes := p.routes ++ [r] })
      if t = 0 then v.routeWrite r 0 [] [] else v.upd (·.drawGen i j) := by
  subst ht hcut
  have hlimit := not_or.2 ⟨Nat.not_lt.2 hwest, Nat.not_lt.2 heast⟩
  simp only [Wk.runRoute, hok, not_true_eq_false, if_false, if_neg hlimit]
  rfl

theorem Wk.runFetch_begins {dm : List Nat} (hok : fetchOk nb = true)
    (hgroup : (fetchOf i j x nb).mode = 2 → ∃ g, w.dev.group (fetchOf i j x nb).group = some g ∧ g.job = x.job)
    (hdemand : w.demandOf (fetchOf i j x nb) = .ok dm) :
    w.runFetch i j x nb = w.fetchBegin i j nb (fetchOf i j x nb) dm := by
  by_cases hmode : (fetchOf i j x nb).mode = 2
  · obtain ⟨g, hg, hjob⟩ := hgroup hmode
    simp [Wk.runFetch, hok, hg, hjob, hdemand]
  · simp [Wk.runFetch, hok, hmode, hdemand]

theorem Wk.runCombine_begins {hdr : List Byte} (hread : w.rdLocal x.job (cbArea nb) 64 = .ok hdr) (hok : combineOk nb hdr x.job = true)
    (hbatch : cbGrid nb = true ∨ fld hdr 0 2 ≠ 0 ∧ (w.dev.liveBatch x.job (fld hdr 0 2)).isSome = true) :
    w.runCombine i j x nb = w.combBegin i j x nb (fld hdr 0 2) := by
  rcases hbatch with hgrid | ⟨hgen, hlive⟩
  · simp [Wk.runCombine, hread, hok, hgrid]
  · obtain ⟨b, hb⟩ := Option.isSome_iff_exists.1 hlive
    simp [Wk.runCombine, hread, hok, hgen, hb]

theorem Wk.runCollective_begins {g : Group64} {o : CeOp} (h : w.collCheck i j x nb = .ok g o) :
    w.runCollective i j x nb = w.collBegin i j x nb g o := by
  simp only [Wk.runCollective, h]

end

/-- A node that is dispatched is left as its opcode's own work leaves it, when that is known. -/
theorem dispatch_leaves {s : State} {seq i op now : Nat} {can : Dev → Nat → Nat → Bool} {w v : Wk} {x : Inst} {m : Node}
    {nb : List Byte} (h : s.Dispatches seq i op now can w x m nb) {onNull : Wk → Inst → Wk} {run : Wk → Inst → Node → List Byte → Wk}
    {nullRuns : Bool} (hrun : run w x m nb = v) :
    finish s ((s.start.at_ now).dispatch seq i op can nullRuns onNull run) = .next (s.dispatchLeaves v) := by
  rw [dispatch_of h onNull run nullRuns, hrun]

/-- Settles O20: each opcode's own work, on operands that pass its checks, takes its place in its engine, and a dispatch leaves what
that work leaves. A node of 0 tokens draws no generation (assumption 45). -/
theorem expertNodesDispatch : Obligations.ExpertNodesDispatch := by
  intro s i j now w x m nb w0
  refine ⟨fun c op scored hc hd => ?route, fun dm hd hok hgroup hdemand => ?fetch,
    fun hdr hd hread hok hbatch => ?combine, fun g o hd hcheck => ?collective⟩
  case route =>
    intro t cut hok hwest heast r v
    have hrun := Wk.runRoute_enters (i := i) (j := j) rfl rfl hok hwest heast
    simp only [List.mem_cons, List.not_mem_nil, or_false, Prod.mk.injEq] at hc
    rcases hc with ⟨rfl, rfl, rfl⟩ | ⟨rfl, rfl, rfl⟩
    · exact dispatch_leaves hd hrun
    · exact dispatch_leaves hd hrun
  case fetch => exact dispatch_leaves hd (Wk.runFetch_begins hok hgroup hdemand)
  case combine => exact dispatch_leaves hd (Wk.runCombine_begins hread hok hbatch)
  case collective => exact dispatch_leaves hd (Wk.runCollective_begins hcheck)

/-! ### The events -/

section
variable {w : Wk} {d : Dev} {i j : Nat} {h : Half}

theorem Wk.groupAdmit_stalls {r : Route} (hr : w.dev.route_ i j = some r) (hopen : r.open_ h = true) (hturn : w.dev.prismTurn h r = true)
    (hadmit : w.dev.canAdmit h r = false) (hstall : r.stallAt.get h = none) :
    w.groupAdmit i j h = w.upd (·.onRoute i j fun r => { r with stallAt := r.stallAt.set h (some w.dev.time) }) := by
  simp [Wk.groupAdmit, hr, hopen, hturn, hadmit, hstall]

theorem Wk.groupAdmit_takes {r : Route} (hr : w.dev.route_ i j = some r) (hopen : r.open_ h = true) (hturn : w.dev.prismTurn h r = true)
    (hadmit : w.dev.canAdmit h r = true) : w.groupAdmit i j h = w.groupTake i j h r := by
  simp [Wk.groupAdmit, hr, hopen, hturn, hadmit]

theorem Dev.setAside_stalled {r : Route} {t : Nat} (hr : d.route_ i j = some r) (hstall : r.stallAt.get h = some t)
    (hlong : 4096 ≤ (d.time - t) * d.halfMhz h / 1000) :
    d.setAside i j h = d.onRoute i j fun r => { r with aside := r.aside.set h true } := by
  simp only [Dev.setAside, hr, hstall, if_pos hlong]

theorem Wk.admitTimeout_fails {r : Route} {k : Half} (hr : w.dev.route_ i j = some r) (hset : w.dev.rn k Reg.PRISM_ADMIT_TIMEOUT ≠ 0)
    (hlate : 1000 * w.dev.rn k Reg.PRISM_ADMIT_TIMEOUT < r.stalled k w.dev.time) : w.admitTimeout i j = w.fail i j stContext 0 := by
  cases k <;> simp [Wk.admitTimeout, hr, hset, hlate]

theorem Wk.expertStart_begins {f : Fetch} {n : Node} {e : Nat} (hf : w.dev.fetch i j = some f) (hn : w.dev.node i j = some n)
    (hrun : n.st = .running) (hst : f.st = .running) (hnext : w.dev.fetchNext f = some e) :
    w.expertStart i j e = w.expertBegin i j f e := by
  simp [Wk.expertStart, hf, hn, hrun, hst, hnext]

theorem Wk.multicast_sends {f : Fetch} {k n : Nat} {t : Stream} {bs : List Byte} {raw first : Bool}
    (hroom : ∀ u ∈ t.users, ∀ r, w.dev.run u.2 = some r → r.hasRoom = true) (htile : w.nextTile f t = .tile bs n raw first) :
    w.multicast f k t = w.sendTile f k t bs n raw first := by
  rw [Wk.multicast, if_neg, htile]
  rw [not_not, List.all_eq_true]
  intro u hu
  split
  case h_1 r hr => exact hroom u hu r hr
  case h_2 => rfl

theorem exec_tileMulticast {s : State} {e now : Nat} {f : Fetch} {p : Stream × Nat} (hf : (s.start.at_ now).dev.fetch i j = some f)
    (hp : (f.streams.zipIdx.find? fun p => p.1.expert = e ∧ ¬ p.1.ended) = some p) :
    exec (.tileMulticast i j e now) s = finish s ((s.start.at_ now).multicast f p.2 p.1) := by
  change execTileMulticast i j e now s = _
  simp only [execTileMulticast, hf, hp]

theorem Wk.prefetchStaging_stages {f : Fetch} (hf : w.dev.fetch i j = some f) (hst : f.st = .prefetch) :
    w.prefetchStaging i j h = w.stageNext f h := by
  simp only [Wk.prefetchStaging, hf, if_pos hst]

theorem Wk.resultNotice_handles {q : Notice} {l : List Notice} (htransit : w.dev.lens.transit = q :: l) (hroom : w.noticeRoom q = true) :
    w.resultNotice = (w.upd fun d => { d with lens := { d.lens with transit := l } }).handleNotice q := by
  simp only [Wk.resultNotice, htransit, hroom, not_true_eq_false, if_false]

end

/-- Settles O25: under its conditions each event comes to its own operation on the working state at the command's time. -/
theorem prismEfuLensEvents : Obligations.PrismEfuLensEvents := by
  intro s i j now h d w
  refine ⟨fun r hr hopen hturn hadmit hstall => ?stalls, fun r hr hopen hturn hadmit => ?takes, fun r t hr hstall hlong => ?aside,
    fun r k hr hset hlate => ?timeout, fun f n e hf hn hrun hst hnext => ?starts, fun f e k t bs n raw first hf hk hroom htile => ?sends,
    fun f hf hst => ?stages, fun q l htransit hroom => ?notice⟩
  case stalls => exact congrArg (finish s) (Wk.groupAdmit_stalls (w := w) hr hopen hturn hadmit hstall)
  case takes => exact congrArg (finish s) (Wk.groupAdmit_takes (w := w) hr hopen hturn hadmit)
  case aside => exact onDev_devAt (fun d => d.setAside i j h) (Dev.setAside_stalled hr hstall hlong)
  case timeout => exact congrArg (finish s) (Wk.admitTimeout_fails (w := w) hr hset hlate)
  case starts => exact congrArg (fun v : Wk => finish s v.graceScan) (Wk.expertStart_begins (w := w) hf hn hrun hst hnext)
  case sends =>
    exact (exec_tileMulticast hf hk).trans (congrArg (finish s) (Wk.multicast_sends (w := w) hroom htile))
  case stages => exact congrArg (finish s) (Wk.prefetchStaging_stages (w := w) hf hst)
  case notice => exact congrArg (finish s) (Wk.resultNotice_handles (w := w) htransit hroom)

end Sys2Proof.Machine
end

section
/-! PROOFS. Frames of a group that arrive, and those of the exchange of a FETCH_EXPERTS (R122 to R124, R239, R251, R364, R398, R399). -/

namespace Sys2Proof.Machine

open Sys2Proof

/-! ### What taking a transaction leaves -/

@[simp] theorem Dev.consume_ce (d : Dev) (p : Nat) (t : Txn) : (d.consume p t).ce = d.ce := by
  unfold Dev.consume; split <;> rfl

@[simp] theorem Dev.consume_efu (d : Dev) (p : Nat) (t : Txn) : (d.consume p t).efu = d.efu := by
  unfold Dev.consume; split <;> rfl

@[simp] theorem State.taking_ce (s : State) (now port : Nat) (t : Txn) : (s.taking now port t).dev.ce = (s.devAt now).ce :=
  Dev.consume_ce ..

@[simp] theorem State.taking_efu (s : State) (now port : Nat) (t : Txn) : (s.taking now port t).dev.efu = (s.devAt now).efu :=
  Dev.consume_efu ..

theorem State.taking_groupOf (s : State) (now port : Nat) (t u : Txn) :
    (s.taking now port t).dev.groupOf u = (s.devAt now).groupOf u := by
  simp [Dev.groupOf]

theorem State.taking_group (s : State) (now port k : Nat) (t : Txn) : (s.taking now port t).dev.group k = (s.devAt now).group k := by
  simp [Dev.group]

theorem State.taking_opOf (s : State) (now port k : Nat) (t : Txn) : (s.taking now port t).dev.opOf k = (s.devAt now).opOf k := by
  simp [Dev.opOf]

theorem State.hearing_group (s : State) (now port k : Nat) (t : Txn) (o : CeOp) :
    (s.hearing now port t o).dev.group k = (s.devAt now).group k :=
  s.taking_group now port k t

theorem State.hearing_fetch (s : State) (now port : Nat) (t : Txn) (o : CeOp) (seq i : Nat) :
    (s.hearing now port t o).dev.fetch seq i = (s.devAt now).fetch seq i := by
  simp [State.hearing, Dev.onOp, Dev.fetch]

/-- A command about a port does its work on the transaction that it takes, and returns credits. -/
theorem finish_onTxn {s : State} {now port : Nat} {kind : Txn → Bool} {t : Txn} (h : s.arrives now port kind t)
    (work : Wk → Txn → Wk) :
    finish s ((s.start.at_ now).onTxn port kind work) = .next (s.handled port (work (s.taking now port t) t)) := by
  have harr : (s.start.at_ now).dev.arrivedTxn port kind = some t := h
  simp only [Wk.onTxn, harr]
  rfl

/-- No entry of a list carries a number that a test looks for. -/
theorem any_fst_eq_false {β : Type} {l : List (Nat × β)} {n : Nat} (h : ∀ x ∈ l, x.1 ≠ n) : (l.any fun x => x.1 = n) = false :=
  List.any_eq_false.2 fun x hx => by simpa using h x hx

/-! ### A request that is new, and a MSG of one frame (R364, R399) -/

section
variable {w v : Wk} {t : Txn}

theorem Wk.request_fresh {apply : Wk → Wk × Nat} (hfresh : w.fresh t) (happly : apply w = (v, stOk)) (p : Nat) :
    w.request p t apply = v.marked t stOk := by
  have hnone : ((w.dev.winFor t.src t.seq).marks.find? fun m => m.1 = t.seq) = none := by
    simpa [Wk.fresh] using hfresh
  simp only [Wk.request, hnone, happly]
  rfl

theorem Wk.ceRequest_ok {exch : Wk → CeOp → CeFrame → Wk} (hfresh : w.fresh t) (hmsg : w.ceMsg exch t = (v, stOk)) (p : Nat) :
    w.ceRequest exch p t = v.marked t stOk := by
  have hnot : ¬ stOk = stParity := by decide
  simp only [Wk.ceRequest, hmsg, hnot, and_false, if_false]
  exact Wk.request_fresh hfresh hmsg p

theorem Wk.ceMsg_one {k : Nat} {g : Group64} {f : CeFrame} (hgroup : w.dev.groupOf t = some (k, g))
    (hmember : g.members.contains t.src = true) (hframe : readFrames 256 t.data = some [f]) (hepoch : f.epoch = g.epoch)
    (exch : Wk → CeOp → CeFrame → Wk) : w.ceMsg exch t = (w.ceFrame exch k f, stOk) := by
  simp [Wk.ceMsg, hgroup, List.contains_iff_mem.1 hmember, hframe, hepoch]

end

section
variable {s : State} {now port kind k : Nat} {t : Txn} {f : CeFrame} {g : Group64} {o : CeOp}
  (h : s.FrameComes now port kind t f k g o)
include h

/-- A command about a frame applies the frame and marks its MSG with OK. -/
theorem State.FrameComes.finish_onFrame :
    finish s ((s.start.at_ now).onFrame port kind) =
      .next (s.handled port (((s.taking now port t).ceFrame Wk.exchFrame k f).marked t stOk)) := by
  have hgroup := (s.taking_groupOf now port t t).trans h.group
  have hmsg := Wk.ceMsg_one hgroup h.member h.frame h.epoch Wk.exchFrame
  rw [Wk.onFrame, finish_onTxn h.arrives, Wk.ceRequest_ok h.fresh hmsg]

/-- An exchange frame goes to the exchange, which has heard from a member. -/
theorem State.FrameComes.ceFrame_exch (hkind : exchKind kind = true) (exch : Wk → CeOp → CeFrame → Wk) :
    (s.taking now port t).ceFrame exch k f = exch (s.hearing now port t o) o f := by
  have hgroup := (s.taking_group now port k t).trans h.entry
  have hop := (s.taking_opOf now port k t).trans h.op
  have hfkind : exchKind f.kind = o.exch := h.kind_ ▸ h.exch
  have hexch : o.exch = true := h.exch.symm.trans hkind
  simp only [Wk.ceFrame, hgroup, h.epoch, ne_eq, not_true_eq_false, if_false, hop, h.seq, hfkind, and_self, if_true, hexch]
  rfl

theorem State.FrameComes.finish_exch (hkind : exchKind kind = true) :
    finish s ((s.start.at_ now).onFrame port kind) =
      .next (s.handled port (((s.hearing now port t o).exchFrame o f).marked t stOk)) := by
  rw [h.finish_onFrame, h.ceFrame_exch hkind]

end

/-! ### Staging of a tile that has come by exchange (R122, R239, R251) -/

/-- Changes what a fetch holds of an expert that arrives by exchange. -/
def Dev.onExch (d : Dev) (q : Fetch) (e : Nat) (y : ExchIn → ExchIn) : Dev :=
  d.onFetch q.seq q.node fun q => { q with exch := q.exch.map fun z => if z.expert = e then y z else z }

/-- The expert with a tile in staging. -/
def ExchIn.stage (z : ExchIn) (k : Nat) (bs : List Byte) : ExchIn :=
  { z with tiles := z.tiles ++ [(k, bs)], parked := z.parked.filter (·.1 ≠ k) }

/-- The expert with a tile that waits for staging. -/
def ExchIn.park (z : ExchIn) (k : Nat) (bs : List Byte) : ExchIn := { z with parked := z.parked.filter (·.1 ≠ k) ++ [(k, bs)] }

/-- What a fetch holds of an expert that arrives by exchange. -/
def Dev.exchIn (d : Dev) (q : Fetch) (e : Nat) : Option ExchIn :=
  (d.fetch q.seq q.node).bind fun q => q.exch.find? fun z => z.expert = e

/-- Whether staging holds every tile that is wanted of an expert. -/
def Dev.exchWhole (d : Dev) (q : Fetch) (e : Nat) : Bool := ((d.exchIn q e).map fun z => z.tiles.length == z.want).getD false

/-- Counts an expert as received when the tile that has entered staging was the last one wanted. -/
def Dev.exchCounted (d : Dev) (q : Fetch) (e : Nat) : Dev :=
  match d.exchIn q e with
  | some x => if x.tiles.length = x.want then d.fetchCount q.seq q.node (stageHalf e) Reg.EFU_EXCHANGE_RECV_LO 1 else d
  | none => d

theorem Dev.exchCounted_eq (d : Dev) (q : Fetch) (e : Nat) :
    d.exchCounted q e = if d.exchWhole q e = true then d.fetchCount q.seq q.node (stageHalf e) Reg.EFU_EXCHANGE_RECV_LO 1 else d := by
  unfold Dev.exchCounted Dev.exchWhole
  cases d.exchIn q e with
  | none => rfl
  | some x => simp

/-- The device once copies have been evicted for `n` more bytes of staging in a half. -/
def Dev.roomFor (d : Dev) (h : Half) (n : Nat) : Dev := d.evictUntil h fun d => decide (d.uncarvedFree h < n)

section
variable (d : Dev) (q : Fetch) (e k : Nat) (bs : List Byte)

/-- A tile that the space or the quota has no room for waits (assumption 48). -/
theorem Dev.exchPut_parks
    (hfull : (d.roomFor (stageHalf e) bs.length).uncarvedFree (stageHalf e) < bs.length
      ∨ (d.roomFor (stageHalf e) bs.length).quotaAllows q.client true bs.length = false) :
    d.exchPut q e k bs = (d.roomFor (stageHalf e) bs.length).onExch q e (·.park k bs) := by
  rw [← Bool.not_eq_true] at hfull
  exact if_pos hfull

/-- A tile that there is room for is kept. -/
theorem Dev.exchPut_stages
    (hroom : ¬ ((d.roomFor (stageHalf e) bs.length).uncarvedFree (stageHalf e) < bs.length
      ∨ (d.roomFor (stageHalf e) bs.length).quotaAllows q.client true bs.length = false)) :
    d.exchPut q e k bs = ((d.roomFor (stageHalf e) bs.length).onExch q e (·.stage k bs)).exchCounted q e := by
  rw [← Bool.not_eq_true] at hroom
  exact if_neg hroom

end

/-! ### What each exchange frame does (R122 to R124) -/

section
variable {w : Wk} {o : CeOp} {f : CeFrame} {g : Group64} {q : Fetch}

/-- A sound tile of an expert awaited, new and within what is wanted, goes to staging. -/
theorem Wk.exchTile_sound {x : ExchIn} {k : Nat} {bs : List Byte} {tile : Tile} (hwant : k < x.want)
    (hnew : ∀ y ∈ x.tiles ++ x.parked, y.1 ≠ k) (hopen : openTile true bs = .ok tile) :
    w.exchTile o g q x k bs =
      (w.upd (·.onExch q x.expert fun _ => { x with parts := x.parts.filter fun p => p.1.1 ≠ k })).upd fun d =>
        (d.exchPut q x.expert k bs).fetchScan := by
  have hskip : ¬ (k ≥ x.want ∨ (x.tiles ++ x.parked).any (fun y => y.1 = k) = true) := by
    simp only [any_fst_eq_false hnew, Bool.false_eq_true, or_false, not_le, ge_iff_le]
    exact hwant
  refine (if_neg hskip).trans ?_
  rw [hopen]
  rfl

variable (hgroup : w.dev.group o.group = some g) (hfetch : w.dev.fetch o.inst o.node = some q)
include hgroup hfetch

theorem Wk.exchFrame_tile {x : ExchIn} (hkind : f.kind = 3) (hparts : f.parts = 1)
    (hx : q.exch.find? (fun x => x.expert = fld f.body 0 2) = some x) :
    w.exchFrame o f = w.exchTile o g q x f.index (f.body.drop 4) := by
  simp only [Wk.exchFrame, hgroup, hfetch, hkind, hx, hparts, if_true]

variable (hseq : fld f.body 0 4 = o.seq) (hepoch : fld f.body 4 4 = g.epoch) (hfirst : fld f.body 8 2 = q.first)
  (hlast : fld f.body 0xA 2 = q.last) (hslot : fld f.body 0xE 1 = q.slot)
include hseq hepoch hfirst hlast hslot

theorem Wk.exchFrame_demand (hkind : f.kind = 1) (hnew : ∀ x ∈ q.demands, x.1 ≠ f.src) :
    w.exchFrame o f =
      ((w.upd (·.onFetch q.seq q.node fun q => { q with demands := q.demands ++ [(f.src, f.body.drop 0x10)] })).exchServe q.seq
        q.node).upd (·.fetchScan) := by
  simp [Wk.exchFrame, hgroup, hfetch, hkind, hseq, hepoch, hfirst, hlast, hslot, any_fst_eq_false hnew, -List.any_eq_true]

theorem Wk.exchFrame_repair (hkind : f.kind = 2) : w.exchFrame o f = w.exchServeOne o g q (fld f.body 0xC 2) [f.src] := by
  simp [Wk.exchFrame, hgroup, hfetch, hkind, hseq, hepoch, hfirst, hlast, hslot]

end

/-- Settles O35: each frame reaches the exchange of its fetch, and its kind's row of R399 is what is done. That a tile without room
waits is the model's choice (assumption 48). -/
theorem exchangeFramesApply : Obligations.ExchangeFramesApply := by
  intro s port now k t f g o q v b hq
  have hfetch : v.dev.fetch o.inst o.node = some q := (s.hearing_fetch now port t o o.inst o.node).trans hq
  have group {kind : Nat} (h : s.FrameComes now port kind t f k g o) : v.dev.group o.group = some g :=
    (s.hearing_group now port o.group t o).trans (h.idx ▸ h.entry)
  refine ⟨fun h hseq hepoch hfirst hlast hslot hnew => ?demand, fun h hseq hepoch hfirst hlast hslot => ?repair,
    fun x tile h hparts hx hwant hnew hopen => ?tile⟩
  case demand =>
    refine (h.finish_exch rfl).trans ?_
    rw [Wk.exchFrame_demand (group h) hfetch hseq hepoch hfirst hlast hslot h.kind_ hnew]
  case repair =>
    refine (h.finish_exch rfl).trans ?_
    rw [Wk.exchFrame_repair (group h) hfetch hseq hepoch hfirst hlast hslot h.kind_]
  case tile =>
    intro half bs onExch u d held whole e
    have hput : u.exchPut q x.expert f.index bs = e := by
      by_cases hfull : d.uncarvedFree half < bs.length ∨ d.quotaAllows q.client true bs.length = false
      · exact (Dev.exchPut_parks u q x.expert f.index bs hfull).trans (if_pos hfull).symm
      · have hstages := Dev.exchPut_stages u q x.expert f.index bs hfull
        exact (hstages.trans (held.exchCounted_eq q x.expert)).trans (if_neg hfull).symm
    refine (h.finish_exch rfl).trans ?_
    rw [Wk.exchFrame_tile (group h) hfetch h.kind_ hparts hx, Wk.exchTile_sound hwant hnew hopen, ← hput]
    rfl

end Sys2Proof.Machine
end

section
/-! PROOFS. Control flow, scalars, vectors and reads of the facet (R143, R155 to R160, R163, R164, R177, R178). -/

namespace Sys2Proof.Machine

open Sys2Proof

/-! ### Registers (R143) -/

theorem FacetRun.ws_eq_setS (r : FacetRun) (i x : Nat) : r.ws i x = r.setS i (BitVec.ofNat 64 x) := rfl

theorem FacetRun.ofNat_rs (r : FacetRun) (i : Nat) : BitVec.ofNat 64 (r.rs i) = r.sreg i := by
  rw [r.rs_eq_toNat, BitVec.ofNat_toNat, BitVec.setWidth_eq]

theorem FacetRun.sreg_setS_ne (r : FacetRun) {i j : Nat} (x : Word64) (h : i ≠ j) : (r.setS j x).sreg i = r.sreg i := by
  by_cases hj : j = 0
  · rw [FacetRun.setS, if_pos hj]
  · simp [FacetRun.setS, FacetRun.sreg, hj, nth, setNth, List.getD, Ne.symm h]

theorem aget_aput_ne {κ α : Type} [DecidableEq κ] (l : List (κ × α)) {k k' : κ} (x : α) (h : k' ≠ k) :
    aget (aput l k x) k' = aget l k' := by
  induction l with
  | nil => simp [aput, aget, Ne.symm h]
  | cons p t ih =>
    by_cases hp : p.1 = k
    · simp [aput, aget, hp, Ne.symm h]
    · simp [aput, aget, hp, ih]

theorem FacetRun.vec_setVec_ne (r : FacetRun) {i j : Nat} (l : List Nat) (h : i ≠ j) : (r.setVec j l).vec i = r.vec i := by
  simp only [FacetRun.vec, FacetRun.setVec, aget_aput_ne _ _ h]

theorem FacetRun.slot_setSlot_ne (r : FacetRun) {i j : Nat} (l : List Nat) (h : i ≠ j) : (r.setSlot j l).slot i = r.slot i := by
  simp only [FacetRun.slot, FacetRun.setSlot, aget_aput_ne _ _ h]

/-! ### Scalar operations on words (R159) -/

section
variable (a b : Word64)

theorem ofNat_toNat_add_sub : BitVec.ofNat 64 (a.toNat + 2 ^ 64 - b.toNat) = a - b := by
  apply BitVec.eq_of_toNat_eq
  have hb := b.isLt
  rw [BitVec.toNat_ofNat, BitVec.toNat_sub]
  congr 1
  omega

theorem ofNat_toNat_shiftLeft (n : Nat) : BitVec.ofNat 64 (a.toNat <<< n) = a <<< n :=
  BitVec.eq_of_toNat_eq (by rw [BitVec.toNat_ofNat, BitVec.toNat_shiftLeft])

theorem ofNat_toNat_shiftRight (n : Nat) : BitVec.ofNat 64 (a.toNat >>> n) = a >>> n := by
  rw [← BitVec.toNat_ushiftRight, BitVec.ofNat_toNat, BitVec.setWidth_eq]

theorem sext_toNat : sext a.toNat 64 = a.toInt := by
  rw [sext_eq_toInt, BitVec.ofNat_toNat, BitVec.setWidth_eq]

theorem ofNat_smin : BitVec.ofNat 64 (smin a.toNat b.toNat) = if a.sle b then a else b := by
  by_cases h : a.toInt ≤ b.toInt <;> simp [smin, sext_toNat, BitVec.sle_eq_decide, h]

theorem ofNat_smax : BitVec.ofNat 64 (smax a.toNat b.toNat) = if b.sle a then a else b := by
  by_cases h : b.toInt ≤ a.toInt <;> simp [smax, sext_toNat, BitVec.sle_eq_decide, h]

theorem ofNat_lih : BitVec.ofNat 64 (b.toNat * 2 ^ 32 ||| a.toNat % 2 ^ 32) = (b <<< 32) ||| (a &&& 0xFFFFFFFF) := by
  apply BitVec.eq_of_toNat_eq
  have hmask : (0xFFFFFFFF : Word64).toNat = 2 ^ 32 - 1 := rfl
  rw [BitVec.toNat_ofNat, BitVec.toNat_or, BitVec.toNat_shiftLeft, BitVec.toNat_and, hmask, Nat.and_two_pow_sub_one_eq_mod,
    Nat.shiftLeft_eq, Nat.or_mod_two_pow, Nat.mod_eq_of_lt (a := a.toNat % 2 ^ 32) (by omega)]

end

/-! ### The bodies of SCALAR -/

section
variable (w : Wk) (f : Nat) (r : FacetRun) (word : Nat)

/-- `op` computes `res` on S[SA] and S[SB]. -/
theorem bodyScalar_word {op : Nat → Nat → Nat} {res : Word64 → Word64 → Word64 → Word64}
    (h : ∀ a b i : Word64, BitVec.ofNat 64 (op a.toNat b.toNat) = res a b i) :
    bodyScalar op w f r word =
      .next w (r.setS (bits word 51 5) (res (r.sreg (bits word 46 5)) (r.sreg (bits word 41 5)) (immWord word))) := by
  rw [← h, ← r.rs_eq_toNat, ← r.rs_eq_toNat]
  rfl

/-- `op` computes `res` on S[SA] and IMM. -/
theorem bodyImm_word {op : Nat → Nat → Nat} {res : Word64 → Word64 → Word64 → Word64}
    (h : ∀ a b i : Word64, BitVec.ofNat 64 (op a.toNat i.toNat) = res a b i) :
    bodyImm op w f r word =
      .next w (r.setS (bits word 51 5) (res (r.sreg (bits word 46 5)) (r.sreg (bits word 41 5)) (immWord word))) := by
  rw [← h, ← r.rs_eq_toNat, ← immOf_eq_toNat]
  rfl

/-- `op` computes `res` on S[SA] and the amount that S[SB] and IMM give. -/
theorem bodyShift_word {op : Nat → Nat → Nat} {res : Word64 → Word64 → Word64 → Word64}
    (h : ∀ a b i : Word64, BitVec.ofNat 64 (op a.toNat ((b + i).toNat % 64)) = res a b i) :
    bodyShift op w f r word =
      .next w (r.setS (bits word 51 5) (res (r.sreg (bits word 46 5)) (r.sreg (bits word 41 5)) (immWord word))) := by
  rw [← h, ← r.rs_add_immOf, ← r.rs_eq_toNat, Nat.mod_mod_of_dvd _ (by decide : 64 ∣ 2 ^ 64)]
  rfl

end

section
variable {s : State} {f now word op : Nat} {r : FacetRun}

/-- Each opcode of R159 leaves in S[SD] what its operation gives on S[SA], S[SB] and IMM. -/
theorem exec_scalarOps {c : Instr} {res : Word64 → Word64 → Word64 → Word64} (hc : (c, op, res) ∈ scalarOps f now)
    (h : s.atInstr f op word r) :
    exec c s = .next (s.withRun f now
      (r.setS (bits word 51 5) (res (r.sreg (bits word 46 5)) (r.sreg (bits word 41 5)) (immWord word))).onward) := by
  simp only [scalarOps, List.mem_cons, List.not_mem_nil, or_false, Prod.mk.injEq] at hc
  rcases hc with ⟨rfl, rfl, hres⟩ | ⟨rfl, rfl, hres⟩ | ⟨rfl, rfl, hres⟩ | ⟨rfl, rfl, hres⟩ | ⟨rfl, rfl, hres⟩ | ⟨rfl, rfl, hres⟩ |
    ⟨rfl, rfl, hres⟩ | ⟨rfl, rfl, hres⟩ | ⟨rfl, rfl, hres⟩ | ⟨rfl, rfl, hres⟩ | ⟨rfl, rfl, hres⟩ | ⟨rfl, rfl, hres⟩ | ⟨rfl, rfl, hres⟩
  · exact facetInstr_next h now _ (bodyScalar_word _ f r word fun a b i => by simp [hres, BitVec.ofNat_add])
  · exact facetInstr_next h now _ (bodyImm_word _ f r word fun a b i => by simp [hres, BitVec.ofNat_add])
  · exact facetInstr_next h now _ (bodyScalar_word _ f r word fun a b i => hres ▸ ofNat_toNat_add_sub a b)
  · exact facetInstr_next h now _ (bodyScalar_word _ f r word fun a b i => by simp [hres, BitVec.ofNat_mul])
  · exact facetInstr_next h now _ (bodyScalar_word _ f r word fun a b i => by simp [hres])
  · exact facetInstr_next h now _ (bodyScalar_word _ f r word fun a b i => by simp [hres])
  · exact facetInstr_next h now _ (bodyScalar_word _ f r word fun a b i => by simp [hres])
  · exact facetInstr_next h now _ (bodyShift_word _ f r word fun a b i => hres ▸ ofNat_toNat_shiftLeft a _)
  · exact facetInstr_next h now _ (bodyShift_word _ f r word fun a b i => hres ▸ ofNat_toNat_shiftRight a _)
  · exact facetInstr_next h now _ (bodyScalar_word _ f r word fun a b i => hres ▸ ofNat_smin a b)
  · exact facetInstr_next h now _ (bodyScalar_word _ f r word fun a b i => hres ▸ ofNat_smax a b)
  · exact facetInstr_next h now _ (bodyImm_word _ f r word fun a b i => by simp [hres])
  · exact facetInstr_next h now _ (bodyImm_word _ f r word fun a b i => hres ▸ ofNat_lih a i)

end

/-! ### Control flow (R156 to R158) -/

section
variable (a b : Word64)

theorem branchCond_eq_word : branchCond 0 a.toNat b.toNat = branchTaken 0 a b := decide_eq_decide.2 BitVec.toNat_inj

theorem branchCond_ne_word : branchCond 1 a.toNat b.toNat = branchTaken 1 a b :=
  congrArg not (decide_eq_decide.2 BitVec.toNat_inj)

theorem branchCond_lt_word : branchCond 2 a.toNat b.toNat = branchTaken 2 a b := by
  have hslt : decide (sext a.toNat 64 < sext b.toNat 64) = a.slt b := by
    rw [sext_toNat, sext_toNat, BitVec.slt_eq_decide]
  exact hslt

theorem branchCond_ge_eq (x y : Nat) : branchCond 3 x y = decide (sext x 64 ≥ sext y 64) := rfl

theorem branchTaken_ge_eq : branchTaken 3 a b = !a.slt b := rfl

theorem branchCond_ge_word : branchCond 3 a.toNat b.toNat = branchTaken 3 a b := by
  rw [branchCond_ge_eq, branchTaken_ge_eq, sext_toNat, sext_toNat, BitVec.slt_eq_decide, ← decide_not]
  exact decide_eq_decide.2 not_lt.symm

theorem branchCond_ltu_eq (x y : Nat) : branchCond 4 x y = decide (x < y) := rfl

theorem branchTaken_ltu_eq : branchTaken 4 a b = a.ult b := rfl

theorem branchCond_ltu_word : branchCond 4 a.toNat b.toNat = branchTaken 4 a b := by
  rw [branchCond_ltu_eq, branchTaken_ltu_eq, BitVec.ult_eq_decide]

theorem branchCond_geu_eq (x y c : Nat) : branchCond (c + 5) x y = decide (x ≥ y) := rfl

theorem branchTaken_geu_eq (c : Nat) : branchTaken (c + 5) a b = !a.ult b := rfl

theorem branchCond_geu_word (c : Nat) : branchCond (c + 5) a.toNat b.toNat = branchTaken (c + 5) a b := by
  rw [branchCond_geu_eq, branchTaken_geu_eq, BitVec.ult_eq_decide, ← decide_not]
  exact decide_eq_decide.2 not_lt.symm

theorem branchCond_word (c : Nat) : branchCond c a.toNat b.toNat = branchTaken c a b :=
  match c with
  | 0 => branchCond_eq_word a b
  | 1 => branchCond_ne_word a b
  | 2 => branchCond_lt_word a b
  | 3 => branchCond_ge_word a b
  | 4 => branchCond_ltu_word a b
  | c + 5 => branchCond_geu_word a b c

end

theorem offsetOf_eq (word : Nat) : offsetOf word = branchOff word := sext_eq_toInt word 24

section
variable (w : Wk) (f : Nat) (r : FacetRun) (word : Nat)

theorem bodyBc_word : bodyBc w f r word =
    if branchTaken (bits word 43 3) (r.sreg (bits word 51 5)) (r.sreg (bits word 46 5)) then .jump w r (r.pc + branchOff word)
    else .next w r := by
  rw [← branchCond_word, ← offsetOf_eq, ← r.rs_eq_toNat, ← r.rs_eq_toNat]
  rfl

theorem bodyLoop_word {q : FacetRun} (hq : q = r.setS (bits word 51 5) (r.sreg (bits word 51 5) - 1)) :
    bodyLoop w f r word = if q.sreg (bits word 51 5) ≠ 0 then .jump w q (r.pc + branchOff word) else .next w q := by
  have hdec : r.ws (bits word 51 5) (r.rs (bits word 51 5) + (2 ^ 64 - 1)) = q := by
    rw [hq, FacetRun.ws_eq_setS, BitVec.ofNat_add, r.ofNat_rs, BitVec.sub_eq_add_neg]
    rfl
  have hpc : q.pc = r.pc := by
    rw [hq, FacetRun.setS]
    split <;> rfl
  have hzero : q.rs (bits word 51 5) ≠ 0 ↔ q.sreg (bits word 51 5) ≠ 0 := by
    rw [q.rs_eq_toNat]
    exact not_congr (BitVec.toNat_inj (y := 0))
  simp only [bodyLoop, f51, hdec, hpc, offsetOf_eq, if_congr hzero rfl rfl]

theorem bodyCall_full (h : 8 ≤ r.calls.length) : bodyCall w f r word = .fatal w 0x39 (r.addr r.pc) := if_pos h

theorem bodyCall_pushes (h : r.calls.length < 8) :
    bodyCall w f r word = .jump w { r with calls := (r.pc + 1) :: r.calls } (r.pc + branchOff word) := by
  rw [← offsetOf_eq]
  exact if_neg (Nat.not_le.2 h)

theorem bodyRet_empty (h : r.calls = []) : bodyRet w f r word = .fatal w 0x39 (r.addr r.pc) := by
  rw [bodyRet, h]
  rfl

theorem bodyRet_pops {a : Int} {l : List Int} (h : r.calls = a :: l) : bodyRet w f r word = .jump w { r with calls := l } a := by
  rw [bodyRet, h]

end

/-- At a word that is not well encoded, or at a pc past the code, the command of any instruction fails (R157). -/
theorem facetInstr_illegal {s : State} {f : Nat} {r : FacetRun} (hrun : s.dev.run f = some r) (hload : r.loaded = true)
    (hdrain : r.drain = false) (hstall : s.dev.nodeStalled r = false) (hword : ∀ v, r.word = some v → encodingOk v = false)
    (now op : Nat) (body : Wk → Nat → FacetRun → Nat → Res) :
    facetInstr f now op body s = .next (s.put ((s.start.at_ now).facetFail r 0x39 (r.addr r.pc))) := by
  have hrun' : (s.start.at_ now).dev.run f = some r := hrun
  have hstall' : (s.start.at_ now).dev.nodeStalled r = false := hstall
  have hgo : ¬ (¬ r.loaded = true ∨ r.drain = true ∨ (s.start.at_ now).dev.nodeStalled r = true) := by
    simp only [hload, hdrain, hstall', not_true_eq_false, Bool.false_eq_true, or_self, not_false_eq_true]
  simp only [facetInstr, Wk.facetStep, hrun', if_neg hgo]
  cases hv : r.word with
  | none => rfl
  | some v =>
    simp only [hword v hv]
    rfl

/-- Settles O6: each body has an equation on words, and the facet's step carries it to the state; a command at a word that is not
well encoded fails before its body is met. -/
theorem facetControlFlow : Obligations.FacetControlFlow := by
  refine ⟨fun s f now word r => ⟨fun hat => ?nop, fun hat => ?br, fun hat => ?bc, fun hat => ?loop, fun hat hroom => ?call,
    fun a l hat hcalls => ?ret⟩, fun s f now word r => ⟨fun hat => ?trap, fun hat hfull => ?callFull, fun hat hnone => ?retEmpty,
    fun hrun hload hdrain hstall hword => ?illegal⟩⟩
  case nop => exact facetInstr_next hat now bodyNop rfl
  case br => exact facetInstr_jump hat now bodyBr (by rw [← offsetOf_eq]; rfl)
  case bc =>
    have hbody := bodyBc_word (s.start.at_ now) f r word
    split at hbody
    · rw [if_pos ‹_›]
      exact facetInstr_jump hat now bodyBc hbody
    · rw [if_neg ‹_›]
      exact facetInstr_next hat now bodyBc hbody
  case loop =>
    dsimp only
    have hbody := bodyLoop_word (s.start.at_ now) f r word rfl
    split at hbody
    · rw [if_pos ‹_›]
      exact facetInstr_jump hat now bodyLoop hbody
    · rw [if_neg ‹_›]
      exact facetInstr_next hat now bodyLoop hbody
  case call => exact facetInstr_jump hat now bodyCall (bodyCall_pushes _ f r word hroom)
  case ret => exact facetInstr_jump hat now bodyRet (bodyRet_pops _ f r word hcalls)
  case trap => exact facetInstr_fatal hat rfl
  case callFull => exact facetInstr_fatal hat (bodyCall_full _ f r word hfull)
  case retEmpty => exact facetInstr_fatal hat (bodyRet_empty _ f r word hnone)
  case illegal => exact facetInstr_illegal hrun hload hdrain hstall hword now 0x10 _

/-! ### Vectors (R163, R164, R177, R178) -/

section
variable {s : State} {f now word op : Nat} {r : FacetRun}

theorem bits_low (x n : Nat) : bits x 0 n = x % 2 ^ n := by rw [bits, pow_zero, Nat.div_one]

theorem bodyVbcast_word (w : Wk) (f : Nat) (r : FacetRun) (word : Nat) : bodyVbcast w f r word =
    .next w (r.setVec (bits word 51 5) (List.replicate 128 ((r.sreg (bits word 10 5)).toNat % 2 ^ 32))) := by
  rw [bodyVbcast, bits_low, r.rs_eq_toNat]
  rfl

/-- The lanes that VA and VB both have, under a lane-by-lane operation. -/
theorem nth_zip_zipIdx_map (va vb : List Nat) (g : (Nat × Nat) × Nat → Nat) {i : Nat} (h : i < min va.length vb.length) :
    nth ((va.zip vb).zipIdx.map g) i 0 = g ((nth va i 0, nth vb i 0), i) := by
  have hab : i < va.length ∧ i < vb.length := Nat.lt_min.1 h
  simp [nth, List.getD, hab.1, hab.2]

theorem facetInstr_lanes (h : s.atInstr f op word r) (lane : Nat → Nat → Nat → Nat) :
    ∃ l : List Nat, facetInstr f now op (bodyLanes lane) s = .next (s.withRun f now (r.setVec (bits word 51 5) l).onward)
      ∧ l.length = min (r.vec (bits word 46 5)).length (r.vec (bits word 41 5)).length
      ∧ ∀ i, i < l.length → nth l i 0 =
          lane (nth (r.vec (bits word 46 5)) i 0) (nth (r.vec (bits word 41 5)) i 0) (nth (r.vec (bits word 36 5)) i 0) := by
  refine ⟨_, facetInstr_next h now (bodyLanes lane) rfl, ?length, fun i hi => nth_zip_zipIdx_map _ _ _ ?lt⟩
  case length => rw [List.length_map, List.length_zipIdx, List.length_zip]; rfl
  case lt => rwa [List.length_map, List.length_zipIdx, List.length_zip] at hi

end

/-- Settles O8: each body is, by its definition, one write of its destination. -/
theorem facetVectorMoves : Obligations.FacetVectorMoves := by
  intro s f now word r
  refine ⟨fun hat => ?vbcast, fun hat => ?vext, fun hat => ?vrsum, fun hat => ?vrmax, fun hat => ?vlda, fun hat => ?vsta,
    fun c op fn hc hat => ?special⟩
  case vbcast => exact facetInstr_next hat now bodyVbcast (bodyVbcast_word ..)
  case vext => exact facetInstr_next hat now bodyVext rfl
  case vrsum => exact facetInstr_next hat now (bodyTree fadd) rfl
  case vrmax => exact facetInstr_next hat now (bodyTree fmax) rfl
  case vlda => exact facetInstr_next hat now bodyVlda rfl
  case vsta => exact facetInstr_next hat now bodyVsta rfl
  case special =>
    have hbody : bodySpecial fn (s.start.at_ now) f r word =
      .next (s.start.at_ now) (r.setVec (bits word 51 5) ((r.vec (bits word 46 5)).map (special fn))) := rfl
    simp only [specialOps, List.mem_cons, List.not_mem_nil, or_false, Prod.mk.injEq] at hc
    rcases hc with ⟨rfl, rfl, rfl⟩ | ⟨rfl, rfl, rfl⟩ | ⟨rfl, rfl, rfl⟩ | ⟨rfl, rfl, rfl⟩ | ⟨rfl, rfl, rfl⟩ | ⟨rfl, rfl, rfl⟩ |
      ⟨rfl, rfl, rfl⟩ | ⟨rfl, rfl, rfl⟩ | ⟨rfl, rfl, rfl⟩ | ⟨rfl, rfl, rfl⟩ | ⟨rfl, rfl, rfl⟩ | ⟨rfl, rfl, rfl⟩ <;>
    exact facetInstr_next hat now _ hbody

/-- What VBCAST to VSTA and the special functions leave of a run, by opcode: the run goes on, and only the destination of the opcode
may differ. -/
def FacetRun.framedBy (r : FacetRun) (op word : Nat) (q : FacetRun) : Prop :=
  q.pc = r.pc + 1 ∧ q.tp = r.tp ∧ q.scratch = r.scratch ∧ q.calls = r.calls ∧ q.logUsed = r.logUsed
    ∧ (∀ i, ¬ (op = 0x49 ∧ i = bits word 10 5) → q.sreg i = r.sreg i)
    ∧ (∀ i, ¬ (op = 0x4F ∧ i = bits word 30 4) → q.slot i = r.slot i)
    ∧ (∀ i, op = 0x49 ∨ op = 0x4F ∨ i ≠ bits word 51 5 → q.vec i = r.vec i)

section
variable (r : FacetRun) (word : Nat)

theorem FacetRun.setVec_framed {op : Nat} (l : List Nat) (h : op ≠ 0x49 ∧ op ≠ 0x4F) :
    r.framedBy op word (r.setVec (bits word 51 5) l).onward :=
  ⟨rfl, rfl, rfl, rfl, rfl, fun _ _ => rfl, fun _ _ => rfl,
    fun _ hi => r.vec_setVec_ne l ((hi.resolve_left h.1).resolve_left h.2)⟩

theorem FacetRun.setSlot_framed (l : List Nat) : r.framedBy 0x4F word (r.setSlot (bits word 30 4) l).onward :=
  ⟨rfl, rfl, rfl, rfl, rfl, fun _ _ => rfl, fun _ hi => r.slot_setSlot_ne l fun e => hi ⟨rfl, e⟩, fun _ _ => rfl⟩

theorem FacetRun.setS_framed (x : Word64) : r.framedBy 0x49 word (r.setS (bits word 10 5) x).onward := by
  have hsreg : ∀ i, ¬ (0x49 = 0x49 ∧ i = bits word 10 5) → (r.setS (bits word 10 5) x).sreg i = r.sreg i :=
    fun i hi => r.sreg_setS_ne x fun e => hi ⟨rfl, e⟩
  by_cases h0 : bits word 10 5 = 0
  · rw [FacetRun.setS, if_pos h0]
    exact ⟨rfl, rfl, rfl, rfl, rfl, fun _ _ => rfl, fun _ _ => rfl, fun _ _ => rfl⟩
  · rw [FacetRun.setS, if_neg h0] at hsreg ⊢
    exact ⟨rfl, rfl, rfl, rfl, rfl, hsreg, fun _ _ => rfl, fun _ _ => rfl⟩

end

/-- Settles O5: the scalar and lane operations by the equations of their bodies; the moves and special functions by O8, each of whose
results is a write of one register or slot. -/
theorem facetArithmetic : Obligations.FacetArithmetic := by
  refine ⟨fun s f now word op r c res hc hat => exec_scalarOps hc hat, fun s f now word op r c lane hc hat => ?lanes,
    fun s f now word op r c hc hat => ?moves⟩
  case lanes =>
    simp only [laneOps, List.mem_cons, List.not_mem_nil, or_false, Prod.mk.injEq] at hc
    rcases hc with ⟨rfl, rfl, rfl⟩ | ⟨rfl, rfl, rfl⟩ | ⟨rfl, rfl, rfl⟩ | ⟨rfl, rfl, rfl⟩ | ⟨rfl, rfl, rfl⟩ | ⟨rfl, rfl, rfl⟩ |
      ⟨rfl, rfl, rfl⟩ | ⟨rfl, rfl, rfl⟩ <;>
    exact facetInstr_lanes hat _
  case moves =>
    obtain ⟨hbcast, hext, hsum, hmax, hlda, hsta, hspecial⟩ := facetVectorMoves s f now word r
    simp only [List.mem_cons, List.not_mem_nil, or_false, Prod.mk.injEq] at hc
    rcases hc with ⟨rfl, rfl⟩ | ⟨rfl, rfl⟩ | ⟨rfl, rfl⟩ | ⟨rfl, rfl⟩ | ⟨rfl, rfl⟩ | ⟨rfl, rfl⟩ | hc
    · exact ⟨_, hbcast hat, r.setVec_framed word _ (by decide)⟩
    · exact ⟨_, hext hat, r.setS_framed word _⟩
    · exact ⟨_, hsum hat, r.setVec_framed word _ (by decide)⟩
    · exact ⟨_, hmax hat, r.setVec_framed word _ (by decide)⟩
    · exact ⟨_, hlda hat, r.setVec_framed word _ (by decide)⟩
    · exact ⟨_, hsta hat, r.setSlot_framed word _⟩
    · obtain ⟨fn, hfn, hop⟩ : ∃ fn, (c, op, fn) ∈ specialOps f now ∧ (op ≠ 0x49 ∧ op ≠ 0x4F) := by
        rcases hc with ⟨rfl, rfl⟩ | ⟨rfl, rfl⟩ | ⟨rfl, rfl⟩ | ⟨rfl, rfl⟩ | ⟨rfl, rfl⟩ | ⟨rfl, rfl⟩ | ⟨rfl, rfl⟩ | ⟨rfl, rfl⟩ |
          ⟨rfl, rfl⟩ | ⟨rfl, rfl⟩ | ⟨rfl, rfl⟩ | ⟨rfl, rfl⟩ <;>
        simp [specialOps]
      exact ⟨_, hspecial c op fn hfn hat, r.setVec_framed word _ hop⟩

/-! ### Reads (R160, R167, R187) -/

/-- The table of R160 lists what RDSPEC reads. -/
theorem mem_specialValues_iff (d : Dev) (r : FacetRun) (code x : Nat) :
    (code, x) ∈ specialValues d r ↔ d.rdspec r code = some x := by
  constructor
  · intro h
    simp only [specialValues, List.mem_append, List.mem_cons, List.not_mem_nil, or_false, Prod.mk.injEq, List.mem_map,
      List.mem_range] at h
    rcases h with h | ⟨i, hi, rfl, rfl⟩
    · rcases h with ⟨rfl, rfl⟩ | ⟨rfl, rfl⟩ | ⟨rfl, rfl⟩ | ⟨rfl, rfl⟩ | ⟨rfl, rfl⟩ | ⟨rfl, rfl⟩ | ⟨rfl, rfl⟩ | ⟨rfl, rfl⟩ | ⟨rfl, rfl⟩ |
        ⟨rfl, rfl⟩ <;> rfl
    · interval_cases i <;> rfl
  · intro h
    unfold Dev.rdspec at h
    split at h
    case h_11 =>
      split at h
      · rename_i hcode
        have hx : fld r.nb (0x20 + 8 * (code - 0x10)) 8 = x := Option.some.inj h
        refine List.mem_append_right _ (List.mem_map.2 ⟨code - 0x10, List.mem_range.2 (by omega), ?_⟩)
        exact Prod.ext (by dsimp only; omega) hx
      · exact absurd h (by simp)
    all_goals
      obtain rfl := Option.some.inj h
      exact List.mem_append_left _ (by simp [fld, b2n])

@[simp] theorem Wk.facetTdc_fac (w : Wk) (f : Nat) (r : FacetRun) : (w.facetTdc f r).dev.fac = w.dev.fac :=
  ((Dev.onNode_fac ..).trans (Dev.count_fac ..)).trans (w.fcount_fac ..)

section
variable (w : Wk) (f : Nat) {r : FacetRun} {word : Nat}

theorem bodyRdspec_value {x : Nat} (h : (bits word 0 32, x) ∈ specialValues w.dev r) :
    bodyRdspec w f r word = .next w (r.setS (bits word 51 5) (BitVec.ofNat 64 x)) := by
  have hx := (mem_specialValues_iff w.dev r _ x).1 h
  have htime : bits word 0 32 ≠ 4 := fun h4 => by
    rw [h4] at hx
    exact absurd hx (by simp [Dev.rdspec])
  simp only [bodyRdspec, if_neg htime, hx]
  rfl

theorem bodyRdspec_time (h : bits word 0 32 = 4) (hmode : r.strict = false) :
    bodyRdspec w f r word = .next (w.facetTdc f r) (r.setS (bits word 51 5) (BitVec.ofNat 64 w.dev.time)) := by
  simp only [bodyRdspec, if_pos h, hmode]
  rfl

theorem bodyRdspec_unknown (h4 : bits word 0 32 ≠ 4) (h : ∀ x, (bits word 0 32, x) ∉ specialValues w.dev r) :
    bodyRdspec w f r word = .fatal w 0x39 (r.addr r.pc) := by
  have hnone : w.dev.rdspec r (bits word 0 32) = none :=
    Option.eq_none_iff_forall_ne_some.2 fun x hx => h x ((mem_specialValues_iff w.dev r _ x).2 hx)
  simp only [bodyRdspec, if_neg h4, hnone]
  rfl

/-- A read whose form and alignment are right, of a node in flight (R187). -/
theorem Wk.fread_ok {a n align : Nat} {m : Node} (hl : isLocal a = true) (ha : a % align = 0) (hm : w.dev.node r.seq r.node = some m) :
    w.fread r a n align = w.rdNode r.job m a n := by
  simp only [Wk.fread, hl, ha, hm, ne_eq, not_true_eq_false, if_false]

theorem bodyLoad_ok {n : Nat} {bs : List Byte} (h : w.fread r (r.sreg (bits word 46 5) + immWord word).toNat n n = .ok bs) :
    bodyLoad n w f r word = .next w (r.setS (bits word 51 5) (BitVec.ofNat 64 (ofBytes bs))) := by
  simp only [bodyLoad, f46, r.rs_add_immOf, h, Res.ofRead_ok]
  rfl

end

/-- Settles O7: the table of R160 is what RDSPEC looks its value up in, and a load reads what `rdNode` answers. -/
theorem facetReads : Obligations.FacetReads := by
  intro s f now word r
  refine ⟨fun x hat hx => ?value, fun hat h4 hmode => ?time, fun hat h4 hno => ?unknown, fun n op c m bs hc hat => ?load,
    fun hat => ?stage⟩
  case value => exact facetInstr_next hat now bodyRdspec (bodyRdspec_value (s.start.at_ now) f hx)
  case time => exact facetInstr_thenRun hat (Wk.facetTdc_fac ..) (bodyRdspec_time (s.start.at_ now) f h4 hmode)
  case unknown => exact facetInstr_fatal hat (bodyRdspec_unknown (s.start.at_ now) f h4 hno)
  case load =>
    intro a hl ha hm hbs
    have hbody := bodyLoad_ok (s.start.at_ now) f (((s.start.at_ now).fread_ok hl ha hm).trans hbs)
    simp only [List.mem_cons, List.not_mem_nil, or_false, Prod.mk.injEq] at hc
    obtain ⟨rfl, rfl, rfl⟩ | ⟨rfl, rfl, rfl⟩ := hc <;> exact facetInstr_next hat now _ hbody
  case stage => exact facetInstr_next hat now bodyStageQuery rfl

end Sys2Proof.Machine
end

section
/-! PROOFS. Nodes whose operands break their check (R216, R260, R270, R301, R302), and the nodes and instances of facets (R149 to
R154, R188, R191, R209, R321). -/

namespace Sys2Proof.Machine

open Sys2Proof

/-! ### Operand checks (R216, R260, R270, R301, R302) -/

section
variable {w : Wk} {i j : Nat} {nb : List Byte}

theorem Wk.runSignal_faulty (h : signalOk nb = false) : w.runSignal i j nb = w.fail i j stFormat 0 := by
  simp only [Wk.runSignal, h, Bool.false_eq_true, not_false_eq_true, if_true]

theorem Wk.runBpm_faulty {op : Nat} (x : Inst) (m : Node) (h : bpmOperandsOk op nb = false) :
    w.runBpm op i j x m nb = w.fail i j 0x1A 0 := by
  simp only [Wk.runBpm, h, Bool.false_eq_true, not_false_eq_true, if_true]

theorem Wk.runCopyT_faulty (x : Inst) (h : copyTOk nb = false) : w.runCopyT i j x nb = w.fail i j stTranspose 0 := by
  simp only [Wk.runCopyT, h, Bool.false_eq_true, not_false_eq_true, if_true]

theorem Wk.runIngest_faulty (x : Inst) (h : ingestOk nb = false) : w.runIngest i j x nb = w.fail i j stMove 0 := by
  simp only [Wk.runIngest, h, Bool.false_eq_true, not_false_eq_true, if_true]

theorem Wk.runWindow_faulty (x : Inst) (h : windowOk nb = false) : w.runWindow i j x nb = w.fail i j stMove 0 := by
  simp only [Wk.runWindow, h, Bool.false_eq_true, not_false_eq_true, if_true]

end

/-- Settles O15: each opcode's own work begins with the check of its bytes, and a dispatch leaves what that work leaves. -/
theorem nodeFaultyOperandsFail : Obligations.NodeFaultyOperandsFail := by
  intro s i j now op status c can ok w x m nb hc hd hok
  simp only [List.mem_cons, List.not_mem_nil, or_false, Prod.mk.injEq] at hc
  rcases hc with ⟨rfl, rfl, rfl, rfl, rfl⟩ | ⟨rfl, rfl, rfl, rfl, rfl⟩ | ⟨rfl, rfl, rfl, rfl, rfl⟩ | ⟨rfl, rfl, rfl, rfl, rfl⟩ |
    ⟨rfl, rfl, rfl, rfl, rfl⟩ | ⟨rfl, rfl, rfl, rfl, rfl⟩ | ⟨rfl, rfl, rfl, rfl, rfl⟩ | ⟨rfl, rfl, rfl, rfl, rfl⟩ |
    ⟨rfl, rfl, rfl, rfl, rfl⟩
  · exact dispatch_leaves hd (if_neg (ne_true_of_eq_false hok))
  · exact dispatch_leaves hd (Wk.runSignal_faulty hok)
  · exact dispatch_leaves hd (if_pos (ne_true_of_eq_false hok))
  · exact dispatch_leaves hd (Wk.runBpm_faulty x m hok)
  · exact dispatch_leaves hd (Wk.runBpm_faulty x m hok)
  · exact dispatch_leaves hd (Wk.runBpm_faulty x m hok)
  · exact dispatch_leaves hd (Wk.runCopyT_faulty x hok)
  · exact dispatch_leaves hd (Wk.runIngest_faulty x hok)
  · exact dispatch_leaves hd (Wk.runWindow_faulty x hok)

/-! ### END and the watchdog (R152, R188, R191, R321) -/

section
variable {w : Wk} {f : Nat} {r : FacetRun} {x : Inst} {n : Node}

/-- What an END counts before its facet goes on (R152, R188, R191). -/
def Wk.instanceEnded (w : Wk) (f : Nat) (r : FacetRun) : Wk :=
  (w.fcount f Reg.TGU_FACET_INSTANCES_LO 1).upd fun d =>
    (d.addActs r.seq r.node [.count (facetHalf f) Reg.TGU_FACET_LOG_BYTES_LO r.logUsed]).onNode r.seq r.node fun n =>
      { n with ended := n.ended + 1, logBy := if r.logUsed = 0 then n.logBy else n.logBy ++ [(f, r.logUsed, r.index)] }

/-- Whether a facet goes on with its command after an END (R188, R321). -/
def Wk.goesOn (w : Wk) (f : Nat) (r : FacetRun) (x : Inst) (n : Node) : Prop :=
  n.nextIndex < r.count ∧ (w.dev.picOf f).quar = false ∧ w.higherWants f x = false ∧ (w.dev.dropRun f).withRoom [f] ≠ []

theorem Wk.goesOn_iff : w.goesOn f r x n ↔ n.nextIndex < r.count ∧ ¬ (w.dev.picOf f).quar = true ∧ ¬ w.higherWants f x = true
    ∧ ¬ ((w.dev.dropRun f).withRoom [f]).isEmpty = true := by
  rw [Wk.goesOn, Bool.not_eq_true, Bool.not_eq_true, List.isEmpty_iff]

section
variable (hx : w.dev.inst r.seq = some x) (hn : w.dev.node r.seq r.node = some n) (hring : r.slotTiles = 0)
include hx hn hring

theorem Wk.facetEnd_next (h : (w.instanceEnded f r).goesOn f r x n) :
    w.facetEnd f r = (w.instanceEnded f r).upd fun d =>
      (d.setRun f { r.reset n.nextIndex d.time with logAll := r.logAll, nextLoad := r.nextLoad }).onNode r.seq r.node fun n =>
        { n with nextIndex := n.nextIndex + 1 } := by
  simp only [Wk.facetEnd, hx, hn, hring, ne_eq, not_true_eq_false, if_false]
  exact if_pos (Wk.goesOn_iff.1 h)

theorem Wk.facetEnd_leaves (h : ¬ (w.instanceEnded f r).goesOn f r x n) :
    w.facetEnd f r =
      if n.ended + 1 = r.count then ((w.instanceEnded f r).upd (·.leaveFacet f)).upd (·.engineDone r.seq r.node)
      else (w.instanceEnded f r).upd (·.leaveFacet f) := by
  simp only [Wk.facetEnd, hx, hn, hring, ne_eq, not_true_eq_false, if_false]
  exact if_neg (Wk.goesOn_iff.not.1 h)

end

end

/-- END hands its run to `Wk.facetEnd`, the END counted among the run's steps. -/
theorem exec_endInst {s : State} {f now word : Nat} {r : FacetRun} {w : Wk} (h : s.atInstr f 0x01 word r)
    (hw : (s.start.at_ now).facetEnd f { r with steps := r.steps + 1 } = w) : exec (.endInst f now) s = .next (s.put w) := by
  subst hw
  exact facetInstr_atInstr h now bodyEnd

/-- Settles O14: END does what `Wk.facetEnd` does, which has an equation for each of its ways on. -/
theorem facetInstanceEnds : Obligations.FacetInstanceEnds := by
  intro s f now word r x n hx hn w goesOn
  refine ⟨fun hat hring hon => ?next, fun hat hring hoff => ?leaves, ?watchdog⟩
  case next => exact exec_endInst hat (Wk.facetEnd_next hx hn hring hon)
  case leaves => exact exec_endInst hat (Wk.facetEnd_leaves hx hn hring hoff)
  case watchdog =>
    intro us hrun hload hdrain hus hlate
    have hrun' : (s.start.at_ now).dev.run f = some r := hrun
    have hdue : r.loaded = true ∧ ¬ r.drain = true ∧ us ≠ 0 ∧ r.started + 1000 * us < (s.start.at_ now).dev.time :=
      ⟨hload, by simp [hdrain], hus, hlate⟩
    change finish s _ = _
    simp only [hrun']
    exact congrArg (finish s) (if_pos hdue)

/-! ### KERNEL and MATMUL (R149 to R154, R209, R321) -/

section
variable {s : State} {seq i op now : Nat} {can : Dev → Nat → Nat → Bool} {w : Wk} {x : Inst} {m : Node} {nb : List Byte}

/-- What `dispatch_of` says of a command, for the working state itself: KERNEL and MATMUL go on from it. -/
theorem State.Dispatches.dispatch_eq (h : s.Dispatches seq i op now can w x m nb) (onNull : Wk → Inst → Wk)
    (run : Wk → Inst → Node → List Byte → Wk) (nullRuns : Bool) :
    (s.start.at_ now).dispatch seq i op can nullRuns onNull run = (run w x m nb).graceScan := by
  obtain ⟨hinst, ⟨n, hn, hready, hremote, hop, hdisp, hcan, hheld, hrank, hstray, ss, v, hss, hlen, hshape, hnull, rfl⟩, hbytes, hnode⟩ := h
  have hinst' : (s.start.at_ now).dev.inst seq = some x := hinst
  have hdisp' : (s.start.at_ now).dev.dispatching = true := hdisp
  have hcan' : can (s.start.at_ now).dev seq i = true := hcan
  have hrank' : (s.start.at_ now).outranked seq i x op (can (s.start.at_ now).dev) = false := hrank
  have hgo : ¬ (n.st ≠ .ready ∨ n.remoteOff = true ∨ n.opcode ≠ op ∨ ¬ (s.start.at_ now).dev.dispatching = true
      ∨ ¬ can (s.start.at_ now).dev seq i = true ∨ ((s.start.at_ now).dev.ring x.fn x.ring).held.length ≥ 256
      ∨ (s.start.at_ now).outranked seq i x op (can (s.start.at_ now).dev) = true) := by
    simp only [hready, hremote, hop, hdisp', hcan', hrank', ne_eq, not_true_eq_false, Bool.false_eq_true, false_or, or_false]
    exact not_le.2 hheld
  have hsucc : ¬ (ss.any fun k => decide (k ≥ x.nodes.length)) = true := by simpa using hlen
  rw [Wk.dispatch, Wk.dispatchNode]
  simp only [hinst', hn, if_neg hgo, hss, if_neg hsucc, hshape, hbytes, hstray, hnode, hnull, false_and, if_false, Bool.false_eq_true]

/-- A KERNEL that is dispatched is not RUNNING, so its command is the dispatch. -/
theorem exec_kernel_dispatch {w v : Wk} (h : s.Dispatches seq i 0x100 now (s.start.at_ now).facetsFree w x m nb)
    (hrun : w.runKernel seq i x nb = v) : exec (.kernel seq i now) s = .next (s.put (v.graceScan.upd (·.fetchScan))) := by
  have hdispatch := h.dispatch_eq noNull (fun w x _ nb => w.runKernel seq i x nb) false
  obtain ⟨hinst, ⟨n, hn, hready, -⟩, -, -⟩ := h
  have hinst' : (s.start.at_ now).dev.inst seq = some x := hinst
  have hnode : (s.start.at_ now).dev.node seq i = some n := by
    rw [Dev.node, hinst']
    exact hn
  subst hrun
  change finish s _ = _
  simp only [hinst', hnode, hready, reduceCtorEq, false_and, if_false, hdispatch]
  rfl

theorem exec_matmul_dispatch {w v : Wk} (h : s.Dispatches seq i 0x101 now (s.start.at_ now).facetsFree w x m nb)
    (hrun : w.runMatmul seq i x nb = v) : exec (.matmul seq i now) s = .next (s.put (v.graceScan.upd (·.fetchScan))) := by
  subst hrun
  exact congrArg (fun v : Wk => finish s (v.upd (·.fetchScan)))
    (h.dispatch_eq noNull (fun w x _ nb => w.runMatmul seq i x nb) false)

/-- A RUNNING KERNEL with instances left takes the facets that have become free. -/
theorem exec_kernel_running (hinst : s.dev.inst seq = some x) (hnode : s.dev.node seq i = some m) (hst : m.st = .running)
    (hop : m.opcode = 0x100) (hleft : m.nextIndex < m.count) (hdisp : (s.devAt now).dispatching = true)
    (hrank : (s.start.at_ now).outranked seq i x 0x100 ((s.start.at_ now).facetsFree (s.devAt now)) = false)
    (hbytes : (s.start.at_ now).rdForm x.job x.fn (x.base + 128 * i) 128 = .ok nb) :
    exec (.kernel seq i now) s = .next (s.put ((s.start.at_ now).spread seq i x nb)) := by
  have hinst' : (s.start.at_ now).dev.inst seq = some x := hinst
  have hnode' : (s.start.at_ now).dev.node seq i = some m := hnode
  have hdue : m.st = .running ∧ m.opcode = 0x100 ∧ m.nextIndex < m.count ∧ (s.start.at_ now).dev.dispatching = true
      ∧ ¬ (s.start.at_ now).outranked seq i x 0x100 ((s.start.at_ now).facetsFree (s.start.at_ now).dev) = true :=
    ⟨hst, hop, hleft, hdisp, by rw [Bool.not_eq_true]; exact hrank⟩
  change finish s _ = _
  simp only [hinst', hnode', if_pos hdue, hbytes]
  rfl

end

section
variable {w v : Wk} {i j : Nat} {x : Inst} {m : Node} {nb : List Byte}

section
variable (hm : w.dev.node i j = some m) (hgrad : ∀ k : Wk → Wk, w.withGradient i j x m none k = k v)
  (hok : v.dev.kernelOk i j m nb = true)
include hm hgrad hok

theorem Wk.runKernel_spreads (hstream : bit (kFlags nb) 1 = false) :
    w.runKernel i j x nb = ((v.upd (·.latchSparse i j)).upd fun d => d.onNode i j fun n =>
      { n with count := bits (fld nb 0x30 4) 0 24 + 1 }).spread i j x nb := by
  simp only [Wk.runKernel, Wk.runKernelBy, hm, hgrad, hok, hstream, not_true_eq_false, Bool.false_eq_true, if_false]

theorem Wk.runKernel_seats {ft : Fetch} {n : Node} (hstream : bit (kFlags nb) 1 = true)
    (hfeed : (v.dev.latchSparse i j).feeder i j m = some ft) (hn : (v.dev.latchSparse i j).node i j = some n) :
    w.runKernel i j x nb = (v.upd (·.latchSparse i j)).seatAlone i j x n nb ft (bits n.affinity 0 16) := by
  simp only [Wk.runKernel, Wk.runKernelBy, hm, hgrad, hok, hstream, not_true_eq_false, if_false, if_true, Wk.upd_dev, hfeed, hn]

end

/-- `b` is the node's bytes with the row count of its shape; the attempt runs to its end (R153, R318). -/
theorem Wk.runMatmul_ends {b : List Byte} {a : Wk × Bool} (hm : w.dev.node i j = some m) (hb : b = matmulBytes m nb)
    (hgrad : ∀ k : Wk → Wk,
      w.withGradient i j x m (some (bits (mmC b) 16 8, fld b 0x38 8, fld b 0x30 8, mmM b, mmN b)) k = k v)
    (hok : matmulOk b = true) (ha : a = (v.upd (·.latchSparse i j)).matmulAll i j x m b) (hend : a.2 = false) :
    w.runMatmul i j x nb = a.1.upd fun d =>
      (d.onNode i j fun n => { n with count := mmM b * mmN b, nextIndex := mmM b * mmN b, ended := mmM b * mmN b }).engineDone i j := by
  subst hb
  simp only [Wk.runMatmul, hm, hgrad, hok, not_true_eq_false, if_false, ← ha, hend, Bool.false_eq_true]

end

/-- Settles O17: each opcode's own work, past its checks, and the dispatch around it. That a MATMUL runs in its dispatch is the
model's reading (assumption 32). -/
theorem facetNodesDispatch : Obligations.FacetNodesDispatch := by
  intro s i j now w v x m nb
  refine ⟨fun hd hgrad hok hstream => ?spreads, fun ft n hd hgrad hok hstream hfeed hn => ?seats,
    fun hinst hnode hst hop hleft hdisp hrank hbytes => ?running, ?matmul⟩
  case spreads => exact exec_kernel_dispatch hd (Wk.runKernel_spreads hd.node hgrad hok hstream)
  case seats => exact exec_kernel_dispatch hd (Wk.runKernel_seats hd.node hgrad hok hstream hfeed hn)
  case running => exact exec_kernel_running hinst hnode hst hop hleft hdisp hrank hbytes
  case matmul =>
    intro b total a hd hgrad hok hend
    exact exec_matmul_dispatch hd (Wk.runMatmul_ends hd.node rfl hgrad hok rfl hend)

end Sys2Proof.Machine
end

section
/-! PROOFS. Tiles of the facet's tile store, moved and converted (R161, R163, R176, R201, R209, R210). -/

namespace Sys2Proof.Machine

open Sys2Proof

section
variable (w : Wk) (f : Nat) {r q : FacetRun} {word : Nat} {t : Tile}

theorem bodyTpset_word : bodyTpset w f r word = .next w
    { r with tp := setNth r.tp (bits word 50 6) ((r.sreg (bits word 39 5) + immWord word).toNat % 65536) } := by
  rw [← r.rs_add_immOf, Nat.mod_mod_of_dvd _ (by decide : 65536 ∣ 2 ^ 64)]
  rfl

theorem bodyTcopy_ok (ht : r.tile (r.ptr (bits word 44 6)) = .ok t) (hq : r.putTile (r.ptr (bits word 50 6)) t = .ok q) :
    bodyTcopy w f r word = .next w q := by
  simp only [bodyTcopy, FacetRun.tp2Of, FacetRun.tpOf, ht, Res.ofTile_ok]
  exact Res.put_ok w hq

theorem bodyTzero_dense (ht : r.tile (r.ptr (bits word 50 6)) = .ok t) (hd : t.hdr.sparsity = 0)
    (hq : r.putTile (r.ptr (bits word 50 6)) ({ t with body := List.replicate t.body.length 0 } : Tile).mapped = .ok q) :
    bodyTzero w f r word = .next w q := by
  simp only [bodyTzero, FacetRun.tpOf, ht, Res.ofTile_ok, hd, ne_eq, not_true_eq_false, if_false]
  exact Res.put_ok w hq

/-- `a` is S[SA], whose words are the header's 0x00 and 0x08; `w0` is the first with ZMAP cleared. -/
theorem bodyThdr_writes {hb : List Byte} {a w0 : Nat} (hb_ : r.readSec (r.ptr (bits word 50 6)) 1 = .ok hb)
    (ha : a = (r.sreg (bits word 39 5)).toNat) (hw0 : w0 = setBits (a % 2 ^ 32) 22 1 0)
    (hsparse : sparsityFault (bits (ofBytes (hb.take 4)) 23 2) (bits w0 23 2) = false)
    (hq : r.writeSec (r.ptr (bits word 50 6)) (toBytes 4 w0 ++ (hb.drop 4).take 4 ++ toBytes 4 (a / 2 ^ 32 % 2 ^ 32)
        ++ toBytes 4 ((r.sreg (bits word 34 5)).toNat % 2 ^ 32) ++ toBytes 8 0
        ++ toBytes 4 (setBits (ofBytes ((hb.drop 24).take 4)) 0 8 0) ++ (hb.drop 28).take 4) = .ok q) :
    bodyThdr w f r word = .next w q := by
  have hhigh : bits a 32 32 = a / 2 ^ 32 % 2 ^ 32 := rfl
  simp only [bodyThdr, FacetRun.tpOf, tSA, tSB, r.rs_eq_toNat, ← ha, bits_low, hhigh, ← hw0, hb_, Res.ofTile_ok, hsparse,
    Bool.false_eq_true, if_false, hq]

/-- A decode without a dropped index that FAULT_ON_DROP would fail (R209, R210). -/
theorem Res.decoded_ok {pick : Nat → Nat → Bool} {v : View} (hv : v = t.viewOf pick) (h : ¬ (r.sfod = true ∧ v.drop ≠ 0))
    (k : Wk → View → Res) : Res.decoded w f r t pick k =
      k ((w.sparse f r Reg.TGU_SPARSE_BAD_GROUP_LO v.bad).sparse f r Reg.TGU_SPARSE_DROP_INDEX_LO v.drop) v := by
  subst hv
  exact if_neg h

theorem bodyTcvt_converts {src : Tile} {v : View} {h : Hdr} {w' : Wk} (ht : r.tile (r.ptr (bits word 50 6)) = .ok t)
    (hd : t.hdr.sparsity = 0) (hsrc : r.tile (r.ptr (bits word 44 6)) = .ok src) (hv : v = src.view)
    (hh : h = { t.hdr with rows := src.hdr.rows, cols := src.hdr.cols }) (hdrop : ¬ (r.sfod = true ∧ v.drop ≠ 0))
    (hw : w' = (w.sparse f r Reg.TGU_SPARSE_BAD_GROUP_LO v.bad).sparse f r Reg.TGU_SPARSE_DROP_INDEX_LO v.drop)
    (hq : r.putTile (r.ptr (bits word 50 6))
      ({ hdr := h, body := packVals h (w'.conv r (bits word 32 2) (bits word 0 8)) v.val } : Tile).mapped = .ok q) :
    bodyTcvt w f r word = .next w' q := by
  subst hh
  simp only [bodyTcvt, FacetRun.tpOf, FacetRun.tp2Of, ht, Res.ofTile_ok, if_neg (not_not.2 hd), hsrc, Res.decoded_ok w f hv hdrop, ← hw]
  exact Res.put_ok w' hq

theorem bodyVld_reads {v : View} (ht : r.tile (r.ptr (bits word 30 6)) = .ok t)
    (hv : v = t.viewOf (chunkPick t.hdr (bits word 25 5))) (hdrop : ¬ (r.sfod = true ∧ v.drop ≠ 0)) :
    bodyVld w f r word =
      .next ((w.sparse f r Reg.TGU_SPARSE_BAD_GROUP_LO v.bad).sparse f r Reg.TGU_SPARSE_DROP_INDEX_LO v.drop)
        (r.setVec (bits word 51 5) ((List.range 128).map fun i => fl (v.val (2 * bits word 25 5 + i / 64) (i % 64)))) := by
  simp only [bodyVld, ht, Res.ofTile_ok, Res.decoded_ok w f hv hdrop]
  rfl

theorem bodyVst_dense (ht : r.tile (r.ptr (bits word 30 6)) = .ok t) (hd : t.hdr.sparsity = 0) (hrow : t.hdr.byCol = false)
    {body : List Byte} (hbody : body = storeChunk t (w.conv r (bits word 23 2) (bits word 15 8)) (bits word 25 5) (r.vec (bits word 46 5)))
    (hq : r.putTile (r.ptr (bits word 30 6)) ({ t with body := body } : Tile).unmapped = .ok q) :
    bodyVst w f r word = .next w q := by
  subst hbody
  simp only [bodyVst, f46, ht, Res.ofTile_ok, hd, hrow, ne_eq, not_true_eq_false, Bool.false_eq_true, or_self, if_false]
  exact Res.put_ok w hq

end

/-- Settles O10: on the tiles that it takes each body has an equation, and the facet's step carries it to the state. That TCVT
quantises the exact values for an MX type is the model's reading (assumption 29). -/
theorem facetTilesInTheStore : Obligations.FacetTilesInTheStore := by
  intro s f now word r tp vtp w
  refine ⟨fun hat => ?tpset, fun t q hat ht hq => ?tcopy, fun t q hat ht hd hq => ?tzero, ?thdr, ?tcvt, ?vld, ?vst⟩
  case tpset => exact facetInstr_next hat now bodyTpset (bodyTpset_word w f)
  case tcopy => exact facetInstr_next hat now bodyTcopy (bodyTcopy_ok w f ht hq)
  case tzero => exact facetInstr_next hat now bodyTzero (bodyTzero_dense w f ht hd hq)
  case thdr =>
    intro hb q hat hread a w0 hsparse hq
    exact facetInstr_next hat now bodyThdr (bodyThdr_writes w f hread rfl rfl hsparse hq)
  case tcvt =>
    intro t src q hat ht hd hsrc v h hdrop w' hq
    exact facetInstr_thenRun hat ((Wk.sparse_fac ..).trans (Wk.sparse_fac ..))
      (bodyTcvt_converts w f ht hd hsrc rfl rfl hdrop rfl hq)
  case vld =>
    intro t hat ht c v hdrop
    exact facetInstr_thenRun hat ((Wk.sparse_fac ..).trans (Wk.sparse_fac ..)) (bodyVld_reads w f ht rfl hdrop)
  case vst =>
    intro t q hat ht hd hrow body hq
    exact facetInstr_next hat now bodyVst (bodyVst_dense w f ht hd hrow rfl hq)

end Sys2Proof.Machine
end

section
/-! PROOFS. Waits, code loads, remote access and the stage of the facet (R147, R165 to R167, R179 to R188). -/

namespace Sys2Proof.Machine

open Sys2Proof

/-! ### What sending on the fabric leaves of the facets (R354 to R375) -/

@[simp] theorem Dev.foldl_fac {α : Type} (l : List α) (g : Dev → α → Dev) (h : ∀ d x, (g d x).fac = d.fac) (d : Dev) :
    (l.foldl g d).fac = d.fac :=
  foldl_keeps Dev.fac g h l d

@[simp] theorem Dev.ite_fac (c : Prop) {_ : Decidable c} (d e : Dev) : (if c then d else e).fac = if c then d.fac else e.fac :=
  apply_ite Dev.fac c d e

section
variable (d : Dev)

@[simp] theorem Dev.setPort_fac (p : Nat) (x : FPort) : (d.setPort p x).fac = d.fac := rfl
@[simp] theorem Dev.setDest_fac (n : Nat) (x : Dest) : (d.setDest n x).fac = d.fac := rfl
@[simp] theorem Dev.onLoop_fac (t : Txn) : (d.onLoop t).fac = d.fac := rfl

@[simp] theorem Dev.sendFlit_fac (p : Nat) (ctrl : Option Nat) (payload : List Byte) (ends : List Txn) :
    (d.sendFlit p ctrl payload ends).fac = d.fac := by
  simp [Dev.sendFlit]

@[simp] theorem Dev.sendData_fac (p : Nat) (payload : List Byte) (ends : List Txn) : (d.sendData p payload ends).fac = d.fac := by
  simp [Dev.sendData, Dev.sendMac]

@[simp] theorem Dev.drain_fac (p : Nat) : (d.drain p).fac = d.fac := by
  simp [Dev.drain, Dev.fillGroup, Dev.returnCredits]

@[simp] theorem Dev.sendAt_fac (t : Txn) (s : Nat) : (d.sendAt t s).fac = d.fac := by
  simp [Dev.sendAt, Dev.sendOn, Dev.enqueue]

@[simp] theorem Dev.pumpHeld_fac (n : Nat) : (d.pumpHeld n).fac = d.fac := by
  refine foldl_keeps (fun ds : Dev × Bool => ds.1.fac) _ (fun ds k => ?_) _ (d, false)
  dsimp only
  split
  · rfl
  · split <;> simp

@[simp] theorem Dev.pumpReads_fac (n : Nat) : (d.pumpReads n).fac = d.fac := by
  refine Dev.foldl_fac _ _ (fun d k => ?_) d
  dsimp only
  split
  · rfl
  · split <;> simp

@[simp] theorem Dev.pumpFences_fac (n : Nat) : (d.pumpFences n).fac = d.fac := by
  refine Dev.foldl_fac _ _ (fun d k => ?_) d
  dsimp only
  split
  · rfl
  · split
    · rfl
    · split <;> simp

@[simp] theorem Dev.sendRead_fac (dest job region off len tc : Nat) (bulk : Bool) (why : ReadFor) :
    (d.sendRead dest job region off len tc bulk why).fac = d.fac := by
  simp [Dev.sendRead, Dev.pump]

@[simp] theorem Dev.probe_fac (half : Half) (seq i job dev region off rights index : Nat) :
    (d.probe half seq i job dev region off rights index).fac = d.fac := by
  unfold Dev.probe
  split
  · rfl
  · split <;> simp

end

@[simp] theorem Wk.sendLoad_fac (w : Wk) (f : Nat) (r : FacetRun) (x : Incoming) (first : Nat) :
    (w.sendLoad f r x first).dev.fac = w.dev.fac :=
  foldl_keeps (fun w : Wk => w.dev.fac) _ (fun w p => by simp [Dev.countGateway]) _ w

/-! ### The device's ID as time passes (R350, R391, R392) -/

/-- Registers at different offsets of a half window are kept apart. -/
theorem regKey_ne (row row' : RegRow) (h h' : Half) {a b : Nat} (ha : a < 2 ^ 24) (hb : b < 2 ^ 24) (hab : a ≠ b) :
    regKey row h a ≠ regKey row' h' b := by
  unfold regKey
  split <;> split <;> omega

section
variable (d : Dev) (h h' : Half) {a b : Nat}

theorem Dev.reg_setReg_ne (v : Word32) (ha : a < 2 ^ 24) (hb : b < 2 ^ 24) (hab : a ≠ b) : (d.setReg h a v).reg h' b = d.reg h' b := by
  unfold Dev.setReg
  split
  · rfl
  · unfold Dev.reg
    split
    · rfl
    · rw [aget_aput_ne _ _ (regKey_ne _ _ h' h hb ha hab.symm)]

/-- A count moves no register but its pair. -/
theorem Dev.reg_count_ne (n : Nat) (ha : a + 4 < 2 ^ 24) (hb : b < 2 ^ 24) (hlo : a ≠ b) (hhi : a + 4 ≠ b) :
    (d.count h a n).reg h' b = d.reg h' b := by
  unfold Dev.count
  split
  · rfl
  · rw [Dev.setReg64, Dev.reg_setReg_ne _ _ _ _ ha hb hhi, Dev.reg_setReg_ne _ _ _ _ (by omega) hb hlo]

end

theorem Dev.elapse_me (d : Dev) (t : Nat) : (d.elapse t).me = d.me := by
  have hcount (x : Dev) (h : Half) {a : Nat} (n : Nat) (ha : a + 4 < 2 ^ 24) (hlo : a ≠ Reg.FAB_DEVICE_ID)
      (hhi : a + 4 ≠ Reg.FAB_DEVICE_ID) : (x.count h a n).me = x.me :=
    congrArg (fun v : Word32 => v.toNat % 2 ^ 18) (x.reg_count_ne h .west n ha (by decide) hlo hhi)
  refine List.foldlRecOn (motive := fun x : Dev => x.me = d.me) _ _ ?start fun x hx k hk => ?step
  case start =>
    split
    · exact hcount d .west _ (by decide) (by decide) (by decide)
    · rfl
  case step =>
    split
    · have hk' : 2 ≤ k.2 ∧ k.2 ≤ 4 := by fin_cases hk <;> decide
      have hoff : Reg.FAB_LEVEL_PRESSURE_LO = Reg.FAB_DEVICE_ID + 0x458 := rfl
      have hid : Reg.FAB_DEVICE_ID = 0x200000 := rfl
      exact (hcount x k.1 _ (by omega) (by omega) (by omega)).trans hx
    · exact hx

theorem Dev.at_me (d : Dev) (now : Nat) : (d.at_ now).me = d.me := d.elapse_me (max d.time now)

/-! ### Waits, slots and code (R147, R165, R179 to R182, R184) -/

section
variable (w : Wk) (f : Nat) (r : FacetRun)

@[simp] theorem Wk.waited_fac : (w.waited f r).dev.fac = w.dev.fac := by
  unfold Wk.waited
  split
  · rfl
  · exact w.fcount_fac ..

@[simp] theorem Wk.waitsFor_fac (b : Bitmap) : (w.waitsFor r b).dev.fac = w.dev.fac := by
  unfold Wk.waitsFor
  split
  · rfl
  · exact Dev.onNode_fac ..

end

section
variable {s : State} {f now word op : Nat} {r q : FacetRun} {body : Wk → Nat → FacetRun → Nat → Res}

/-- A body that is not ready leaves its run waiting since it first was not. -/
theorem facetInstr_wait (h : s.atInstr f op word r) (hb : body (s.start.at_ now) f r word = .wait (s.start.at_ now) r) :
    facetInstr f now op body s = .next (s.withRun f now { r with waiting := some (r.waiting.getD (max s.dev.time now)) }) := by
  have hrun : (s.start.at_ now).dev.run f = some r := h.1
  rw [facetInstr_atInstr h, hb]
  simp only [applyRes, hrun, Option.isSome_some, if_true]
  rfl

/-- WAIT_COMPLETE takes a waiting instruction up as its own command does. -/
theorem exec_waitComplete (h : s.atInstr f op word r) (hwait : r.waiting.isSome = true) (hbody : waitBody op = some body) :
    exec (.waitComplete f now) s = facetInstr f now op body s := by
  obtain ⟨hrun, -, -, hword, -, rfl, -⟩ := h
  have hrun' : (s.start.at_ now).dev.run f = some r := hrun
  have hwaits : ¬ r.waiting.isNone = true := by simpa using Option.ne_none_iff_isSome.2 hwait
  change finish s ((s.start.at_ now).waitComplete f) = _
  simp only [Wk.waitComplete, hrun', if_neg hwaits, hword, hbody]
  rfl

theorem exec_codeLoad {x : Inst} {bs : List Byte} {n : Nat} (hrun : s.dev.run f = some r) (hinst : s.dev.inst r.seq = some x)
    (hload : r.loaded = false) (hn : n = bits (fld r.nb 0x28 4) 0 13 + 1)
    (hread : (s.start.at_ now).rdLocal r.job (fld r.nb 0x20 8) (8 * n) = .ok bs) :
    exec (.codeLoad f now) s = .next (s.put (((s.start.at_ now).ingress f (8 * n)).thenRun f
      { r with loaded := true, code := (chunks 8 bs).map fun c => BitVec.ofNat 64 (ofBytes c), started := max s.dev.time now })) := by
  have hrun' : (s.start.at_ now).dev.run f = some r := hrun
  have hinst' : (s.start.at_ now).dev.inst r.seq = some x := hinst
  change finish s ((s.start.at_ now).codeLoad f) = _
  simp only [Wk.codeLoad, hrun', hinst', hload, Bool.false_eq_true, if_false, ← hn, hread]
  rfl

end

section
variable (w : Wk) (f : Nat) {r : FacetRun} {word : Nat} {b : Bitmap}

theorem bodyWaitPiece_slot (hbit : bit word 40 = false) (hring : r.slotTiles ≠ 0) : bodyWaitPiece w f r word =
    if (nth r.ring (r.slotIdx word) none).isSome then .next (w.waited f r) r else .wait w r := by
  simp only [bodyWaitPiece, hbit, Bool.false_eq_true, if_false, if_neg hring]

theorem bodyWaitPiece_done (hbit : bit word 40 = true) (hb : w.dev.bitmap r.job (r.sreg (bits word 46 5)).toNat = some b)
    (hdone : (r.sreg (bits word 41 5) + immWord word).toNat ∈ b.done) :
    bodyWaitPiece w f r word = .next ((w.waitsFor r b).waited f r) r := by
  rw [← r.rs_eq_toNat] at hb
  rw [← r.rs_add_immOf] at hdone
  simp only [bodyWaitPiece, f46, f41, hbit, hb, if_true]
  exact if_pos (List.contains_iff_mem.2 hdone)

/-- The pieces of a window that a WAIT_ANY has not returned, lowest first (R182). -/
def AnyWin.left (x : AnyWin) : List Nat :=
  ((List.range x.count).map fun i => (x.base + i) % 2 ^ 64).filter fun p => ¬ x.returned.contains p

section
variable {x : AnyWin} (hb : w.dev.bitmap r.job (r.sreg (bits word 46 5)).toNat = some b) (hwin : r.window = some x)
  (hhandle : x.handle = (r.sreg (bits word 46 5)).toNat) (hbase : x.base = (r.sreg (bits word 41 5)).toNat)
  (hcount : x.count = bits word 0 32)
include hb hwin hhandle hbase hcount

theorem bodyWaitAny_returned (hleft : x.left = []) :
    bodyWaitAny w f r word = .next ((w.waitsFor r b).waited f r) (r.setS (bits word 51 5) (BitVec.allOnes 64)) := by
  have hsame : { r with window := some x } = r := by rw [← hwin]
  rw [← hhandle] at hb
  rw [AnyWin.left] at hleft
  simp only [bodyWaitAny, f46, f41, r.rs_eq_toNat, ← hhandle, ← hbase, ← hcount, hb, hwin, and_self, if_true, hsame, hleft]
  rfl

theorem bodyWaitAny_low {low : Nat} {l : List Nat} (hleft : x.left = low :: l) (hdone : low ∈ b.done) :
    bodyWaitAny w f r word = .next ((w.waitsFor r b).waited f r)
      ({ r with window := some { x with returned := x.returned ++ [low] } }.setS (bits word 51 5) (BitVec.ofNat 64 low)) := by
  have hsame : { r with window := some x } = r := by rw [← hwin]
  have hpick : (if r.strict = true then (if b.done.contains low = true then some low else none)
      else (low :: l).find? b.done.contains) = some low := by
    cases r.strict <;> simp [hdone]
  rw [← hhandle] at hb
  rw [AnyWin.left] at hleft
  simp only [bodyWaitAny, f46, f41, r.rs_eq_toNat, ← hhandle, ← hbase, ← hcount, hb, hwin, and_self, if_true, hsame, hleft, hpick]
  rfl

end

theorem bodyReleaseSlot_frees (hring : r.slotTiles ≠ 0) :
    bodyReleaseSlot w f r word = .next w ({ r with ring := setNth r.ring (r.slotIdx word) none }).refill := if_neg hring

theorem bodyWaitGroup_empty (h : nth r.groups (bits word 0 4) 0 = 0) : bodyWaitGroup w f r word = .next (w.waited f r) r := if_pos h

end

/-- Settles O12: each wait's body has an equation where its operand is ready, and WAIT_COMPLETE runs the same body. -/
theorem facetWaits : Obligations.FacetWaits := by
  intro s f now word r w p
  refine ⟨fun hat hbit hring => ?slot, fun b hat hbit hb hdone => ?piece, fun b x hat hb hwin hhandle hbase hcount => ?any,
    fun hat hring => ?release, fun hat hgroup => ?group, fun op c hc hat hwait => ?again, fun x bs hrun hinst hload => ?code⟩
  case slot =>
    have hbody := bodyWaitPiece_slot w f hbit hring
    split at hbody
    · rw [if_pos ‹_›]
      exact facetInstr_thenRun hat (Wk.waited_fac ..) hbody
    · rw [if_neg ‹_›]
      exact facetInstr_wait hat hbody
  case piece => exact facetInstr_thenRun hat ((Wk.waited_fac ..).trans (Wk.waitsFor_fac ..)) (bodyWaitPiece_done w f hbit hb hdone)
  case any =>
    have hfac := (Wk.waited_fac (w.waitsFor r b) f r).trans (Wk.waitsFor_fac ..)
    split
    · rename_i hleft
      exact facetInstr_thenRun hat hfac (bodyWaitAny_returned w f hb hwin hhandle hbase hcount hleft)
    · rename_i hleft
      exact fun hdone => facetInstr_thenRun hat hfac (bodyWaitAny_low w f hb hwin hhandle hbase hcount hleft hdone)
  case release => exact facetInstr_next hat now bodyReleaseSlot (bodyReleaseSlot_frees w f hring)
  case group =>
    have hgo := facetInstr_thenRun (now := now) hat (Wk.waited_fac ..) (bodyWaitGroup_empty w f hgroup)
    exact ⟨hgo, fun hwait => (exec_waitComplete hat hwait rfl).trans hgo⟩
  case again =>
    simp only [List.mem_cons, List.not_mem_nil, or_false, Prod.mk.injEq] at hc
    rcases hc with ⟨rfl, rfl⟩ | ⟨rfl, rfl⟩ | ⟨rfl, rfl⟩ | ⟨rfl, rfl⟩ | ⟨rfl, rfl⟩ <;> exact exec_waitComplete hat hwait rfl
  case code =>
    intro n hread
    exact exec_codeLoad hrun hinst hload rfl hread

/-! ### Remote access and the stage (R129, R166, R167, R183 to R188) -/

@[simp] theorem Wk.log_fac (w : Wk) (r : FacetRun) (es : List LogEntry) : (w.log r es).dev.fac = w.dev.fac := Dev.onNode_fac ..

/-- Egress counted and entries logged, as a remote store, an atomic and a notice leave them. -/
theorem Wk.logged_fac (w : Wk) (f : Nat) (r : FacetRun) (off n : Nat) (es : List LogEntry) :
    ((w.fcount f off n).log r es).dev.fac = w.dev.fac :=
  (Wk.log_fac ..).trans (Wk.fcount_fac ..)

section
variable {s : State} {f now word op align : Nat} {r : FacetRun} {body : Wk → Nat → FacetRun → Nat → Res}

theorem Res.remote_ok (h : s.remoteOk now r word align) (k : Unit → Res) : Res.remote (s.start.at_ now) r word align k = k () := by
  obtain ⟨⟨j, hj, hon⟩, halign, hoff, hreach⟩ := h
  have hj' : (s.start.at_ now).dev.job r.job = some j := hj
  have hreach' : (s.start.at_ now).dev.reachable (r.xDev word) = true := hreach
  simp only [Res.remote, hj', hon, halign, hreach', ge_iff_le, Nat.not_le.2 hoff, ne_eq, not_true_eq_false, if_false]

theorem bodyRload_fits (h : s.remoteOk now r word 32)
    (hfits : r.inScratch (r.xSec word + bits word 0 16) (bits word 16 3 + 1) = true) : bodyRload (s.start.at_ now) f r word =
      startLoad false (r.xSec word + bits word 0 16) (bits word 16 3 + 1) (s.start.at_ now) f r word := by
  rw [bodyRload, Res.remote_ok h]
  exact if_neg (not_not.2 hfits)

theorem bodyRloadt_ok (h : s.remoteOk now r word 32) :
    bodyRloadt (s.start.at_ now) f r word = startLoad true (r.xSec word) 1 (s.start.at_ now) f r word := by
  rw [bodyRloadt, Res.remote_ok h]

theorem bodyRstore_reads {bs : List Byte} (h : s.remoteOk now r word 32)
    (hbs : r.readSec (r.xSec word + bits word 0 16) (bits word 16 3 + 1) = .ok bs) :
    bodyRstore (s.start.at_ now) f r word = stageStore bs (s.start.at_ now) f r word := by
  rw [bodyRstore, Res.remote_ok h, hbs, Res.ofTile_ok]

theorem bodyRstoret_reads {bs : List Byte} (h : s.remoteOk now r word 32)
    (hbs : (r.tile (r.xSec word)).map (fun t => t.facetStored) = .ok bs) :
    bodyRstoret (s.start.at_ now) f r word = stageStore bs (s.start.at_ now) f r word := by
  rw [bodyRstoret, Res.remote_ok h]
  cases ht : r.tile (r.xSec word) with
  | error e => rw [ht] at hbs; cases hbs
  | ok t =>
    rw [ht] at hbs
    obtain rfl : t.facetStored = bs := Except.ok.inj hbs
    rw [Res.ofTile_ok]

theorem Res.remote_off (h : ∀ j, s.dev.job r.job = some j → j.remote = false) (k : Unit → Res) :
    Res.remote (s.start.at_ now) r word align k = .noRemote (s.start.at_ now) := by
  cases hj : (s.start.at_ now).dev.job r.job with
  | none => simp only [Res.remote, hj, Bool.false_eq_true, not_false_eq_true, if_true]
  | some j => simp only [Res.remote, hj, h j hj, Bool.false_eq_true, not_false_eq_true, if_true]

theorem facetInstr_noRemote (h : s.atInstr f op word r) (hb : body (s.start.at_ now) f r word = .noRemote (s.start.at_ now)) :
    facetInstr f now op body s = .next (s.put ((s.start.at_ now).remoteDisabled f r)) := by
  rw [facetInstr_atInstr h, hb]
  rfl

end

section
variable {s : State} {now : Nat} (w : Wk) (f : Nat) {r : FacetRun} (word : Nat)

/-- RLOAD and RLOADT while fewer than 512 loads are outstanding: `x` is the load and `q` the run that awaits it (R184). -/
theorem startLoad_issues {tile : Bool} {sec n : Nat} (hroom : r.outstanding < 512) {x : Incoming} {q : FacetRun}
    (hx : x = { id := r.nextLoad, group := bits word 31 4, sector := sec, tile := tile, len := 32 * n, loads := 1, dev := r.xDev word,
                region := r.xReg word, off := r.xOff word, parts := [] })
    (hq : q = { r with groups := setNth r.groups (bits word 31 4) (nth r.groups (bits word 31 4) 0 + 1), incoming := r.incoming ++ [x],
                       nextLoad := r.nextLoad + 1 }) :
    startLoad tile sec n w f r word = .next ((w.fcount f Reg.TGU_FACET_RLOADS_LO 1).sendLoad f q x 0) q := by
  subst hq hx
  exact if_neg (Nat.not_le.2 hroom)

theorem Res.log_ok {n : Nat} (h : r.logUsed + n ≤ 65536) (k : FacetRun → Res) :
    Res.log w r n k = k { r with logUsed := r.logUsed + n, logAll := r.logAll + n } := if_neg (Nat.not_lt.2 h)

/-- A remote store that its allowance takes: `q` is the run that has paid for it (R185, R188). -/
theorem stageStore_logs {bs : List Byte} {cost : Nat} (hcost : cost = sumBy (chunks 256 bs) fun c => storeCost c.length)
    (hroom : r.logUsed + cost ≤ 65536) {q : FacetRun} (hq : q = { r with logUsed := r.logUsed + cost, logAll := r.logAll + cost }) :
    stageStore bs w f r word = .next (((w.upd fun d => d.probe (facetHalf f) q.seq q.node q.job (r.xDev word) (r.xReg word) (r.xOff word)
        (probeRights false true false) q.index).fcount f Reg.TGU_FACET_EGRESS_BYTES_LO bs.length).log q
      ((chunks 256 bs).zipIdx.map fun c => LogEntry.write (r.xDev word) (r.xReg word) (r.xOff word + 256 * c.2) c.1)) q := by
  subst hcost hq
  rw [stageStore, Res.log_ok w hroom]
  rfl

/-- A notice that its allowance takes: `a` is its first register and `x` what it holds (R129, R167). -/
theorem bodyPostNotice_logs {a x : Nat} (ha : a = bits word 46 5) (hx : x = (r.sreg a).toNat) (hroom : r.logUsed + 32 ≤ 65536)
    {q : FacetRun} (hq : q = { r with logUsed := r.logUsed + 32, logAll := r.logAll + 32 }) :
    bodyPostNotice w f r word = .next ((w.fcount f Reg.TGU_FACET_EGRESS_BYTES_LO 32).log q [.notice
      (toBytes 4 (bits x 48 16 * 2 ^ 16 + bits x 32 16) ++ toBytes 4 (bits x 0 32) ++ toBytes 4 ((r.sreg (a + 1)).toNat % 2 ^ 32)
        ++ toBytes 4 r.job ++ toBytes 8 (r.sreg (a + 2)).toNat ++ toBytes 8 (r.sreg (a + 3)).toNat)]) q := by
  subst hq
  have hjob : bits (r.sreg (a + 1)).toNat 0 32 = (r.sreg (a + 1)).toNat % 2 ^ 32 := bits_low ..
  rw [bodyPostNotice, Res.log_ok w hroom]
  simp only [f46, ← ha, noticeBytes, FacetRun.rs_eq_toNat]
  rw [← hjob, hx]
  rfl

/-- An atomic that crosses no gateway and that its allowance takes: `v` is S[SD] and `bs` its operands (R166, R183, R185, R370). -/
theorem bodyRatomic_logs {op v : Nat} {bs : List Byte} (h : s.remoteOk now r word (aopWidth op)) (hop : op = bits word 27 4)
    (hnear : r.xDev word = s.dev.me ∨ (s.devAt now).level (r.xDev word) ≠ 3) (hroom : r.logUsed + 32 ≤ 65536)
    (hv : v = (r.sreg (bits word 51 5)).toNat)
    (hbs : bs = if op = 6 then toBytes 8 v ++ toBytes 8 (r.sreg (bits word 51 5 + 1)).toNat else toBytes 8 (v % 2 ^ (8 * aopWidth op)))
    {q : FacetRun} (hq : q = { r with logUsed := r.logUsed + 32, logAll := r.logAll + 32 }) :
    bodyRatomic (s.start.at_ now) f r word = .next ((((s.start.at_ now).upd fun d => d.probe (facetHalf f) q.seq q.node q.job
        (r.xDev word) (r.xReg word) (r.xOff word) (probeRights false false true) q.index).fcount f Reg.TGU_FACET_EGRESS_BYTES_LO
        bs.length).log q [.atomic (r.xDev word) (r.xReg word) (r.xOff word) op bs]) q := by
  have hme : (s.start.at_ now).dev.me = s.dev.me := s.dev.at_me now
  have hgate : ¬ (r.xDev word ≠ (s.start.at_ now).dev.me ∧ (s.start.at_ now).dev.level (r.xDev word) = 3) := by
    rw [hme]
    exact fun h => hnear.elim h.1 fun hl => hl h.2
  rw [bodyRatomic, ← hop, Res.remote_ok h]
  simp only [if_neg hgate, f51, FacetRun.rs_eq_toNat, ← hv, ← hbs, Res.log_ok _ hroom]
  subst hq
  rfl

end

/-- Settles O13: past the checks that every remote instruction makes, each body has an equation, and the facet's step carries it to
the state. Which bytes count as egress is the model's choice (assumption 57), the lengths that RSTORET logs its reading
(assumption 29). -/
theorem facetRemoteAccess : Obligations.FacetRemoteAccess := by
  intro s f now word r w dev reg off probed
  refine ⟨fun c op tile sec n hc hat hrem hscratch hroom => ?load, fun c op bs hc hat hrem b hb => ?store, ?atomic,
    fun hat hroom => ?notice, fun c op hc hat hoff => ?off⟩
  case load =>
    intro g x q
    have hfac : ((w.fcount f Reg.TGU_FACET_RLOADS_LO 1).sendLoad f q x 0).dev.fac = s.dev.fac :=
      (Wk.sendLoad_fac ..).trans (Wk.fcount_fac ..)
    have hstart : startLoad tile sec n w f r word = .next ((w.fcount f Reg.TGU_FACET_RLOADS_LO 1).sendLoad f q x 0) q :=
      startLoad_issues w f word hroom rfl rfl
    simp only [List.mem_cons, List.not_mem_nil, or_false, Prod.mk.injEq] at hc
    obtain ⟨rfl, rfl, rfl, rfl, rfl⟩ | ⟨rfl, rfl, rfl, rfl, rfl⟩ := hc
    · exact facetInstr_thenRun hat hfac ((bodyRload_fits hrem (hscratch rfl)).trans hstart)
    · exact facetInstr_thenRun hat hfac ((bodyRloadt_ok hrem).trans hstart)
  case store =>
    intro cost hroom q
    have hfac := ((w.upd fun d => d.probe (facetHalf f) q.seq q.node q.job dev reg off (probeRights false true false)
      q.index).logged_fac f q Reg.TGU_FACET_EGRESS_BYTES_LO b.length
      ((chunks 256 b).zipIdx.map fun c => LogEntry.write dev reg (off + 256 * c.2) c.1)).trans (Dev.probe_fac ..)
    have hstage := stageStore_logs w f word rfl hroom (q := q) rfl
    simp only [List.mem_cons, List.not_mem_nil, or_false, Prod.mk.injEq] at hc
    obtain ⟨rfl, rfl, rfl⟩ | ⟨rfl, rfl, rfl⟩ := hc
    · exact facetInstr_thenRun hat hfac ((bodyRstore_reads hrem hb).trans hstage)
    · exact facetInstr_thenRun hat hfac ((bodyRstoret_reads hrem hb).trans hstage)
  case atomic =>
    intro op hat hrem hnear hroom v bs q
    exact facetInstr_thenRun hat ((Wk.logged_fac ..).trans (Dev.probe_fac ..))
      (bodyRatomic_logs f word hrem rfl hnear hroom rfl rfl rfl)
  case notice =>
    intro a x q
    exact facetInstr_thenRun hat (Wk.logged_fac ..) (bodyPostNotice_logs w f word rfl rfl hroom rfl)
  case off =>
    simp only [List.mem_cons, List.not_mem_nil, or_false, Prod.mk.injEq] at hc
    rcases hc with ⟨rfl, rfl⟩ | ⟨rfl, rfl⟩ | ⟨rfl, rfl⟩ | ⟨rfl, rfl⟩ | ⟨rfl, rfl⟩
    · exact facetInstr_noRemote hat (by rw [bodyRload, Res.remote_off hoff])
    · exact facetInstr_noRemote hat (by rw [bodyRloadt, Res.remote_off hoff])
    · exact facetInstr_noRemote hat (by rw [bodyRstore, Res.remote_off hoff])
    · exact facetInstr_noRemote hat (by rw [bodyRstoret, Res.remote_off hoff])
    · exact facetInstr_noRemote hat (by rw [bodyRatomic, Res.remote_off hoff])

end Sys2Proof.Machine
end

section
/-! PROOFS. Nodes of the TM at dispatch, and the shared end of their work (R187, R215 to R218, R237, R267 to R270, R273, R326). -/

namespace Sys2Proof.Machine

open Sys2Proof

/-! ### The shared end of a TM node's work (R237, R273, R326, R580) -/

theorem runsMisplaced_eq_none {rs : List Run} (h : ∀ r ∈ rs, isLocal r.addr = true) : runsMisplaced rs = none := by
  rw [runsMisplaced, Option.map_eq_none_iff, List.find?_eq_none]
  intro r hr
  simp [h r hr]

/-- Runs of the LOCAL and HOST forms are all in place; what remains is that a HOST run has a port to leave by. -/
theorem Wk.tmWrite_ends {w : Wk} {x : Inst} {rs : List Run} (i j : Nat) (acts : List CommitAct)
    (hlocal : ∀ r ∈ rs, addrForm r.addr ≠ 2 → isLocal r.addr = true)
    (hport : (∀ r ∈ rs, addrForm r.addr ≠ 2) ∨ w.dev.fnDelivers x.fn = true) :
    w.tmWrite i j x rs acts =
      ((((rs.filter fun r => addrForm r.addr = 2).foldl (fun w r => w.wrH (busAddr r.addr) r.bytes) w).upd fun d =>
        d.onNode i j fun n => { n with acts := n.acts ++ acts }).stage i j (rs.filter fun r => addrForm r.addr ≠ 2)).upd
        (·.engineDone i j) := by
  have hplaced : runsMisplaced (rs.filter fun r => addrForm r.addr ≠ 2) = none := by
    refine runsMisplaced_eq_none fun r hr => ?_
    obtain ⟨hmem, hform⟩ := List.mem_filter.1 hr
    exact hlocal r hmem (of_decide_eq_true hform)
  have hleaves : ¬ (¬ (rs.filter fun r => addrForm r.addr = 2).isEmpty = true ∧ ¬ w.dev.fnDelivers x.fn = true) := by
    rintro ⟨hhost, hstuck⟩
    rcases hport with hnone | hdelivers
    · exact hhost (by simpa [List.filter_eq_nil_iff] using hnone)
    · exact hstuck hdelivers
  simp only [Wk.tmWrite, hplaced, if_neg hleaves]

/-! ### What an opcode's own work does with operands that pass its checks (R215 to R218, R267) -/

section
variable {w : Wk} {i j : Nat} {x : Inst} {nb : List Byte}

section
variable (hok : copyOk nb = true) (hcomp : bits (cpWord nb) 6 3 = 0 ∨ w.dev.compressible (fld nb 0x28 8) = true)
include hok hcomp

/-- Past its operand check a COPY goes by its mode. -/
theorem copy_checked : ¬ (¬ copyOk nb = true ∨ (bits (cpWord nb) 6 3 ≠ 0 ∧ ¬ w.dev.compressible (fld nb 0x28 8) = true)) :=
  not_or.2 ⟨not_not.2 hok, fun ⟨hset, hplain⟩ => hcomp.elim hset hplain⟩

theorem Wk.runCopy_bytes {bs : List Byte} (hmode : bit (cpWord nb) 0 = false)
    (hread : w.rdForm x.job x.fn (fld nb 0x20 8) (fld nb 0x30 8) = .ok bs) :
    w.runCopy i j x nb = w.tmWrite i j x [⟨fld nb 0x28 8, bs⟩]
      [.count (w.dev.tmHalf x.fn (fld nb 0x28 8)) Reg.TM_BYTES_OUT_LO (fld nb 0x30 8)] := by
  simp only [Wk.runCopy, if_neg (copy_checked hok hcomp), hmode, hread, Bool.false_eq_true, if_false]

theorem Wk.runCopy_tiles (hmode : bit (cpWord nb) 0 = true) : w.runCopy i j x nb = w.copyTiles i j x nb := by
  simp only [Wk.runCopy, if_neg (copy_checked hok hcomp), hmode, if_true]

end

/-- The tiles that a COPY_T writes, each with its address: the tile at (row, col) of the source, converted, at (col, row) (R215, R218). -/
def Wk.transposed (w : Wk) (x : Inst) (nb : List Byte) (ts : List Tile) : List (Nat × List Byte) :=
  let wd := fld nb 0x34 4
  let ty := bits wd 24 8
  let cols := fld nb 0x32 2
  ts.zipIdx.map fun t => (fld nb 0x28 8 + (t.2 % cols * fld nb 0x30 2 + t.2 / cols) * (32 * (1 + plainSectors ty 0)),
    (convTile t.1 (w.tmConv x.job (bits wd 2 2) (bits wd 16 8)) ty (bit wd 1) true (t.2 % cols) (t.2 / cols)).stored)

/-- A grid of dense tiles, each naming its own place and none changing to or from INT32, is written transposed. -/
theorem Wk.runCopyT_transposes {ts : List Tile} (hok : copyTOk nb = true)
    (hread : w.tmTiles x.job x.fn false (fld nb 0x30 2 * fld nb 0x32 2) (fld nb 0x20 8) = .ok ts)
    (hgrid : ∀ p ∈ ts.zipIdx, p.1.hdr.sparsity = 0 ∧ p.1.hdr.trow = p.2 / fld nb 0x32 2 ∧ p.1.hdr.tcol = p.2 % fld nb 0x32 2
      ∧ (p.1.hdr.ty = tyInt32 ↔ bits (fld nb 0x34 4) 24 8 = tyInt32))
    (hlocal : addrForm (fld nb 0x28 8) = 0) :
    w.runCopyT i j x nb =
      let outs := w.transposed x nb ts
      w.tmWrite i j x (outs.map fun o => ⟨o.1, o.2⟩) (tmCounts (w.dev.tmHalf x.fn (fld nb 0x28 8)) (outs.map (·.2))) := by
  have hplaced : (ts.zipIdx.any fun t => decide (t.1.hdr.sparsity ≠ 0 ∨ t.1.hdr.trow ≠ t.2 / fld nb 0x32 2
      ∨ t.1.hdr.tcol ≠ t.2 % fld nb 0x32 2)) = false := by
    rw [List.any_eq_false]
    intro p hp
    obtain ⟨hdense, hrow, hcol, -⟩ := hgrid p hp
    simp [hdense, hrow, hcol]
  have htypes : (ts.any fun t => (t.hdr.ty == tyInt32) != (bits (fld nb 0x34 4) 24 8 == tyInt32)) = false := by
    rw [List.any_eq_false]
    intro t ht
    obtain ⟨k, hk⟩ := List.mem_iff_getElem?.1 ht
    obtain ⟨-, -, -, hint⟩ := hgrid (t, k) (List.mk_mem_zipIdx_iff_getElem?.2 hk)
    rw [Bool.not_eq_true, bne_eq_false_iff_eq, Bool.eq_iff_iff, beq_iff_eq, beq_iff_eq]
    exact hint
  simp only [Wk.runCopyT, hok, hread, hplaced, htypes, hlocal, ne_eq, not_true_eq_false, Bool.false_eq_true, if_false]
  rfl

end

/-- Settles O18: COPY and COPY_T have an equation for each of their ways on, the work of INGEST and WINDOW_GATHER is their own
function, and a dispatch leaves what that work leaves. That HOST runs go out at the end of the engine's work, before the commit, is
the model's reading (assumption 34). -/
theorem moveNodesComplete : Obligations.MoveNodesComplete := by
  refine ⟨fun s i j now w x m nb => ⟨fun bs hd hok hcomp hmode hread => ?bytes, fun hd hok hcomp hmode => ?tiles, fun ts hd hok => ?transpose,
    fun hd _ => ?ingest, fun hd _ => ?window⟩, fun w i j x rs acts hlocal hport => ?ends⟩
  case bytes => exact dispatch_leaves hd (Wk.runCopy_bytes hok hcomp hmode hread)
  case tiles => exact dispatch_leaves hd (Wk.runCopy_tiles hok hcomp hmode)
  case transpose =>
    intro rows cols dst ty hread hgrid hlocal outs
    exact dispatch_leaves hd (Wk.runCopyT_transposes hok hread hgrid hlocal)
  case ingest => exact dispatch_of hd noNull (fun w x _ nb => w.runIngest i j x nb) false
  case window => exact dispatch_of hd noNull (fun w x _ nb => w.runWindow i j x nb) false
  case ends => exact Wk.tmWrite_ends i j acts hlocal hport

end Sys2Proof.Machine
end

section
/-! PROOFS. The canonical form of the memories (assumption 3; R31, R237). -/

namespace Sys2Proof.Machine

open Sys2Proof

/-- Whatever a command has worked out, what it puts back is the memories with runs stored. -/
theorem State.put_memOk {s : State} (h : s.memOk) (w : Wk) : (s.put w).memOk := by
  obtain ⟨hmem, hhost⟩ := h
  exact ⟨Memory.setRuns_wf _ _ hmem, Memory.setRuns_wf _ _ hhost⟩

theorem exec_memOk {s t : State} {c : Instr} (h : s.memOk) (hrun : exec c s = .next t) : t.memOk := by
  obtain ⟨w, hw⟩ := exec_finish c s
  rw [hw, finish_eq, Host.Outcome.next.injEq] at hrun
  exact hrun ▸ State.put_memOk h w

/-- Settles O3: a step idles or runs one command, and every command ends by storing runs, which keeps the form. -/
theorem stepKeepsMemoriesCanonical : Obligations.StepKeepsMemoriesCanonical := by
  intro s t h hrun
  unfold step at hrun
  split at hrun
  case h_1 => exact Host.Outcome.next.inj hrun ▸ h
  case h_2 c rest _ => exact exec_memOk (s := { s with pending := rest }) h hrun

end Sys2Proof.Machine
end

section
/-! PROOFS. Nodes of the BPM at dispatch, and the zeroing of a freed T1 buffer (R249, R258, R260 to R264, R272). -/

namespace Sys2Proof.Machine

open Sys2Proof

/-! ### What the BPM's own work does with operands that pass its checks -/

/-- The place that an ALLOC asks for, or its refusal: its handle's when it is PINNED, else what its size, flags and half come to (R249). -/
def Dev.placeAsked (d : Dev) (client : Nat) (nb : List Byte) : Except Nat (Half × Nat × Nat) :=
  let c := fld nb 0x38 4
  if bit (bits c 0 16) 3 then d.placePinned client (fld nb 0x30 8)
  else d.place client (fld nb 0x28 8) (bits c 0 16) (bits c 16 2)

/-- The half that a refused ALLOC counts in (R272). -/
def askedHalf (nb : List Byte) : Half :=
  let c := fld nb 0x38 4
  if bit (bits c 0 16) 3 then halfOf (fld nb 0x30 8) else if bits c 16 2 = 1 then .east else .west

/-- The buffer that a placed ALLOC takes for its job and client (R261). -/
def Dev.takenBuf (d : Dev) (x : Inst) (nb : List Byte) (h : Half) (p k : Nat) : Buf :=
  { half := h, pool := p, idx := k, base := d.poolBase h p + k * d.poolSize h p, size := d.poolSize h p, st := .taken, holders := [x.job],
    owner := x.job, client := x.client, flags := bits (fld nb 0x38 4) 0 16, isSealed := false,
    keyEpoch := match d.job x.job with | some q => q.keyEpoch | none => 0 }

section
variable {w : Wk} {i j : Nat} {x : Inst} {nb : List Byte}

theorem Wk.runAlloc_places {h : Half} {p k : Nat} (hok : w.dev.allocOperandsOk nb = true)
    (hplace : w.dev.placeAsked x.client nb = .ok (h, p, k)) (m : Node) :
    w.runAlloc i j x m nb =
      let b := w.dev.takenBuf x nb h p k
      let v := w.upd fun d => (d.onHost fun t => { t with bufs := t.bufs ++ [b] }).onNode i j fun n =>
        { n with result := 0, acts := [.alloc h p k b.flags, .count h Reg.BPM_ALLOC_OK_LO 1] }
      (v.stage i j [⟨fld nb 0x20 8, allocRecord b.base (b.size / 4096) (if p < 8 then 1 else 2) h.code p 0⟩]).upd
        (·.engineDone i j) := by
  simp only [Dev.placeAsked] at hplace
  simp only [Wk.runAlloc, hok, not_true_eq_false, if_false, hplace]
  rfl

theorem Wk.runAlloc_refused {st : Nat} (hok : w.dev.allocOperandsOk nb = true) (hplace : w.dev.placeAsked x.client nb = .error st)
    (m : Node) :
    w.runAlloc i j x m nb =
      if bit (fld nb 0x38 4) 18 then
        ((w.stage i j [⟨fld nb 0x20 8, allocRecord 0 0 0 (askedHalf nb).code 0 st⟩]).upd fun d =>
          d.onNode i j fun n => { n with result := st, acts := [.count (askedHalf nb) (refusalCounter st) 1] }).upd (·.engineDone i j)
      else (w.upd fun d => d.count (askedHalf nb) (refusalCounter st) 1).fail i j st 0 := by
  simp only [Dev.placeAsked] at hplace
  simp only [Wk.runAlloc, hok, not_true_eq_false, if_false, hplace]
  rfl

theorem Wk.runBpm_leavesAct {op : Nat} (hok : bpmOperandsOk op nb = true) (m : Node) :
    w.runBpm op i j x m nb = (w.upd fun d => d.onNode i j fun n =>
      { n with acts := [.bpm op (fld nb 0x20 8) (bits (fld nb 0x28 4) 0 20) (bits (fld nb 0x2C 4) 0 20) (bit (fld nb 0x30 4) 0)] }).upd
        (·.engineDone i j) :=
  if_neg (not_not.2 hok)

theorem Wk.zeroed_returns {base : Nat} {b : Buf}
    (hb : w.dev.host.bufs.find? (fun b => decide (b.base = base ∧ b.st = .freeing ∧ b.pool < 8)) = some b)
    (hcopy : w.dev.copyPending b.base b.size = false) :
    w.zeroed base = (w.wr b.base (List.replicate b.size 0)).upd fun d =>
      (d.onHost fun s => { s with bufs := s.bufs.filter fun c => ¬ (c.base = base ∧ c.st = .freeing) }).dropGoneSlots := by
  simp only [Wk.zeroed, hb, hcopy, Bool.false_eq_true, if_false]

end

/-- Settles O19: an ALLOC has an equation for a place and one for a refusal, FREE, RELEASE and SHARE share one, and a dispatch leaves
what that work leaves. -/
theorem bufferNodesComplete : Obligations.BufferNodesComplete := by
  intro s i j now w x m nb c place ask
  refine ⟨fun h p k hd hok hplace => ?placed, fun st hd hok hplace => ?refused, fun cc op hc hd hok => ?waits,
    fun b hb hcopy => ?zeroed⟩
  case placed => exact dispatch_leaves hd (Wk.runAlloc_places hok hplace m)
  case refused => exact dispatch_leaves hd (Wk.runAlloc_refused hok hplace m)
  case waits =>
    have hrun := Wk.runBpm_leavesAct (w := w) (i := i) (j := j) (x := x) hok m
    simp only [List.mem_cons, List.not_mem_nil, or_false, Prod.mk.injEq] at hc
    rcases hc with ⟨rfl, rfl⟩ | ⟨rfl, rfl⟩ | ⟨rfl, rfl⟩
    · exact dispatch_leaves hd hrun
    · exact dispatch_leaves hd hrun
    · exact dispatch_leaves hd hrun
  case zeroed => exact congrArg (finish s) (Wk.zeroed_returns hb hcopy)

end Sys2Proof.Machine
end

section
/-! PROOFS. A parity error inside a CE (R416, R427). -/

namespace Sys2Proof.Machine

open Sys2Proof

/-- The step is repeated: every operation of the reported one's number takes the count that the reported one has come to. -/
theorem Wk.ceParity_repeats {w : Wk} {k x : Nat} {o : CeOp} (ho : w.dev.opOf k = some o) (hexch : o.exch = false) (hleft : o.left = false)
    (hvoted : o.voted = false) (hverified : o.verified = false) (hfew : (aget o.faults x).getD 0 < 3) :
    w.ceParity k x = w.upd fun d => (d.onOp o.id fun p =>
      { p with faults := aput p.faults x ((aget o.faults x).getD 0 + 1) }).count .west Reg.TOP_ERR_CORRECTED_LO 1 := by
  simp only [Wk.ceParity, ho, hexch, hleft, hvoted, hverified, if_pos hfew, Bool.false_eq_true, or_self, if_false]

section
variable {s : State} {k x : Nat} {o : CeOp} (now : Nat) (h : Half) (island seq i detail : Nat)
  (ho : (s.devAt now).opOf k = some o) (hexch : o.exch = false) (hleft : o.left = false) (hvoted : o.voted = false)
  (hverified : o.verified = false) (hfew : (aget o.faults x).getD 0 < 3)
include ho hexch hleft hvoted hverified hfew

theorem exec_collParity_repeats : exec (.detectorReport h island (.collParity k x) seq i detail now) s =
    .next (s.withDev (((s.devAt now).onOp o.id fun p =>
      { p with faults := aput p.faults x ((aget o.faults x).getD 0 + 1) }).count .west Reg.TOP_ERR_CORRECTED_LO 1)) :=
  congrArg (finish s) (Wk.ceParity_repeats (w := s.start.at_ now) ho hexch hleft hvoted hverified hfew)

/-- With no other operation of its number, that is each operation's own count raised: what O40 says of it without this hypothesis. -/
theorem exec_collParity_own (hown : ∀ p ∈ s.dev.ce.ops, p.id = o.id → p = o) :
    exec (.detectorReport h island (.collParity k x) seq i detail now) s = .next (s.withDev (((s.devAt now).onOp o.id fun p =>
      { p with faults := aput p.faults x ((aget p.faults x).getD 0 + 1) }).count .west Reg.TOP_ERR_CORRECTED_LO 1)) := by
  have hops : s.dev.ce.ops.map (fun p => if p.id = o.id then { p with faults := aput p.faults x ((aget o.faults x).getD 0 + 1) } else p) =
      s.dev.ce.ops.map (fun p => if p.id = o.id then { p with faults := aput p.faults x ((aget p.faults x).getD 0 + 1) } else p) := by
    refine List.map_congr_left fun p hp => ?_
    split
    next hid => rw [hown p hp hid]
    next => rfl
  have honOp : ((s.devAt now).onOp o.id fun p => { p with faults := aput p.faults x ((aget o.faults x).getD 0 + 1) }) =
      (s.devAt now).onOp o.id fun p => { p with faults := aput p.faults x ((aget p.faults x).getD 0 + 1) } :=
    congrArg (fun l => (s.devAt now).onCe fun c => { c with ops := l }) hops
  rw [exec_collParity_repeats now h island seq i detail ho hexch hleft hvoted hverified hfew, honOp]

end

/-- An ALL_REDUCE of a group with number 0, of which tiles have met parity. -/
def reduceWith (group : Nat) (faults : List (Nat × Nat)) : CeOp :=
  { id := 0, group := group, inst := 0, node := 0, exch := false, seq := 0, half := .west, nb := [], strict := false, size := 0,
    list := none, experts := 0, absent := 0, presence := [], raised := false, union := [], touched := 0, ready := [], done := [],
    bad := [], first := [], inbox := [], early := [], sent := [], asked := [], round := 0, votes := [], voted := false, heard := 0,
    orders := [], told := [], tapped := 0, tapFull := false, faults := faults, left := false, verified := false }

/-- Two groups' operations of one number, whose tile 1 has met parity 0 times and once. -/
def twinOps : State :=
  State.reset.withDev (State.reset.dev.onCe fun c => { c with ops := [reduceWith 2 [], reduceWith 3 [(1, 1)]] })

/-- What the operations under way have met of parity. -/
def State.ceFaults (s : State) : List (List (Nat × Nat)) := s.dev.ce.ops.map (·.faults)

theorem State.ceFaults_counted (s : State) (d : Dev) (id : Nat) (f : CeOp → CeOp) (h : Half) (a n : Nat) :
    (s.withDev ((d.onOp id f).count h a n)).ceFaults = d.ce.ops.map fun p => (if p.id = id then f p else p).faults := by
  simp [State.ceFaults, State.withDev, Dev.onOp]

/-- Refutes O40, by its clause of a parity error inside a CE: where two operations have one number, which the statement's "every state"
lets in, the model gives the other operation the reported one's count too (1), the statement its own count raised (2).
`exec_collParity_own` has the hypothesis that the clause lacks. -/
theorem not_errorsAreClassed : ¬ Obligations.ErrorsAreClassed := by
  rintro ⟨hreports, -⟩
  obtain ⟨-, -, -, -, -, -, -, -, -, -, -, -, hcoll, -⟩ := hreports twinOps .west 0 0 0 0 0 0 0 0 0 0 0 none false
  have hop : (twinOps.devAt 0).opOf 2 = some (reduceWith 2 []) := rfl
  have hfew : (aget (reduceWith 2 []).faults 1).getD 0 < 3 := by decide
  have hstated := hcoll 2 1 (reduceWith 2 []) hop rfl rfl rfl rfl hfew
  have hruns := exec_collParity_repeats 0 .west 0 0 0 0 hop rfl rfl rfl rfl hfew
  have hfaults := congrArg State.ceFaults (Host.Outcome.next.inj (hruns.symm.trans hstated))
  rw [State.ceFaults_counted, State.ceFaults_counted] at hfaults
  have hdiffer : [[(1, 1)], [(1, 1)]] = [[(1, 1)], [(1, 2)]] := hfaults
  exact absurd hdiffer (by decide)

end Sys2Proof.Machine
end

section
/-! PROOFS. The host ports: configuration, PERST_N, VF Enable, doorbell pages, links, BAR4, vectors and Function Level Reset (R275,
R277, R280, R281, R304, R580). -/

namespace Sys2Proof.Machine

open Sys2Proof

/-- A command on the device alone that takes no time, by what it makes of the device. -/
theorem onDev_leaves {s : State} (f : Dev → Dev) {d : Dev} (h : f s.dev = d) : onDev s f = .next (s.withDev d) := by
  rw [onDev_eq, h]
  rfl

/-! ### Configuration requests (R275, R277) -/

section
variable {d : Dev} {r : ConfigRequest}

theorem Dev.configRequest_retry (hready : (d.host.ports.get r.half).cfgReady = false) :
    d.configRequest r = { d with resp := .retryStatus } :=
  if_pos (ne_true_of_eq_false hready)

section
variable (hready : (d.host.ports.get r.half).cfgReady = true)
include hready

theorem Dev.configRequest_absent (hfn : d.fnHalf r.fn ≠ some r.half) : d.configRequest r = { d with resp := .unsupported } :=
  (if_neg (not_not.2 hready)).trans (if_pos hfn)

theorem Dev.configRequest_reads (hfn : d.fnHalf r.fn = some r.half) (hvalue : r.value = none) :
    d.configRequest r = { d with resp := .bytes (d.configRead r.half r.fn r.reg) } := by
  simp only [Dev.configRequest, hready, hfn, hvalue, ne_eq, not_true_eq_false, if_false]

theorem Dev.configRequest_writes {v : Nat} (hfn : d.fnHalf r.fn = some r.half) (hvalue : r.value = some v) :
    d.configRequest r = { d.configWrite r.half r.fn r.reg v with resp := .ok } := by
  simp only [Dev.configRequest, hready, hfn, hvalue, ne_eq, not_true_eq_false, if_false]

end

end

/-! ### Pages and links (R11, R275, R277) -/

section
variable {d : Dev} {h : Half}

theorem Dev.vfEnable_sets (hlead : d.top.portLead = some h) : d.vfEnable true = d.onPort h fun p => { p with vfEnable := true } := by
  simp only [Dev.vfEnable, hlead, if_true]

theorem Dev.vfEnable_clears (hlead : d.top.portLead = some h) :
    d.vfEnable false = (d.onPort h fun p => { p with vfEnable := false }).fencePages fun fn => fn != 0 && fn != 0x40 := by
  simp only [Dev.vfEnable, hlead, Bool.false_eq_true, if_false]

theorem linkWidth_eq_zero_iff (w : Nat) : linkWidth w = 0 ↔ w = 0 := by
  unfold linkWidth
  split
  · omega
  · split
    · omega
    · split <;> omega

theorem linkSpeed_eq_zero_iff (v : Nat) : linkSpeed v = 0 ↔ v = 0 := by
  unfold linkSpeed
  omega

section
variable {s : State} {speed width : Nat} (flit ide : Bool) (now : Nat)

theorem exec_pcieLinkState_up (hspeed : speed ≠ 0) (hwidth : width ≠ 0) :
    exec (.pcieLinkState h speed width flit ide now) s = .next (s.withDev ((s.devAt now).onPort h fun p =>
      { p with speed := linkSpeed speed, width := linkWidth width, flit := flit, ide := ide,
               ideStopped := if ide then false else p.ideStopped })) := by
  have hw : linkWidth width ≠ 0 := (linkWidth_eq_zero_iff width).not.2 hwidth
  have hs : linkSpeed speed ≠ 0 := (linkSpeed_eq_zero_iff speed).not.2 hspeed
  have hon (b : Bool) : (b && linkSpeed speed != 0) = b := by simp [hs]
  change execPcieLinkState h speed width flit ide now s = _
  simp only [execPcieLinkState, if_neg hw, if_neg hs, hon]
  rfl

theorem exec_pcieLinkState_down (hdown : speed = 0 ∨ width = 0) :
    exec (.pcieLinkState h speed width flit ide now) s = .next (s.withDev ((s.devAt now).onPort h fun p =>
      { p with speed := 0, width := 0, flit := false, ide := false, ideStopped := if ide then false else p.ideStopped })) := by
  have hrate : (if linkWidth width = 0 then 0 else linkSpeed speed) = 0 :=
    hdown.elim (fun hs => by rw [(linkSpeed_eq_zero_iff speed).2 hs, ite_self])
      (fun hw => if_pos ((linkWidth_eq_zero_iff width).2 hw))
  have hoff (b : Bool) : (b && (0 : Nat) != 0) = false := by simp
  change execPcieLinkState h speed width flit ide now s = _
  simp only [execPcieLinkState, hrate, hoff, if_true]
  rfl

end

end

/-! ### BAR4 (R280) -/

section
variable {w : Wk} {fn off n a : Nat}

theorem Wk.bar4Read_reads (hbar : w.dev.bar4 fn off n false = some (a, true)) (hclean : w.dev.poisonIn a n = none) :
    w.bar4Read fn off n = w.upd fun d => { d with resp := .bytes (w.rdN a n) } := by
  simp only [Wk.bar4Read, hbar, hclean, not_true_eq_false, if_false]

theorem Wk.bar4Read_poisoned {k : Nat} (hbar : w.dev.bar4 fn off n false = some (a, true)) (hbad : w.dev.poisonIn a n = some k) :
    w.bar4Read fn off n = w.upd fun d => { d.count (halfOf k) Reg.MEM_POISON_READ_LO 1 with resp := .completerAbort } := by
  simp only [Wk.bar4Read, hbar, hbad, not_true_eq_false, if_false]

theorem Wk.bar4Read_refused (hbar : w.dev.bar4 fn off n false = some (a, false)) :
    w.bar4Read fn off n = w.upd fun d => { d.bar4Refuse fn a with resp := .completerAbort } := by
  simp only [Wk.bar4Read, hbar, Bool.false_eq_true, not_false_eq_true, if_true]

theorem Wk.bar4Write_stores {bs : List Byte} (hbar : w.dev.bar4 fn off bs.length true = some (a, true)) :
    w.bar4Write fn off bs = w.wr a bs := by
  simp only [Wk.bar4Write, hbar, not_true_eq_false, if_false]

theorem Wk.bar4Write_refused {bs : List Byte} (hbar : w.dev.bar4 fn off bs.length true = some (a, false)) :
    w.bar4Write fn off bs = w.upd (·.bar4Refuse fn a) := by
  simp only [Wk.bar4Write, hbar, Bool.false_eq_true, not_false_eq_true, if_true]

end

/-! ### Vectors and Function Level Reset (R281, R304) -/

section
variable {d : Dev} {fn v : Nat}

theorem Dev.msix_fires {c : IrqCause} (hheld : c ∈ (d.vec fn v).causes) (hdue : vecDue (d.vec fn v) d.time c.modUs = true) :
    d.msix fn v = d.fireVec fn v :=
  if_pos (List.any_eq_true.2 ⟨c, hheld, hdue⟩)

theorem Dev.unmask_pending (hv : v < 32) (hmasked : (d.vec fn v).masked = true) (hpend : (d.vec fn v).pend = true) :
    d.unmask fn v = (d.setVec fn v { d.vec fn v with masked := false }).fireVec fn v := by
  simp only [Dev.unmask, hv, hmasked, hpend, and_self, if_true]

end

/-- A function's rings lose their records and its uncommitted commands are killed; its fabric regions, rings, pages and registers
return to reset, and the jobs it created are removed (R281). -/
def Wk.flrCleared (w : Wk) (fn : Nat) : Wk :=
  let v := (w.upd fun d => (d.setFunc fn { d.func fn with pagesOn := false }).muteRings fn).killFnInsts fn
  let v := v.upd fun d =>
    (((d.dropClientRegions (clientOf fn)).onHost fun s => { s with rings := s.rings.filter fun p => p.1 / 16 ≠ fn }).setFunc fn
      Func.cold).resetWindow fn
  ((v.dev.host.jobs.filter fun p => p.2.fn = fn).map (·.1)).foldl (fun w j => w.forceRemove j) v

theorem Wk.flr_carried {w : Wk} {fn : Nat} (hfn : (w.dev.fnHalf fn).isSome = true) :
    w.flr fn = (w.flrCleared fn).post ((w.flrCleared fn).dev.fnHome fn) fn { kind := 0xE, d0 := fn * 256 } :=
  if_neg (by rw [Option.isNone_iff_eq_none]; exact Option.isSome_iff_ne_none.1 hfn)

/-! ### The statement -/

/-- Settles O49: each command comes to its own operation on the device or on the working state, which under the command's conditions is
the effect stated. Payload 0 and read request 2 at PERST_N, the fallback of rate and width, and what configuration registers hold are the
model's choices (assumption 58). -/
theorem hostPortsAnswer : Obligations.HostPortsAnswer := by
  intro s h fn now d
  refine ⟨fun reg value hready => ?retry, fun reg hready => ⟨fun hfn => ⟨?read, fun v => ?write⟩, fun hfn value => ?absent⟩,
    onDev_devAt (·.perst h true) rfl, onDev_devAt (·.perst h false) rfl, fun hlead => ⟨?vfOn, ?vfOff⟩, fun hmay => ?page,
    fun speed width flit ide => ⟨exec_pcieLinkState_up flit ide now, exec_pcieLinkState_down flit ide now⟩,
    fun off n a hbar => ⟨fun hclean => ?reads, fun k hbad => ?poisoned⟩, fun off n a hbar => ?readRefused,
    fun off a bs hbar => ?stores, fun off a bs hbar => ?writeRefused, fun v c hheld hdue => ?fires, fun v hv hmasked hpend => ?unmasks,
    fun hfn => ?flr⟩
  case retry => exact onDev_leaves (·.configRequest ⟨h, fn, reg, value⟩) (Dev.configRequest_retry hready)
  case read => exact onDev_leaves (·.configRequest ⟨h, fn, reg, none⟩) (Dev.configRequest_reads hready hfn rfl)
  case write => exact onDev_leaves (·.configRequest ⟨h, fn, reg, some v⟩) (Dev.configRequest_writes hready hfn rfl)
  case absent => exact onDev_leaves (·.configRequest ⟨h, fn, reg, value⟩) (Dev.configRequest_absent hready hfn)
  case vfOn => exact onDev_devAt (·.vfEnable true) (Dev.vfEnable_sets hlead)
  case vfOff => exact onDev_devAt (·.vfEnable false) (Dev.vfEnable_clears hlead)
  case page =>
    exact onDev_devAt (fun d => if d.mayEnable fn then d.setFunc fn { d.func fn with pagesOn := true } else d) (if_pos hmay)
  case reads => exact congrArg (finish s) (Wk.bar4Read_reads (w := s.start) hbar hclean)
  case poisoned => exact congrArg (finish s) (Wk.bar4Read_poisoned (w := s.start) hbar hbad)
  case readRefused => exact congrArg (finish s) (Wk.bar4Read_refused (w := s.start) hbar)
  case stores => exact congrArg (finish s) (Wk.bar4Write_stores (w := s.start) hbar)
  case writeRefused => exact congrArg (finish s) (Wk.bar4Write_refused (w := s.start) hbar)
  case fires => exact onDev_devAt (·.msix fn v) (Dev.msix_fires hheld hdue)
  case unmasks => exact onDev_devAt (·.unmask fn v) (Dev.unmask_pending hv hmasked hpend)
  case flr => exact congrArg (fun v : Wk => finish s v.mirBufs) (Wk.flr_carried (w := s.start.at_ now) hfn)

end Sys2Proof.Machine
end

section
/-! PROOFS. Doorbells, the write-back unit, and the host accesses that end in error (R285, R287 to R292, R298, R306, R580). -/

namespace Sys2Proof.Machine

open Sys2Proof

/-! ### Doorbells (R289 to R292) -/

theorem aget_aput_same {κ α : Type} [DecidableEq κ] (l : List (κ × α)) (k : κ) (x : α) : aget (aput l k x) k = some x := by
  induction l with
  | nil => exact if_pos rfl
  | cons p t ih =>
    obtain ⟨k', x'⟩ := p
    by_cases hk : k' = k
    · simp [aput, aget, hk]
    · simp [aput, aget, hk, ih]

@[simp] theorem Dev.ring_setRing (d : Dev) (fn r : Nat) (x : Ring) : (d.setRing fn r x).ring fn r = x :=
  congrArg (·.getD Ring.cold) (aget_aput_same d.host.rings (16 * fn + r) x)

/-- A doorbell write to a ring pair finds its page and a ring that takes it (R291). -/
def Dev.dbOpen (d : Dev) (fn r : Nat) : Prop := d.dbReach fn r = true ∧ d.dbTaken fn r = true

/-- Holding the low word of an abort tag closes no doorbell. -/
theorem Dev.dbOpen.holdLow {d : Dev} {fn r : Nat} (h : d.dbOpen fn r) (lo : Option Word32) :
    (d.setRing fn r { d.ring fn r with abortLo := lo }).dbOpen fn r := by
  obtain ⟨hreach, htaken⟩ := h
  refine ⟨hreach, ?_⟩
  rw [Dev.dbTaken, Dev.ring_setRing]
  exact htaken

section
variable {w : Wk} {d : Dev} {fn r : Nat} (v : Word32)

theorem Wk.sqTail_stores (h : w.dev.dbOpen fn r) (hfits : idxSub v.toNat (w.dev.ring fn r).sqHead ≤ w.dev.sqSize fn r) :
    w.sqTail fn r v = w.upd fun d => d.setRing fn r { w.dev.ring fn r with sqTail := v.toNat } := by
  obtain ⟨hreach, htaken⟩ := h
  simp only [Wk.sqTail, hreach, htaken, not_true_eq_false, if_false]
  exact if_neg (Nat.not_lt.2 hfits)

theorem Wk.sqTail_overruns (h : w.dev.dbOpen fn r) (hover : w.dev.sqSize fn r < idxSub v.toNat (w.dev.ring fn r).sqHead) :
    w.sqTail fn r v = w.jobFatal (w.dev.ringJob fn r) stOverrun := by
  obtain ⟨hreach, htaken⟩ := h
  simp only [Wk.sqTail, hreach, htaken, not_true_eq_false, if_false]
  exact if_pos hover

theorem Wk.sqTail_dropped (hreach : w.dev.dbReach fn r = true) (hclosed : w.dev.dbTaken fn r = false) :
    w.sqTail fn r v = w.upd (·.dbDropped fn) := by
  simp only [Wk.sqTail, hreach, hclosed, not_true_eq_false, Bool.false_eq_true, not_false_eq_true, if_false, if_true]

theorem Dev.cqHead_stores (h : d.dbOpen fn r) (hfits : idxSub (d.ring fn r).cqTail v.toNat ≤ 2 ^ d.cqLog2 fn r) :
    d.cqHead fn r v = d.setRing fn r { d.ring fn r with cqHead := v.toNat } := by
  obtain ⟨hreach, htaken⟩ := h
  simp only [Dev.cqHead, hreach, htaken, not_true_eq_false, if_false]
  exact if_neg (Nat.not_lt.2 hfits)

theorem Dev.abortLow_holds (h : d.dbOpen fn r) : d.abortLow fn r v = d.setRing fn r { d.ring fn r with abortLo := some v } := by
  obtain ⟨hreach, htaken⟩ := h
  simp only [Dev.abortLow, hreach, htaken, not_true_eq_false, if_false]

theorem Wk.abortHigh_aborts (h : w.dev.dbOpen fn r) :
    w.abortHigh fn r v = (w.upd fun d => d.setRing fn r { w.dev.ring fn r with abortLo := none }).abortTag fn r
      (((w.dev.ring fn r).abortLo.getD 0).toNat + 2 ^ 32 * v.toNat) := by
  obtain ⟨hreach, htaken⟩ := h
  simp only [Wk.abortHigh, hreach, htaken, not_true_eq_false, if_false]

/-- The _LO and then the _HI of an abort tag: the tag is that of the two words written (R290, R291). -/
theorem Wk.abortDoorbell_pair (h : w.dev.dbOpen fn r) (lo : Word32) :
    w.abortDoorbell fn r (some lo) (some v) =
      ((w.upd fun d => d.setRing fn r { w.dev.ring fn r with abortLo := some lo }).upd fun d =>
        d.setRing fn r { w.dev.ring fn r with abortLo := none }).abortTag fn r (lo.toNat + 2 ^ 32 * v.toNat) := by
  have hlow : w.upd (·.abortLow fn r lo) = w.upd fun d => d.setRing fn r { w.dev.ring fn r with abortLo := some lo } :=
    congrArg (fun d => { w with dev := d }) (Dev.abortLow_holds lo h)
  have hopen : (w.upd (·.abortLow fn r lo)).dev.dbOpen fn r := by rw [hlow]; exact h.holdLow (some lo)
  have hring : (w.upd (·.abortLow fn r lo)).dev.ring fn r = { w.dev.ring fn r with abortLo := some lo } := by
    rw [hlow]; exact Dev.ring_setRing ..
  change (w.upd (·.abortLow fn r lo)).abortHigh fn r v = _
  rw [Wk.abortHigh_aborts v hopen, hring, hlow]
  rfl

theorem Wk.evtHead_stores (hreach : w.dev.dbReach fn r = true) (hpages : (w.dev.func fn).pagesOn = true)
    (hon : (w.dev.func fn).evt.on = true) :
    w.evtHead fn r v = (w.upd fun d =>
      d.setFunc fn { w.dev.func fn with evt := { (w.dev.func fn).evt with head := v.toNat } }).reportLost fn := by
  simp only [Wk.evtHead, hreach, hpages, hon, not_true_eq_false, or_self, if_false]

end

/-! ### The write-back unit (R285, R287, R288, R298) -/

section
variable {w : Wk} {d : Dev} {fn r : Nat}

theorem Wk.headWb_writes (hdue : (w.dev.ring fn r).wbDue = true)
    (hapart : ∀ t, (w.dev.ring fn r).wbLast = some t → t + 1000 ≤ w.dev.time) (hport : w.dev.fnDelivers fn = true) :
    w.headWb fn r = (w.wrH (w.dev.ringReg64 fn r 0x10) (toBytes 8 (w.dev.ring fn r).sqHead)).upd fun d =>
      d.setRing fn r { w.dev.ring fn r with wbDue := false, wbLast := some d.time } := by
  cases hlast : (w.dev.ring fn r).wbLast with
  | none => simp [Wk.headWb, hdue, hlast, hport]
  | some t => simp [Wk.headWb, hdue, hlast, hapart t hlast, hport]

/-- The record's last byte with the phase of its place in the CQ (R298). -/
theorem Wk.writeRecord_writes {c : HeldRec} {l : List HeldRec} (hheld : (w.dev.ring fn r).held = c :: l) (hplace : c.at_ = none)
    (hroom : idxSub (w.dev.ring fn r).cqTail (w.dev.ring fn r).cqHead < 2 ^ w.dev.cqLog2 fn r) (hport : w.dev.fnDelivers fn = true) :
    w.writeRecord fn r =
      let x := w.dev.ring fn r
      let lg := w.dev.cqLog2 fn r
      let top := (c.bytes.getD 31 0) ||| (if bit (x.cqTail / 2 ^ lg) 0 then 0 else 0x80)
      (w.wrH (w.dev.ringReg64 fn r 8 + 32 * (x.cqTail % 2 ^ lg)) (c.bytes.take 31 ++ [top])).upd fun d =>
        let e := (d.setRing fn r { x with held := l, cqTail := (x.cqTail + 1) % 2 ^ 32 })
        let e := e.count (e.fnHome fn) Reg.HOST_RECORDS_WRITTEN_LO 1
        let e := if bit (c.bytes.getD 31 0).toNat 6 then e.countGraphRec fn else e
        if c.signal then e.raiseRing fn r else e := by
  have hphase (b : Bool) : (if (!b) = true then (0x80 : Byte) else 0) = if b = true then 0 else 0x80 := by cases b <;> rfl
  simp only [Wk.writeRecord, hheld, hplace, ge_iff_le, if_neg (Nat.not_le.2 hroom), hport, not_true_eq_false, if_false, hphase]

theorem Dev.drained_disables (hst : (d.ring fn r).st = .draining) (hnone : d.ringInsts fn r = 0)
    (hheld : (d.ring fn r).held = [] ∨ (d.ring fn r).broken = true)
    (hframes : ∀ p ∈ d.tgu.frames, p.2.fn = fn → p.2.ring = r → p.2.armed = false ∧ p.2.waiting = []) :
    d.drained fn r = d.setRing fn r { d.ring fn r with st := .disabled, held := [] } := by
  refine if_pos ⟨hst, hnone, hheld.imp_left List.isEmpty_iff.2, ?_⟩
  rw [Bool.not_eq_true, List.any_eq_false]
  intro p hp hwaits
  obtain ⟨hfn, hring, harmed⟩ := of_decide_eq_true hwaits
  obtain ⟨hidle, hempty⟩ := hframes p hp hfn hring
  simp [hidle, hempty] at harmed

/-! ### Accesses of the host that end in error (R306, R580) -/

theorem Wk.gsdError_fails (hst : (w.dev.ring fn r).st = .enabled) (hnext : (w.dev.ring fn r).exposed ≠ []) :
    w.gsdError fn r = (w.upd fun d => d.count (d.fnHome fn) Reg.HOST_GRAPHS_ADMITTED_LO 1).gsdFail fn r 0 stDenied false :=
  if_neg (not_or.2 ⟨not_not.2 hst, List.isEmpty_iff.not.2 hnext⟩)

/-- Before its commit a command whose write ends in error fails (R580). -/
theorem Wk.commandWriteError_fails {i j : Nat} {n : Node} (hn : w.dev.node i j = some n) (hopen : n.st ≠ .done)
    (job nodeId tag attempt a : Nat) : w.commandWriteError i j job nodeId tag attempt a = w.fail i j stDenied a := by
  cases hx : w.dev.inst i with
  | none => simp [Dev.node, hx] at hn
  | some x => simp only [Wk.commandWriteError, hx, hn, if_pos hopen]

theorem Wk.hostWriteError_record (hst : (w.dev.ring fn r).st ≠ .disabled) (job nodeId tag a : Nat) :
    w.hostWriteError (.record fn r) job nodeId tag a = w.wbError fn r :=
  if_neg hst

theorem Wk.hostWriteError_event (hon : (w.dev.func fn).evt.on = true) (job nodeId tag a : Nat) :
    w.hostWriteError (.event fn) job nodeId tag a = w.upd (·.evtDrop fn 0) :=
  if_pos hon

end

/-! ### The statement -/

/-- Settles O50: each command comes to its own operation on the working state at its time, and under the command's conditions that
operation is the effect stated. That the low word of an abort tag is 0 when none is held, and that a lost Event Record keeps its number
and slot, are the model's choices (assumptions 17 and 59). -/
theorem doorbellsAndRecords : Obligations.DoorbellsAndRecords := by
  intro s fn r now v w d x
  refine ⟨fun hreach htaken => ?taken, fun hreach htaken hfits => ?cqHead, fun hreach hclosed => ?dropped,
    fun hreach hpages hon => ?evtHead, fun hdue hapart hport => ?headWb, fun c l hheld hplace hroom hport => ?record,
    fun hst hnone hheld hframes => ?drained, fun hst hnext i j => ?readGsd, fun i j => rfl,
    fun i j n job id tag attempt a hn hopen => ?command, fun job id tag a hst => ?ring, fun job id tag a hon => ?event⟩
  case taken =>
    have hopen : w.dev.dbOpen fn r := ⟨hreach, htaken⟩
    exact ⟨fun hfits => congrArg (finish s) (Wk.sqTail_stores v hopen hfits),
      fun hover => congrArg (finish s) (Wk.sqTail_overruns v hopen hover),
      congrArg (fun d => finish s { w with dev := d }) (Dev.abortLow_holds v hopen),
      congrArg (finish s) (Wk.abortHigh_aborts v hopen),
      fun lo => congrArg (finish s) (Wk.abortDoorbell_pair v hopen lo)⟩
  case cqHead => exact onDev_leaves (·.cqHead fn r v) (Dev.cqHead_stores v ⟨hreach, htaken⟩ hfits)
  case dropped => exact congrArg (finish s) (Wk.sqTail_dropped (w := w) v hreach hclosed)
  case evtHead => exact congrArg (finish s) (Wk.evtHead_stores (w := w) v hreach hpages hon)
  case headWb => exact congrArg (finish s) (Wk.headWb_writes (w := w) hdue hapart hport)
  case record => exact congrArg (finish s) (Wk.writeRecord_writes (w := w) hheld hplace hroom hport)
  case drained => exact onDev_leaves (·.drained fn r) (Dev.drained_disables hst hnone hheld hframes)
  case readGsd => exact congrArg (finish s) (Wk.gsdError_fails (w := w) hst hnext)
  case command => exact congrArg (finish s) (Wk.commandWriteError_fails (w := w) hn hopen job id tag attempt a)
  case ring => exact congrArg (finish s) (Wk.hostWriteError_record (w := w) hst job id tag a)
  case event => exact congrArg (finish s) (Wk.hostWriteError_event (w := w) hon job id tag a)

end Sys2Proof.Machine
end

section
/-! PROOFS. Registers of a function's own client window: jobs, rings and the event ring (R282, R285, R289, R305, R545). -/

namespace Sys2Proof.Machine

open Sys2Proof

/-! ### The rows of the client windows (R545) -/

/-- A row of the HOST block stands below the client windows, or once in each of them. -/
theorem regsHost_windows : ∀ r ∈ regsHost, (0 < r.s1 ∧ r.off + r.n1 * r.s1 ≤ 0x20000) ∨
    (r.s1 = 0x800 ∧ r.n1 = 64 ∧ 0x20000 ≤ r.off ∧ 0 < r.s2 ∧ r.off + r.n2 * r.s2 ≤ 0x20800) := by
  decide

/-- A row covers an offset of one client window exactly if it covers it in the first. -/
theorem RegRow.covers_window {r : RegRow} (hr : r ∈ regsHost) {c x : Nat} (hc : c < 64) (hx : x < 0x800) :
    r.covers (0x20000 + 0x800 * c + x) = r.covers (0x20000 + x) := by
  rcases regsHost_windows r hr with ⟨hs, hbelow⟩ | ⟨hs1, hn1, hlo, hs2, hhi⟩
  · have hno {y : Nat} (hy : 0x20000 ≤ y) : r.covers y = false := by
      rw [Bool.eq_false_iff]
      intro hcov
      have := RegRow.lt_of_covers hs hcov
      omega
    rw [hno (by omega), hno (by omega)]
  · have hpast (d : Nat) (hd : r.n2 * r.s2 ≤ d) : ¬ d / r.s2 < r.n2 :=
      Nat.not_lt.2 ((Nat.le_div_iff_mul_le hs2).2 hd)
    by_cases hat : r.off ≤ 0x20000 + x
    · have hdist : 0x20000 + 0x800 * c + x - r.off = 0x800 * c + (0x20000 + x - r.off) := by omega
      have hle : r.off ≤ 0x20000 + 0x800 * c + x := by omega
      have hdiv : (0x800 * c + (0x20000 + x - r.off)) / 0x800 = c := by omega
      have hdiv0 : (0x20000 + x - r.off) / 0x800 = 0 := by omega
      have hmod : (0x800 * c + (0x20000 + x - r.off)) % 0x800 = (0x20000 + x - r.off) % 0x800 := by omega
      simp [RegRow.covers, hs1, hn1, hat, hle, hdist, hdiv, hdiv0, hmod, hc]
    · have hfirst : r.covers (0x20000 + x) = false := by simp [RegRow.covers, hat]
      rw [hfirst, Bool.eq_false_iff]
      intro hcov
      simp only [RegRow.covers, hs1, Bool.and_eq_true, decide_eq_true_eq] at hcov
      obtain ⟨hle, ⟨-, hlt⟩, -⟩ := hcov
      exact hpast _ (by omega) hlt

theorem rowsAt_host {off : Nat} (hlo : 0x10000 ≤ off) (hhi : off < 0x40000) : rowsAt off = regsHost := by
  rw [rowsAt, if_neg (by omega), if_pos hhi]

theorem findRow_window {c x : Nat} (hc : c < 64) (hx : x < 0x800) : findRow (0x20000 + 0x800 * c + x) = findRow (0x20000 + x) := by
  rw [findRow, findRow, rowsAt_host (by omega) (by omega), rowsAt_host (by omega) (by omega)]
  exact List.find?_congr fun r hr => RegRow.covers_window hr hc hx

theorem findRow_ringCfg : ∀ r < 16, findRow (0x20000 + (0x40 * r + 0x18)) = findRow Reg.HOST_RING_CFG := by decide

/-! ### A write of a function to its own client window (R545 to R551) -/

theorem clientOf_lt {fn : Nat} (h : fn < 64 ∨ fn = 0x40) : clientOf fn < 64 := by
  unfold clientOf
  rcases h with h | rfl
  · split <;> omega
  · decide

theorem Dev.portLead_of_fnHalf {d : Dev} {fn : Nat} {h : Half} (hfn : d.fnHalf fn = some h) :
    ∃ p, d.top.portLead = some p ∧ h = if fn = 0x40 then p.other else p := by
  cases hlead : d.top.portLead with
  | none => simp [Dev.fnHalf, hlead] at hfn
  | some p =>
    simp only [Dev.fnHalf, hlead, Option.ite_none_right_eq_some, Option.some.injEq] at hfn
    exact ⟨p, rfl, hfn.2.symm⟩

/-- A half carries the function and serves its registers: it is neither fenced nor lost, and the device is READY and runs. -/
structure Dev.Serves (d : Dev) (fn : Nat) (h : Half) : Prop where
  fn_ : fn < 64 ∨ fn = 0x40
  carried : d.fnHalf fn = some h
  lives : d.windowLives h = true
  ready : d.top.ready = true
  runs : d.top.stopped = false

/-- A register of the client windows that a write of its function takes effect on at once: it stands at the aligned offset, below the
accounting, is plain, can be written, and is not one of the lead's only. -/
structure ClientReg (x : Nat) (row : RegRow) : Prop where
  at_ : findRow (0x20000 + x) = some row
  lt : x < 0x700
  aligned : x % 4 = 0
  plain : row.part = .plain
  writable : row.acc ≠ .ro
  shared : row.scope ≠ .lead

section
variable {d : Dev} {fn x : Nat} {h : Half} {row : RegRow}

theorem Dev.Serves.fnHome (hd : d.Serves fn h) : d.fnHome fn = h := by rw [Dev.fnHome, hd.carried, Option.getD_some]

theorem ClientReg.findRow_winOff (hx : ClientReg x row) (hfn : fn < 64 ∨ fn = 0x40) : findRow (winOff fn x) = some row :=
  (findRow_window (clientOf_lt hfn) (lt_trans hx.lt (by decide))).trans hx.at_

theorem winOff_bounds (hfn : fn < 64 ∨ fn = 0x40) (hx : x < 0x800) : 0x20000 ≤ winOff fn x ∧ winOff fn x < 0x40000 := by
  have := clientOf_lt hfn
  unfold winOff
  omega

/-- The window of a function's client, in the half that carries it, is the function's. -/
theorem Dev.Serves.windowOf (hd : d.Serves fn h) (hx : x < 0x800) : d.windowOf h (winOff fn x) = some fn := by
  have hidx : (winOff fn x - 0x20000) / 0x800 = clientOf fn := by unfold winOff; omega
  obtain ⟨p, hlead, rfl⟩ := Dev.portLead_of_fnHalf hd.carried
  rw [Dev.windowOf, if_pos (winOff_bounds hd.fn_ hx), hidx, Dev.windowFn, hlead]
  by_cases hstandby : fn = 0x40
  · subst hstandby
    cases p <;> rfl
  · simp [clientOf, hstandby]

/-- No register of a VF's window stands in its MSI-X table (R276). -/
theorem Dev.Serves.msixWord_vf (hd : d.Serves fn h) (hvf : ¬ (fn = 0 ∨ fn = 0x40)) (hx : x < 0x700) : d.msixWord fn x = none := by
  have hno : ¬ (0x1000 ≤ x ∧ x < 0x1200) := by omega
  simp only [Dev.msixWord, hd.carried, if_neg hvf, if_neg hno]

theorem Dev.Serves.bar0_vf (hd : d.Serves fn h) (hvf : ¬ (fn = 0 ∨ fn = 0x40)) (hx : x < 0x700) :
    d.bar0 fn x = some (h, winOff fn x) := by
  have hin : x < 0x800 := by omega
  simp only [Dev.bar0, hd.carried, if_neg hvf, if_pos hin]

end

section
variable {w : Wk} {s : State} {fn now x : Nat} {h : Half} {row : RegRow} (v : Word32)

/-- A VF writes at the register's own offset of its BAR0 (R276). -/
theorem Wk.bar0Write_vf (hd : w.dev.Serves fn h) (hvf : ¬ (fn = 0 ∨ fn = 0x40)) (hx : ClientReg x row) :
    w.bar0Write fn x 4 v = (w.upd fun d => { d with resp := .ok }).regWrite fn h (winOff fn x) v := by
  have hn : (w.upd fun d => { d with resp := .ok }).dev.Serves fn h := ⟨hd.fn_, hd.carried, hd.lives, hd.ready, hd.runs⟩
  have hin : ¬ (fn ≠ 0 ∧ fn ≠ 0x40 ∧ 0x800 ≤ x) := by have := hx.lt; omega
  have hword : wordAccess x 4 = true := (wordAccess_iff x 4).2 ⟨rfl, hx.aligned⟩
  simp only [Wk.bar0Write, hword, not_true_eq_false, if_false, hn.msixWord_vf hvf hx.lt, hn.bar0_vf hvf hx.lt, if_neg hin]

/-- A write that has reached a register of its function's client window has its effect at once. -/
theorem Wk.regWrite_client (hd : w.dev.Serves fn h) (hx : ClientReg x row) :
    w.regWrite fn h (winOff fn x) v = w.regEffect fn h (winOff fn x) v := by
  have hacct : ¬ 0x700 ≤ (winOff fn x - 0x20000) % 0x800 := by have := hx.lt; unfold winOff; omega
  simp [Wk.regWrite, hx.findRow_winOff hd.fn_, hx.writable, hx.shared, hd.lives, hd.ready, hd.runs, hacct]

theorem Wk.regEffect_client (hd : w.dev.Serves fn h) (hx : ClientReg x row) :
    w.regEffect fn h (winOff fn x) v = w.writeTopHost h fn row (winOff fn x) fn v := by
  have hwin : x < 0x800 := lt_trans hx.lt (by decide)
  simp only [Wk.regEffect, hx.findRow_winOff hd.fn_, hd.windowOf hwin, hx.plain, if_pos (winOff_bounds hd.fn_ hwin).2]

/-- The command that writes a register of a function's own client window leaves the register's effect. -/
theorem clientWrite_leaves (hd : (s.posted now).dev.Serves fn h) (hx : ClientReg x row) :
    clientWrite fn x v now s = .next (s.put ((s.posted now).writeTopHost h fn row (winOff fn x) fn v)) := by
  rw [← Wk.regEffect_client v hd hx, ← Wk.regWrite_client v hd hx]
  by_cases hvf : fn = 0 ∨ fn = 0x40
  · have hreg : (s.devAt now).AtReg fn (0x20000 + x) row :=
      ⟨Option.isSome_iff_exists.2 ⟨h, hd.carried⟩, hvf, by have := hx.lt; omega, by have := hx.aligned; omega, hx.at_⟩
    have hoff : winOff fn x = 0x20000 + x := by rcases hvf with rfl | rfl <;> simp [winOff, clientOf]
    have hhome : s.dev.fnHome fn = h := hd.fnHome
    rw [hoff]
    simp only [clientWrite, if_pos hvf, hhome, Nat.add_assoc]
    exact congrArg (finish s) (Wk.bar0Write_window (w := s.start.at_ now) hreg h v)
  · have hat : (s.start.at_ now).dev.Serves fn h := ⟨hd.fn_, hd.carried, hd.lives, hd.ready, hd.runs⟩
    simp only [clientWrite, if_neg hvf]
    exact congrArg (finish s) (Wk.bar0Write_vf v hat hvf hx)

end

/-! ### The registers of jobs, rings and the event ring (R282, R285, R289) -/

/-- The row of HOST_JOB_CTL (R305). -/
def rowJobCtl : RegRow :=
  { off := Reg.HOST_JOB_CTL, acc := .wo, reset := 0, mask := 3, scope := .perHalf, part := .plain, n1 := 64, s1 := 0x800 }

/-- The row of HOST_RING_CFG (R305). -/
def rowRingCfg : RegRow :=
  { off := Reg.HOST_RING_CFG, acc := .rw, reset := 0x700, mask := 0x80ff0700, scope := .perHalf, part := .plain, n1 := 64, s1 := 0x800,
    n2 := 16, s2 := 0x40 }

/-- The row of HOST_EVT_CFG (R305). -/
def rowEvtCfg : RegRow :=
  { off := Reg.HOST_EVT_CFG, acc := .rw, reset := 0, mask := 0xc00fff1f, scope := .perHalf, part := .plain, n1 := 64, s1 := 0x800 }

theorem clientReg_jobCtl : ClientReg 0x50C rowJobCtl := ⟨rfl, by decide, rfl, rfl, by decide, by decide⟩

theorem clientReg_ringCfg (r : Nat) : ClientReg (0x40 * (r % 16) + 0x18) rowRingCfg :=
  ⟨findRow_ringCfg _ (Nat.mod_lt r (by decide)), by omega, by omega, rfl, by decide, by decide⟩

theorem clientReg_evtCfg : ClientReg 0x408 rowEvtCfg := ⟨rfl, by decide, rfl, rfl, by decide, by decide⟩

section
variable (w : Wk) (h : Half) (fn : Nat) (v : Word32)

theorem Wk.writeTopHost_jobCtl (off : Nat) : w.writeTopHost h fn rowJobCtl off fn v = (w.jobCtl fn (bits v.toNat 0 2)).mirBufs := by
  simp +decide only [Wk.writeTopHost, reduceIte]

theorem Wk.writeTopHost_ringCfg (r : Nat) :
    w.writeTopHost h fn rowRingCfg (winOff fn (0x40 * (r % 16) + 0x18)) fn v = w.upd (·.ringCfg fn fn (r % 16) v) := by
  have hr : (winOff fn (0x40 * (r % 16) + 0x18) - 0x20000) % 0x800 / 0x40 = r % 16 := by unfold winOff; omega
  simp +decide only [Wk.writeTopHost, reduceIte, hr]

theorem Wk.writeTopHost_evtCfg (off : Nat) : w.writeTopHost h fn rowEvtCfg off fn v = w.upd (·.evtCfg fn v) := by
  simp +decide only [Wk.writeTopHost, reduceIte]

theorem Wk.jobCtl_create : w.jobCtl fn 1 = w.upd (·.jobCreate fn) := by
  simp only [Wk.jobCtl, Nat.one_ne_zero, if_false, if_true]

section
variable {w fn} {id : Nat} {j : Job} (hid : w.dev.rn (w.dev.fnHome fn) (winOff fn 0x500) = id) (hset : id ≠ 0)
  (hjob : w.dev.job id = some j) (hown : j.client = clientOf fn)
include hid hset hjob hown

theorem Wk.jobCtl_remove (hidle : w.dev.jobBusy id = false) : w.jobCtl fn 2 = (w.removeJob id).upd (·.jobResult fn 1) := by
  simp [Wk.jobCtl, hid, hset, hjob, hown, hidle]

theorem Wk.jobCtl_force : w.jobCtl fn 3 = (w.forceRemove id).upd (·.jobResult fn 1) := by
  simp [Wk.jobCtl, hid, hset, hjob, hown]

end

end

/-! ### The statement -/

/-- Settles O53: each command is one write of a function to its own client window, which reaches the window's register and has that
register's effect. -/
theorem clientWindowActs : Obligations.ClientWindowActs := by
  intro s fn r now h v w d hfn hcarried hlives hready hruns
  have hd : w.dev.Serves fn h := ⟨hfn, hcarried, hlives, hready, hruns⟩
  have job (a : Word32) {u : Wk} (hu : w.jobCtl fn (bits a.toNat 0 2) = u) :
      clientWrite fn 0x50C a now s = .next (s.put u.mirBufs) := by
    rw [clientWrite_leaves a hd clientReg_jobCtl, Wk.writeTopHost_jobCtl, hu]
  have ring (a : Word32) : clientWrite fn (0x40 * (r % 16) + 0x18) a now s = .next (s.put (w.upd (·.ringCfg fn fn (r % 16) a))) := by
    rw [clientWrite_leaves a hd (clientReg_ringCfg r), Wk.writeTopHost_ringCfg]
  refine ⟨job 1 (w.jobCtl_create fn), fun j => ?removes, ring _, ring _, ?event⟩
  case removes =>
    intro id hset hjob hown
    have hid : w.dev.rn (w.dev.fnHome fn) (winOff fn 0x500) = id := by rw [hd.fnHome]
    exact ⟨fun hidle => job 2 (Wk.jobCtl_remove hid hset hjob hown hidle), job 3 (Wk.jobCtl_force hid hset hjob hown)⟩
  case event => exact (clientWrite_leaves v hd clientReg_evtCfg).trans (by rw [Wk.writeTopHost_evtCfg])

end Sys2Proof.Machine
end

section
/-! PROOFS. Nodes of the TGU itself: NOP, HOST_SIGNAL, HOST_WAIT and its polls, and SNAPSHOT (R301, R302, R324, R480). -/

namespace Sys2Proof.Machine

open Sys2Proof

/-! ### Whose a graph in flight is, all through a dispatch (R310) -/

/-- The job and the function of a graph in flight. -/
def Dev.whose (d : Dev) (seq : Nat) : Option (Nat × Nat) := (d.inst seq).map fun x => (x.job, x.fn)

section
variable (d : Dev) (seq i : Nat)

@[simp] theorem Dev.inst_setInst (x : Inst) : (d.setInst seq x).inst seq = some x := aget_aput_same d.tgu.insts seq x

theorem Dev.whose_of_insts {d e : Dev} (h : d.tgu.insts = e.tgu.insts) : d.whose seq = e.whose seq :=
  congrArg (fun l => (aget l seq).map fun x : Inst => (x.job, x.fn)) h

@[simp] theorem Dev.count_whose (h : Half) (a n : Nat) : (d.count h a n).whose seq = d.whose seq :=
  Dev.whose_of_insts seq (congrArg Tgu.insts (d.count_tgu h a n))

@[simp] theorem Dev.setReg64_whose (h : Half) (a x : Nat) : (d.setReg64 h a x).whose seq = d.whose seq :=
  Dev.whose_of_insts seq (congrArg Tgu.insts (d.setReg64_tgu h a x))

/-- Changing a node changes neither the job nor the function of its graph. -/
@[simp] theorem Dev.onNode_whose (f : Node → Node) : (d.onNode seq i f).whose seq = d.whose seq := by
  unfold Dev.onNode
  split
  · rfl
  · rename_i x hx
    split
    · rfl
    · rw [Dev.whose, Dev.whose, hx, Dev.inst_setInst]
      rfl

theorem Dev.startAttempt_whose (x : Inst) (n : Node) : (d.startAttempt seq i x n).whose seq = d.whose seq := by
  refine (Dev.onNode_whose _ seq i _).trans ?_
  rw [Dev.count_whose]
  split
  · rw [Dev.setReg64_whose, Dev.acct, Dev.count_whose]
  · rw [Dev.acct, Dev.count_whose]

end

/-- The working state of a dispatch still holds the node's graph, of the same job and function. -/
theorem State.Dispatches.whose {s : State} {seq i op now : Nat} {can : Dev → Nat → Nat → Bool} {w : Wk} {x : Inst} {m : Node}
    {nb : List Byte} (h : s.Dispatches seq i op now can w x m nb) : ∃ y, w.dev.inst seq = some y ∧ y.job = x.job ∧ y.fn = x.fn := by
  obtain ⟨hinst, ⟨n, -, -, -, -, -, -, -, -, -, ss, v, -, -, -, -, rfl⟩, -, -⟩ := h
  have hwhose : ((((s.start.at_ now).begun seq i x n).linked seq i ss).shaped seq i v).dev.whose seq = some (x.job, x.fn) := by
    simp only [Wk.shaped, Wk.linked, Wk.begun, Wk.upd_dev, Dev.onNode_whose, Dev.startAttempt_whose]
    exact congrArg (Option.map _) hinst
  obtain ⟨y, hy, hown⟩ := Option.map_eq_some_iff.1 hwhose
  obtain ⟨hjob, hfn⟩ := Prod.mk.inj hown
  exact ⟨y, hy, hjob, hfn⟩

/-! ### HOST_WAIT (R302) -/

section
variable {w : Wk} {i j next addr value cond poll timeout : Nat} {x : Inst} {m : Node} {bs : List Byte}

/-- A poll that reads a satisfying word completes its node. -/
theorem Wk.pollOnce_completes (hx : w.dev.inst i = some x) (hm : w.dev.node i j = some m) (hread : w.rdForm x.job x.fn addr 8 = .ok bs)
    (hholds : condHolds cond (ofBytes bs) value = true) :
    w.pollOnce i j next addr value cond poll timeout = w.upd (·.engineDone i j) := by
  simp only [Wk.pollOnce, hx, hm, hread, hholds, if_true]

theorem Wk.waitPoll_due (hm : w.dev.node i j = some m) (hrun : m.st = .running)
    (heng : m.eng = .polling next addr value cond poll timeout) (hdue : next ≤ w.dev.time) :
    w.waitPoll i j = w.pollOnce i j next addr value cond poll timeout := by
  simp only [Wk.waitPoll, hm, heng, hrun, hdue, and_self, if_true]

end

/-! ### SNAPSHOT (R480) -/

theorem snapshot_sound {nb : List Byte} (hform : addrForm (fld nb 0x20 8) = 0) (haligned : fld nb 0x20 8 % 16 = 0)
    (hzero : zeroFrom nb 0x28 = true) :
    ¬ (fld nb 0x20 8 % 16 ≠ 0 ∨ addrForm (fld nb 0x20 8) ≠ 0 ∨ ¬ zeroFrom nb 0x28 = true) :=
  not_or.2 ⟨not_not.2 haligned, not_or.2 ⟨not_not.2 hform, not_not.2 hzero⟩⟩

/-! ### The statement -/

/-- Settles O16: past its check of operands each opcode's own work is the effect stated, and a dispatch leaves what that work leaves. A
HOST_WAIT reads its word for the job and function of its graph, which the dispatch has not changed. -/
theorem hostNodesComplete : Obligations.HostNodesComplete := by
  intro s i j now w x m nb
  refine ⟨fun hd hok => dispatch_leaves hd (if_pos hok), fun hd hok => dispatch_leaves hd (if_neg (not_not.2 hok)),
    fun bs hd hok hread hholds => ?wait, fun next addr value cond poll timeout bs hx hm hrun heng hdue hread hholds => ?poll,
    fun hd hform haligned hzero => dispatch_leaves hd (if_neg (snapshot_sound hform haligned hzero))⟩
  case wait =>
    obtain ⟨y, hy, hjob, hfn⟩ := hd.whose
    rw [← hjob, ← hfn] at hread
    exact dispatch_leaves hd ((if_neg (not_not.2 hok)).trans (Wk.pollOnce_completes hy hd.node hread hholds))
  case poll =>
    have hpoll : (s.start.at_ now).pollOnce i j next addr value cond poll timeout = (s.start.at_ now).upd (·.engineDone i j) :=
      Wk.pollOnce_completes hx hm hread hholds
    exact congrArg (finish s) ((Wk.waitPoll_due (w := s.start.at_ now) hm hrun heng hdue).trans hpoll)

end Sys2Proof.Machine
end

section
/-! PROOFS. Ticks, and the admission of a descriptor (R293, R308, R309, R337, R339, R340). -/

namespace Sys2Proof.Machine

open Sys2Proof

/-! ### Ticks (R337) -/

section
variable {w : Wk}

section
variable (hsource : bits (w.dev.rn w.dev.leadHalf Reg.TGU_TICK_CFG) 30 2 = 1) (hreset : w.dev.top.resetN = true)
include hsource hreset

theorem Wk.tickIn_accepts
    (hapart : ∀ t, w.dev.tgu.lastTick = some t → t + 1000 * bits (w.dev.rn w.dev.leadHalf Reg.TGU_TICK_CFG) 0 16 ≤ w.dev.time) :
    w.tickIn = w.tick w.dev.time := by
  cases hlast : w.dev.tgu.lastTick with
  | none => simp [Wk.tickIn, hsource, hreset, hlast]
  | some t => simp [Wk.tickIn, hsource, hreset, hlast, Nat.not_lt.2 (hapart t hlast)]

theorem Wk.tickIn_ignores {t : Nat} (hlast : w.dev.tgu.lastTick = some t)
    (hnear : w.dev.time < t + 1000 * bits (w.dev.rn w.dev.leadHalf Reg.TGU_TICK_CFG) 0 16) :
    w.tickIn = w.upd (·.count .west Reg.TGU_TICKS_IGNORED_LO 1) := by
  simp [Wk.tickIn, hsource, hreset, hlast, hnear]

end

theorem Wk.tickInternal_accepts (hsource : bits (w.dev.rn w.dev.leadHalf Reg.TGU_TICK_CFG) 30 2 = 2)
    (hwhole : w.dev.time % (1000 * w.dev.rn w.dev.leadHalf Reg.TGU_TICK_PERIOD) = 0) (hnew : w.dev.tgu.lastTick ≠ some w.dev.time) :
    w.tickInternal = w.tick w.dev.time :=
  if_neg (not_or.2 ⟨not_not.2 hsource, not_or.2 ⟨not_not.2 hwhole, hnew⟩⟩)

/-! ### Admission (R308, R309) -/

/-- The TGU takes a descriptor from the ring now: one is exposed, the ring and its page are on, and nothing keeps the device from
dispatching. -/
structure Dev.Admits (d : Dev) (fn r : Nat) : Prop where
  enabled : (d.ring fn r).st = .enabled
  exposed : (d.ring fn r).exposed ≠ []
  dispatching : d.dispatching = true
  pages : (d.func fn).pagesOn = true
  steady : d.modeChanging = false
  unskipped : (d.ring fn r).sqHead ∉ (d.ring fn r).skip
  delivers : d.fnDelivers fn = true

/-- What the TGU reads of the descriptor at the head of a ring. -/
def Wk.nextGsd (w : Wk) (fn r : Nat) : List Byte := w.rdH (w.dev.gsdAddr fn r (w.dev.ring fn r).sqHead) 64

/-- A frame-locked graph as its admission arms it (R339). -/
def armedGraph (fn r : Nat) (g : List Byte) (seq : Nat) : FrameGraph :=
  { fn := fn, ring := r, job := bits (fld g 0xC 4) 0 20, gsd := g, seq := seq, armed := true, given := 0, ticks := 0, waiting := [] }

theorem Wk.admitGraph_admits {fn r : Nat} (h : w.dev.Admits fn r) (hsound : gsdOk (w.nextGsd fn r) (w.dev.ringJob fn r) = true)
    (hsetup : w.dev.setupOk (fld (w.nextGsd fn r) 0x18 8) = true) (hspace : w.dev.hasSpace (fld (w.nextGsd fn r) 8 4) = true) :
    w.admitGraph fn r =
      let g := w.nextGsd fn r
      let u := w.upd fun d => (d.passHead fn r).count (d.fnHome fn) Reg.HOST_GRAPHS_ADMITTED_LO 1
      if bit (fld g 0x28 4) 0 then u.upd fun d => d.onTgu fun t =>
        { t with frames := t.frames ++ [(t.nextFrame, armedGraph fn r g t.nextFrame)], nextFrame := t.nextFrame + 1 }
      else u.createInst fn r g none 0 0 none := by
  obtain ⟨hst, hnext, hdisp, hpages, hsteady, hskip, hport⟩ := h
  have htakes : ¬ ((w.dev.ring fn r).st ≠ .enabled ∨ (w.dev.ring fn r).exposed.isEmpty = true ∨ ¬ w.dev.dispatching = true
      ∨ ¬ (w.dev.func fn).pagesOn = true ∨ w.dev.modeChanging = true) := by simp [hst, hnext, hdisp, hpages, hsteady]
  have hhead : ¬ (w.dev.ring fn r).skip.contains (w.dev.ring fn r).sqHead = true := by simpa using hskip
  simp only [Wk.nextGsd] at hsound hsetup hspace
  simp only [Wk.admitGraph, if_neg htakes, if_neg hhead, hport, hsound, hsetup, hspace, not_true_eq_false, if_false]
  rfl

end

/-! ### The statement -/

/-- Settles O24: ticks and the admission each come to their own operation on the working state at the command's time, for the admission
once the armings that wait for space have gone before it (assumption 18). -/
theorem ticksAndAdmission : Obligations.TicksAndAdmission := by
  intro s now d w cfg
  refine ⟨fun hsource hreset hapart => ?accepts, fun t hsource hreset hlast hnear => ?ignores,
    fun hsource hwhole hnew => ?internal, fun fn r => ?admits⟩
  case accepts => exact congrArg (finish s) (Wk.tickIn_accepts (w := w) hsource hreset hapart)
  case ignores => exact congrArg (finish s) (Wk.tickIn_ignores (w := w) hsource hreset hlast hnear)
  case internal => exact congrArg (finish s) (Wk.tickInternal_accepts (w := w) hsource hwhole hnew)
  case admits =>
    intro v x g hst hnext hdisp hpages hsteady hskip hport hsound hsetup hspace
    have hadmits : v.dev.Admits fn r := ⟨hst, hnext, hdisp, hpages, hsteady, hskip, hport⟩
    exact congrArg (fun u : Wk => finish s u.graceScan) (Wk.admitGraph_admits hadmits hsound hsetup hspace)

end Sys2Proof.Machine
end

section
/-! PROOFS. The queue of commands (assumption 6), commits in order and the shadow's acknowledgement of them, and the scheduler's own
events (R324 to R328, R333, R335, R341, R429, R447, R458, R470, R548). -/

namespace Sys2Proof.Machine

open Sys2Proof

/-! ### The queue (assumption 6) -/

theorem step_cons (c : Instr) (s : State) : step { s with pending := c :: s.pending } = exec c s := rfl

theorem step_idle {s : State} (hempty : s.pending = []) : step s = .next s := by
  unfold step
  rw [hempty]

/-- Settles O1: a step matches on its queue. The command at its front runs with the queue's rest, so that putting one there and taking
it off leaves the state as it was; an empty queue idles. -/
theorem frontCommandRuns : Obligations.FrontCommandRuns := ⟨step_cons, fun _ => step_idle⟩

/-! ### A commit boundary (R324, R325, R458, R470) -/

section
variable {w : Wk} {i j k : Nat} {n : Node}

/-- A node that has acted in full, with its place in the order of commits, and a half in charge of a device that runs. -/
structure Dev.ReadyToCommit (d : Dev) (i j k : Nat) (n : Node) : Prop where
  lead : ∃ h, d.leadOf = some h
  node : d.node i j = some n
  runs : d.top.stopped = false
  order : n.readyOrd = some k

section
variable (hready : w.dev.ReadyToCommit i j k n)
include hready

/-- With a shadow, the running node that comes first takes the next slot and joins the batch. -/
theorem Wk.nodeCommit_takesSlot (hrun : n.st = .running) (hpair : w.dev.top.degraded = false)
    (hfirst : w.dev.nextToCommit .running k = true) :
    w.nodeCommit i j = w.upd fun d =>
      (d.onNode i j fun n => { n with st := .committing }).onTgu fun t => { t with batchOut := t.batchOut ++ [(i, j)] } := by
  obtain ⟨⟨h, hlead⟩, hnode, hruns, hord⟩ := hready
  simp [Wk.nodeCommit, hlead, hnode, hruns, hord, hrun, hpair, hfirst]

/-- A node goes on to its checks without a shadow, or once the shadow has acknowledged it, when no epoch cut is to be taken first. -/
theorem Wk.nodeCommit_tries
    (hturn : (n.st = .running ∧ w.dev.top.degraded = true ∧ w.dev.nextToCommit .running k = true) ∨
      (n.st = .committing ∧ n.acked = true ∧ w.dev.nextToCommit .committing k = true))
    (hcut : (w.dev.mir.asked.isSome && w.dev.mirLive && w.dev.mir.cut.isNone) = false) : w.nodeCommit i j = w.tryCommit i j := by
  obtain ⟨⟨h, hlead⟩, hnode, hruns, hord⟩ := hready
  rcases hturn with ⟨hrun, halone, hfirst⟩ | ⟨hcom, hacked, hfirst⟩
  · simp [Wk.nodeCommit, hlead, hnode, hruns, hord, hcut, hrun, halone, hfirst]
  · simp [Wk.nodeCommit, hlead, hnode, hruns, hord, hcut, hcom, hacked, hfirst]

end

/-- Step 2: a node that nothing holds up and no check refuses commits on what Mirror's hold of the pages it writes has left. -/
theorem Wk.tryCommit_commits {x : Inst} {m : Node} {v : Wk} (hinst : w.dev.inst i = some x) (hnode : w.dev.node i j = some n)
    (hm : w.dev.stampStatus n = m) (hv : m.writes.foldl (fun w r => w.mirHold r.1 r.2) w = v) (hroom : v.noticesFit m = true)
    (hthawed : ∀ r ∈ m.writes, v.dev.frozen r.1 r.2 = [])
    (hwrites : v.dev.writesRefused x.job m = none) (hbpm : v.dev.bpmRefused x.job m = none) :
    w.tryCommit i j = v.commitNow i j x m := by
  have hfree : ¬ (m.writes.any fun r => decide ¬ (v.dev.frozen r.1 r.2).isEmpty = true) = true := by
    simpa using fun a n hr => hthawed (a, n) hr
  simp only [Wk.tryCommit, hinst, hnode, hm, hv, hwrites, hbpm, hroom, if_true]
  exact if_neg hfree

end

/-- Settles O22: in NORMAL the first node that is ready takes the slot and no more; the acknowledged one, or the survivor's own, passes
the checks of step 2 on what Mirror's hold leaves, and takes steps 3 to 6 (that the two come as two commands is assumption 14). -/
theorem commitTakesItsSlot : Obligations.CommitTakesItsSlot := by
  intro s i j now k h x n d cutDue hlead hnode hinst hruns hord
  have hready : (s.start.at_ now).dev.ReadyToCommit i j k n := ⟨⟨h, hlead⟩, hnode, hruns, hord⟩
  refine ⟨fun hrun hpair hfirst => ?slot, fun hturn hcut => ?commit⟩
  case slot => exact congrArg (fun w : Wk => finish s w.graceScan) (Wk.nodeCommit_takesSlot hready hrun hpair hfirst)
  case commit =>
    intro m w hroom hthawed hwrites hbpm
    have hcommits : (s.start.at_ now).tryCommit i j = w.commitNow i j x m :=
      Wk.tryCommit_commits hinst hnode rfl rfl hroom hthawed hwrites hbpm
    exact congrArg (fun w : Wk => finish s w.graceScan) ((Wk.nodeCommit_tries hready hturn hcut).trans hcommits)

/-! ### The shadow's batches (R458, R548) -/

theorem Dev.shadowBatch_spoilt (d : Dev) : d.shadowBatch false = d := by
  unfold Dev.shadowBatch
  split <;> simp

theorem Wk.shadowAck_spoilt (w : Wk) : w.shadowAck false = w := by
  unfold Wk.shadowAck
  split <;> simp

section
variable {w : Wk} {h : Half} (hlead : w.dev.leadOf = some h) (hnormal : (w.dev.top.lead.get h).st = .normal)
  (hother : (w.dev.top.lead.get h.other).st = .normal)
include hlead hnormal hother

/-- The shadow records the commits sent and takes in the waiting writes. The batch also reports completions, which leaves the list of
those still owed to some shorter one. -/
theorem Dev.shadowBatch_intact : ∃ owed, w.dev.shadowBatch true = w.dev.onTgu fun t =>
    { t with batchSeen := t.batchSeen ++ t.batchOut, batchOut := [], ackedCommits := t.ackedCommits + t.batchOut.length,
             lwrites := t.lwrites.map (fun x => { x with sent := true }), shadowAcked := owed } := by
  simp only [Dev.shadowBatch, hlead, hnormal, hother, and_self, if_true]
  exact ⟨_, rfl⟩

/-- The acknowledged commits are marked, and the register writes sent with them take effect in order. -/
theorem Wk.shadowAck_intact : w.shadowAck true =
    (w.dev.tgu.lwrites.filter (·.sent)).foldl (fun w x => w.regEffect x.fn x.half x.off x.value) (w.upd fun d =>
      d.tgu.batchSeen.foldl (fun d k => d.onNode k.1 k.2 fun n => if n.st = .committing then { n with acked := true } else n)
        (d.onTgu fun t =>
          { t with shadowAcked := t.shadowAcked ++ t.batchSeen, batchSeen := [], lwrites := t.lwrites.filter fun x => !x.sent })) := by
  simp only [Wk.shadowAck, hlead, hnormal, hother, ne_eq, not_true_eq_false, Bool.true_eq_false, or_self, if_false]
  rfl

end

/-- Settles O38: between two halves in NORMAL a batch changes the TGU's lists alone, and its acknowledgement marks the commits before it
applies the writes; a spoilt one is dropped, so that only device time has passed. -/
theorem shadowBatchesAreAcknowledged : Obligations.ShadowBatchesAreAcknowledged := by
  intro s h now d due hlead hnormal hother
  let w := s.start.at_ now
  refine ⟨?batch, ?ack, ?spoiltBatch, ?spoiltAck⟩
  case batch =>
    obtain ⟨owed, hbatch⟩ := Dev.shadowBatch_intact (w := w) hlead hnormal hother
    exact ⟨_, onDev_devAt (·.shadowBatch true) hbatch, rfl, rfl, rfl, rfl, rfl⟩
  case ack => exact congrArg (finish s) (Wk.shadowAck_intact (w := w) hlead hnormal hother)
  case spoiltBatch => exact onDev_devAt (·.shadowBatch false) d.shadowBatch_spoilt
  case spoiltAck => exact congrArg (finish s) w.shadowAck_spoilt

/-! ### The scheduler's events (R327, R328, R333, R335, R341) -/

section
variable {w : Wk}

/-- The victim of a deadlock of shadow space is killed for a re-run and counted. -/
theorem Wk.shadowKill_kills {h : Half} {v : Nat × Nat × Nat × Nat × Bool} (hholders : w.dev.frameHolders h ≠ [])
    (hstuck : ∀ u ∈ w.dev.frameHolders h, u.2.2.2.2 = true) (hvictim : pickVictim (w.dev.frameHolders h) = some v) :
    w.shadowKill h = (w.killRerun v.2.2.1 v.2.2.2.1 false).upd fun d => (d.count .west Reg.TGU_SHADOW_KILLS_LO 1).unstall := by
  have hdead : ¬ ((w.dev.frameHolders h).isEmpty = true ∨ ((w.dev.frameHolders h).any fun u => !u.2.2.2.2) = true) := by
    refine not_or.2 ⟨by simpa using hholders, ?_⟩
    rw [List.any_eq_true]
    rintro ⟨u, hu, hgoes⟩
    simp [hstuck u hu] at hgoes
  simp only [Wk.shadowKill, if_neg hdead, hvictim]

/-- A grace timer that has run out pre-empts, for a READY node that its ring's completions do not keep waiting. -/
theorem Wk.graceExpiry_preempts {i j : Nat} {g : Grace} {x : Inst} {n : Node}
    (hgrace : (w.dev.tgu.graces.find? fun g => g.inst = i ∧ g.node = j) = some g) (hinst : w.dev.inst i = some x)
    (hnode : w.dev.node i j = some n) (hkept : g.dropped = none) (hdue : g.due ≤ w.dev.time) (hst : n.st = .ready)
    (hring : w.dev.ringFull x = false) (hon : bit (w.dev.rn .west Reg.TGU_PREEMPT_CFG) 31 = true) :
    w.graceExpiry i j = Wk.preempt i j x n (1 + sumBy w.dev.tgu.insts fun p => p.2.nodes.length) w := by
  have hexpires : ¬ (g.dropped.isSome = true ∨ w.dev.time < g.due ∨ n.st ≠ .ready ∨ w.dev.ringFull x = true
      ∨ ¬ bit (w.dev.rn .west Reg.TGU_PREEMPT_CFG) 31 = true) := by simp [hkept, hdue, hst, hring, hon]
  simp only [Wk.graceExpiry, hgrace, hinst, hnode, if_neg hexpires]

end

/-- Settles O23: each event's own test holds of the working state at its time, and its effect is the branch that the test guards. -/
theorem schedulerEvents : Obligations.SchedulerEvents := by
  intro s now d
  refine ⟨fun page hwaits => ?copyBack, fun h v hholders hstuck hvictim => ?deadlock, fun i j g x n => ?grace,
    fun i hdue => ?deadline, fun hasked hidle => ?mode, fun job status hjob hfatal => ?jobFatal⟩
  case copyBack =>
    obtain ⟨f, hf, hpage⟩ := hwaits
    have hany : d.tgu.outFrames.any (·.page = page) = true := List.any_eq_true.2 ⟨f, hf, decide_eq_true hpage⟩
    exact onDev_devAt _ (if_pos hany)
  case deadlock => exact congrArg (finish s) (Wk.shadowKill_kills (w := s.start.at_ now) hholders hstuck hvictim)
  case grace =>
    intro w hgrace hinst hnode hkept hdue hst hring hon
    exact congrArg (fun u : Wk => finish s u.graceScan) (Wk.graceExpiry_preempts hgrace hinst hnode hkept hdue hst hring hon)
  case deadline => exact congrArg (finish s) (if_pos (List.contains_iff_mem.2 hdue))
  case mode =>
    have hchanges : d.modeChanging = true ∧ d.tgu.insts.isEmpty = true := ⟨bne_iff_ne.2 hasked, List.isEmpty_iff.2 hidle⟩
    exact onDev_devAt _ (if_pos hchanges)
  case jobFatal =>
    have hmet : ((s.start.at_ now).dev.job job).isSome = true ∧ isJobFatal status = true := ⟨hjob, hfatal⟩
    exact congrArg (finish s) (if_pos hmet)

end Sys2Proof.Machine
end

section
/-! PROOFS. Requests of other devices: served, refused, repeated or held (R361, R364 to R366, R368, R370, R377 to R379, R381, R384). -/

namespace Sys2Proof.Machine

open Sys2Proof

/-! ### The transaction that a command takes (R327, R366) -/

theorem firstTxn_kind {kind : Txn → Bool} {t : Txn} {l : List Txn} {seen : List Nat} (h : firstTxn kind l seen = some t) :
    kind t = true := by
  induction l generalizing seen with
  | nil => cases h
  | cons u l ih =>
    unfold firstTxn at h
    split at h
    next hu => exact Option.some.inj h ▸ hu.1
    next => exact ih h

section
variable {s : State} {now port : Nat} {kind : Txn → Bool} {t : Txn} (h : s.arrives now port kind t)
include h

theorem State.arrives.kind_ : kind t = true := firstTxn_kind h

/-- A write that no copy-back holds up is handled. -/
theorem finish_onWrite (hgoes : (s.devAt now).mustWait t = false) (work : Wk → Txn → Wk) :
    finish s ((s.start.at_ now).onWrite port kind work) = .next (s.handled port (work (s.taking now port t) t)) := by
  have harr : (s.start.at_ now).dev.arrivedTxn port kind = some t := h
  have hgo : ¬ (s.start.at_ now).dev.mustWait t = true := Bool.eq_false_iff.1 hgoes
  rw [Wk.onWrite, harr]
  exact (congrArg (finish s) (if_neg hgo)).trans (finish_onTxn h work)

end

section
variable {s : State} {now port : Nat} {t : Txn} (h : s.arrives now port (·.op == opBulk) t)
include h

theorem exec_bulk_get (hget : bit t.len 7 = true) :
    exec (.bulk port now) s = .next (s.handled port ((s.taking now port t).serveRead port t)) := by
  have harr : (s.start.at_ now).dev.arrivedTxn port (·.op == opBulk) = some t := h
  refine Eq.trans ?_ (finish_onTxn h (fun w t => w.serveRead port t))
  simp only [exec, execBulk, harr, hget, if_true]

theorem exec_bulk_write (hput : bit t.len 7 = false) (hgoes : (s.devAt now).mustWait t = false) :
    exec (.bulk port now) s = .next (s.handled port ((s.taking now port t).serveBulk port t)) := by
  have harr : (s.start.at_ now).dev.arrivedTxn port (·.op == opBulk) = some t := h
  refine Eq.trans ?_ (finish_onWrite h hgoes (fun w t => w.serveBulk port t))
  simp only [exec, execBulk, harr, hput, Bool.false_eq_true, if_false]

end

section
variable {s : State} {now port : Nat} {t : Txn}

theorem exec_readTx (h : s.arrives now port (·.op == opRead) t) :
    exec (.readTx port now) s = .next (s.handled port ((s.taking now port t).serveRead port t)) :=
  finish_onTxn h fun w t => w.serveRead port t

theorem exec_writeTx (h : s.arrives now port (·.op == opWrite) t) (hgoes : (s.devAt now).mustWait t = false) :
    exec (.writeTx port now) s = .next (s.handled port ((s.taking now port t).serveWrite port t)) :=
  finish_onWrite h hgoes fun w t => w.serveWrite port t

theorem exec_atomic (h : s.arrives now port (·.op == opAtomic) t) (hgoes : (s.devAt now).mustWait t = false) :
    exec (.atomic port now) s = .next (s.handled port ((s.taking now port t).serveAtomic port t)) :=
  finish_onWrite h hgoes fun w t => w.serveAtomic port t

theorem exec_fabInvalidateDeliver (h : s.arrives now port (fun t => t.op == opInv && bit t.len 1) t) :
    exec (.fabInvalidateDeliver port now) s = .next (s.handled port ((s.taking now port t).serveDeliver port t)) :=
  finish_onTxn h fun w t => w.serveDeliver port t

end

/-- An update that takes what it makes of the device from outside. -/
theorem Wk.upd_const (w : Wk) (f : Dev → Dev) : (w.upd fun _ => f w.dev) = w.upd f := rfl

/-- What an update reads of the device that it updates. -/
theorem Wk.upd_self (w : Wk) (f : Dev → Dev → Dev) : w.upd (f w.dev) = w.upd fun d => f d d := rfl

/-! ### A request that is served (R361, R368, R377, R378, R384) -/

section
variable {w : Wk} {p a : Nat} {t : Txn}

/-- A read whose checks hold is answered with what stands at its address, unless that is poisoned. -/
theorem Wk.serveRead_answers {v : Wk} {need : Need} (hv : w.upd (·.winSeen t.src) = v)
    (hneed : (if t.op = opBulk then { r := true } else t.readNeed) = need)
    (hat : v.dev.translate t t.region t.off t.readBytes need (need.w || need.a) = .ok a)
    (hclean : t.readBytes = 0 ∨ v.dev.poisonIn a t.readBytes = none) :
    w.serveRead p t = v.upd (·.respond (Machine.readResp v.dev.me t stOk (v.rdN a t.readBytes))) := by
  have hgood : (if t.readBytes = 0 then none else v.dev.poisonIn a t.readBytes) = none := by
    rcases hclean with hnone | hclean
    · exact if_pos hnone
    · rw [hclean, ite_self]
  simp only [Wk.serveRead, hneed, hv, hat, hgood]
  exact (v.upd_self fun e d => d.respond (Machine.readResp e.me t stOk (v.rdN a t.readBytes))).symm

variable (hfresh : w.fresh t)
include hfresh

theorem Wk.serveWrite_stores (hat : w.dev.translate t t.region t.off t.data.length { w := true } true = .ok a) :
    w.serveWrite p t = (if w.dev.startIgnores t then w else w.applyWrite a t.data).marked t stOk := by
  refine Wk.request_fresh hfresh ?_ p
  simp only [hat]
  split <;> rfl

theorem Wk.serveBulk_stores
    (hat : w.dev.translate t t.region t.off (if t.masked then 4096 else t.data.length) { w := true } true = .ok a) :
    w.serveBulk p t = (if t.masked then (maskedWrites a t.data).foldl (fun w r => w.applyWrite r.1 r.2) w
      else w.applyWrite a t.data).marked t stOk := by
  refine Wk.request_fresh hfresh ?_ p
  simp only [hat]
  split <;> rfl

/-- An ATOMIC that is no ordered addition puts the result of its AOP at its address. -/
theorem Wk.serveAtomic_stores (halign : t.off % aopWidth (t.len % 16) = 0)
    (hplain : ¬ (t.ordered = true ∧ (t.len % 16 = 1 ∨ t.len % 16 = 2)))
    (hat : w.dev.translate t t.region t.off (aopWidth (t.len % 16)) { a := true } true = .ok a) :
    w.serveAtomic p t = (w.applyWrite a (toBytes (aopWidth (t.len % 16)) (atomicResult (t.len % 16)
      (ofBytes (w.rdN a (aopWidth (t.len % 16)))) (ofBytes (t.data.take 8)) (ofBytes (t.data.drop 8))))).marked t stOk := by
  refine Wk.request_fresh hfresh ?_ p
  simp only [halign, hat, Wk.applyAtomic, hplain, ne_eq, not_true_eq_false, if_false]

theorem Wk.serveDeliver_counts (hat : w.dev.translate t t.region t.off 8 { inv := true } true = .ok a) :
    w.serveDeliver p t = (w.applyWrite a (toBytes 8 ((ofBytes (w.rdN a 8) + 1) % 2 ^ 64))).marked t stOk := by
  refine Wk.request_fresh hfresh ?_ p
  simp only [hat]

end

/-- Settles O26: each command takes its transaction, the checks give the address, and the request's own effect is done there and marked
with OK; a read is answered instead. -/
theorem requestsAreServed : Obligations.RequestsAreServed := by
  intro s port now a t w v
  refine ⟨fun h hat hclean => ?read, fun h hget hat hclean => ?get, fun h hgoes hfresh hat => ?write,
    fun h hput hgoes hfresh hat => ?bulk, fun h hgoes hfresh => ?atomic, fun h hfresh hat => ?deliver⟩
  case read =>
    have hop : t.op = opRead := beq_iff_eq.1 h.kind_
    have hneed : (if t.op = opBulk then { r := true } else t.readNeed) = t.readNeed := if_neg (hop ▸ by decide)
    rw [exec_readTx h, Wk.serveRead_answers rfl hneed hat hclean]
  case get =>
    have hop : t.op = opBulk := beq_iff_eq.1 h.kind_
    rw [exec_bulk_get h hget, Wk.serveRead_answers rfl (if_pos hop) hat (.inr hclean)]
  case write => rw [exec_writeTx h hgoes, Wk.serveWrite_stores hfresh hat]
  case bulk => rw [exec_bulk_write h hput hgoes, Wk.serveBulk_stores hfresh hat]
  case atomic =>
    intro n halign hplain hat
    rw [exec_atomic h hgoes, Wk.serveAtomic_stores hfresh halign hplain hat]
  case deliver => rw [exec_fabInvalidateDeliver h, Wk.serveDeliver_counts hfresh hat]

/-! ### A request that is refused, or comes again (R364, R365, R368, R370) -/

/-- A request whose SEQ is new and whose translation answers a status: it is counted as refused and marked with that status. -/
def Wk.refuses (w : Wk) (port : Nat) (t : Txn) (n : Nat) (need : Need) (st : Nat) : Wk :=
  ((w.upd (·.localRefused t t.region t.off n need true)).upd fun d => d.count (d.countHalf port) Reg.FAB_REFUSED_LO 1).marked t st

/-- A request whose SEQ has been applied with a status: it is counted as a duplicate and acknowledged with that status. -/
def Wk.repeats (w : Wk) (port : Nat) (t : Txn) (st : Nat) : Wk :=
  (w.upd fun d => (d.setWin t.src { w.dev.winFor t.src t.seq with lastAt := d.time }).count (d.countHalf port) Reg.FAB_DUP_DISCARD_LO 1).upd
    fun d => d.respond (ackTxn t.src d.me t.tc st t.seq t.seq t.job)

section
variable {w : Wk} {t : Txn} {apply : Wk → Wk × Nat} {p n st : Nat} {need : Need}

theorem Wk.request_refuses (hfresh : w.fresh t)
    (happly : apply w = (w.upd (·.localRefused t t.region t.off n need true), st)) (hst : st ≠ stOk) :
    w.request p t apply = w.refuses p t n need st := by
  have hnone : ((w.dev.winFor t.src t.seq).marks.find? fun m => m.1 = t.seq) = none := by
    simpa [Wk.fresh] using hfresh
  simp only [Wk.request, hnone, happly, if_neg hst]
  rfl

theorem Wk.request_repeats {m : Nat × Nat} (hm : (w.dev.winFor t.src t.seq).marks.find? (fun m => m.1 = t.seq) = some m) :
    w.request p t apply = w.repeats p t m.2 := by
  simp only [Wk.request, hm]
  exact Wk.upd_self _ fun e d => d.respond (ackTxn t.src e.me t.tc m.2 t.seq t.seq t.job)

end

/-- What O27 says of a request, by what its command does with it. -/
theorem refused_or_repeated {s : State} {port n st : Nat} {t : Txn} {c : Instr} {need : Need} {apply : Wk → Wk × Nat} {aligned : Prop}
    {w : Wk} (hexec : exec c s = .next (s.handled port (w.request port t apply)))
    (happly : aligned → w.dev.translate t t.region t.off n need true = .error st →
      apply w = (w.upd (·.localRefused t t.region t.off n need true), st)) :
    (w.fresh t → aligned → w.dev.translate t t.region t.off n need true = .error st → st ≠ stOk →
      exec c s = .next (s.handled port (w.refuses port t n need st)))
    ∧ ∀ m, (w.dev.winFor t.src t.seq).marks.find? (fun m => m.1 = t.seq) = some m →
      exec c s = .next (s.handled port (w.repeats port t m.2)) := by
  refine ⟨fun hfresh halign hat hst => ?_, fun m hm => ?_⟩
  · rw [hexec, Wk.request_refuses hfresh (happly halign hat) hst]
  · rw [hexec, Wk.request_repeats hm]

/-- Settles O27: all three requests go through `Wk.request`, which applies what is new and only acknowledges what is not; what is
applied answers the status of a translation that fails. -/
theorem requestsRefusedOrRepeated : Obligations.RequestsRefusedOrRepeated := by
  intro s port now n st t c kind need hc h hgoes w
  simp only [List.mem_cons, Prod.mk.injEq, List.not_mem_nil, or_false] at hc
  rcases hc with ⟨rfl, rfl, rfl, rfl⟩ | ⟨rfl, rfl, rfl, rfl⟩ | ⟨rfl, rfl, rfl, rfl⟩
  case inl =>
    refine refused_or_repeated (exec_writeTx h (hgoes nofun)) fun _ hat => ?_
    simp only [hat]
  case inr.inl =>
    refine refused_or_repeated (exec_atomic h (hgoes nofun)) fun halign hat => ?_
    simp only [halign rfl, hat, ne_eq, not_true_eq_false, if_false]
  case inr.inr =>
    refine refused_or_repeated (exec_fabInvalidateDeliver h) fun _ hat => ?_
    simp only [hat]

/-! ### An INVALIDATE and a FENCE at their destination (R377 to R379, R381) -/

/-- A FENCE that arrives joins its source's window, once, and the source has been heard (R364). -/
theorem exec_fabFence {s : State} {port now : Nat} {t : Txn} (h : s.arrives now port (·.op == opFence) t) :
    exec (.fabFence port now) s = .next (s.handled port ((s.taking now port t).upd fun d => (d.setWin t.src { d.winFor t.src t.seq with
      lastAt := d.time,
      fences := if (d.winFor t.src t.seq).fences.any fun f => f.seq = t.seq then (d.winFor t.src t.seq).fences
        else (d.winFor t.src t.seq).fences ++ [t] }).fenceAcks t.src)) :=
  finish_onTxn h fun w t => w.serveFence t

section
variable (d : Dev) (n : Nat) (x : Win)

@[simp] theorem Dev.win_setWin : (d.setWin n x).win n = some x := aget_aput_same ..

theorem Dev.winFor_lowest (hwin : d.win n = some x) : d.winFor n x.lowest = x := by
  simp only [Dev.winFor, hwin, lt_irrefl, false_and, and_false, if_false]

/-- FENCEs of a source whose MARKs have yet to be reached stay as they are. -/
theorem Dev.fenceAcks_none (hwait : ∀ f ∈ x.fences, x.reached f.seq = false) :
    (d.setWin n x).fenceAcks n = (d.setWin n x).setWin n x := by
  have hkeep : (x.fences.filter fun f => ¬ x.reached f.seq) = x.fences := List.filter_eq_self.2 (by simpa using hwait)
  have hdue : (x.fences.filter fun f => x.reached f.seq) = [] := List.filter_eq_nil_iff.2 (by simpa using hwait)
  simp only [Dev.fenceAcks, Dev.win_setWin, hkeep, hdue, List.foldl_nil]

end

/-- When the window of a source last heard from it. -/
def State.winHeard (s : State) (n : Nat) : Option Nat := (s.dev.win n).map (·.lastAt)

theorem State.winHeard_fences (s : State) (w : Wk) (n : Nat) (x : Win) (hwait : ∀ f ∈ x.fences, x.reached f.seq = false) :
    (s.handled loopPort (w.upd fun d => (d.setWin n x).fenceAcks n)).winHeard n = some x.lastAt := by
  have hput : (s.handled loopPort (w.upd fun d => (d.setWin n x).fenceAcks n)).dev = (w.dev.setWin n x).fenceAcks n := rfl
  rw [State.winHeard, hput, Dev.fenceAcks_none _ _ _ hwait, Dev.win_setWin, Option.map_some]

/-- A FENCE that device 0 has sent itself, with MARK 5. -/
def selfFence : Txn := Txn.mk0 opFence 0 0 5 0 0 1 0 []

/-- What device 0 keeps for itself, not heard since device time 0: SEQ 5 has yet to be applied. -/
def quietWin : Win := { lowest := 5, newest := 5, marks := [], refused := [], runs := [], fences := [], lastAt := 0 }

/-- A device at which that FENCE has arrived. -/
def fenceArrived : State := State.reset.withDev (State.reset.dev.onFab fun f => { f with loop := [selfFence], wins := [(0, quietWin)] })

/-- That window with the FENCE held, as of a time. -/
def fencedWin (at_ : Nat) : Win := { quietWin with fences := [selfFence], lastAt := at_ }

theorem winHeard_fencedWin (s : State) (w : Wk) (at_ : Nat) :
    (s.handled loopPort (w.upd fun d => (d.setWin 0 (fencedWin at_)).fenceAcks 0)).winHeard 0 = some at_ :=
  s.winHeard_fences w 0 (fencedWin at_) (by simp [fencedWin, Win.reached, seqLe, quietWin, selfFence, Txn.mk0])

/-- Refutes O28, by its clause of a FENCE: in a window that stands from before, the statement's own `y` keeps the time at which the
source was last heard (0), where the model, by R364's rule that a window lives on while its source sends, notes the FENCE's own (7).
`exec_fabFence` is the clause with that time. -/
theorem not_invalidateAndFenceAreHeld : ¬ Obligations.InvalidateAndFenceAreHeld := by
  intro hholds
  obtain ⟨-, hfence⟩ := hholds fenceArrived loopPort 7 selfFence
  have harrives : fenceArrived.arrives 7 loopPort (·.op == opFence) selfFence := rfl
  have hwin : (fenceArrived.taking 7 loopPort selfFence).dev.winFor selfFence.src selfFence.seq = quietWin :=
    Dev.winFor_lowest _ 0 quietWin rfl
  have hstated := hfence harrives
  have hruns := exec_fabFence harrives
  have hheard := congrArg (State.winHeard · 0) (Host.Outcome.next.inj (hruns.symm.trans hstated))
  rw [hwin] at hheard
  have hmodel := winHeard_fencedWin fenceArrived (fenceArrived.taking 7 loopPort selfFence) 7
  have hother := winHeard_fencedWin fenceArrived (fenceArrived.taking 7 loopPort selfFence) 0
  have hdiffer : some 7 = some 0 := hmodel.symm.trans (Eq.trans hheard hother)
  exact absurd hdiffer (by decide)

end Sys2Proof.Machine
end

section
/-! PROOFS. Answers to the device's own requests, and destinations that are lost (R360, R363, R365, R370, R372, R381, R382). -/

namespace Sys2Proof.Machine

open Sys2Proof

/-! ### What is kept for a destination -/

/-- A key's last value is the one that stands. -/
theorem aput_aput {κ α : Type} [DecidableEq κ] (l : List (κ × α)) (k : κ) (x y : α) : aput (aput l k x) k y = aput l k y := by
  induction l with
  | nil => simp [aput]
  | cons e l ih =>
    by_cases he : e.1 = k
    · simp [aput, he]
    · simp [aput, he, ih]

section
variable (d : Dev) (n : Nat) (x y : Dest)

@[simp] theorem Dev.dest_setDest : (d.setDest n x).dest n = x := by
  simp [Dev.dest, Dev.setDest, aget_aput_same]

@[simp] theorem Dev.setDest_setDest : (d.setDest n x).setDest n y = d.setDest n y := by
  simp [Dev.setDest, Dev.onFab, aput_aput]

end

/-! ### An ACK (R365, R370) -/

section
variable {w : Wk} {hook : EngineHook} {dest st : Nat} {h : HeldReq}

/-- The end of a command's request: with OK no more is done, with a refusal the FENCEs that cover it and the job hear of it. -/
theorem Wk.settle_command (hcommand : ∃ a b c e, h.for_ = .node a b c e) {v : Wk}
    (hv : w.upd (fun d => d.setDest dest { d.dest dest with
      held := (d.dest dest).held.filter fun g => g.seq ≠ h.seq,
      refused := if st = stOk then (d.dest dest).refused else (d.dest dest).refused ++ [(h.txn.job, h.seq, st)] }) = v) :
    w.settle hook dest h st =
      if st = stOk then v else v.refusedAfter h.for_ dest st (w.dev.coveringFences h.txn.job dest h.seq) := by
  obtain ⟨a, b, c, e, hfor⟩ := hcommand
  simp only [Wk.settle, hv, hfor]

/-- An ACK of the one request that is held settles it. -/
theorem Wk.acked_one {x : Dest} (hx : w.dev.dest dest = x) (hheld : x.held = [h]) (hst : st ≠ stParity) {u : Wk}
    (hu : w.upd (·.setDest dest { x with heard := w.dev.time }) = u) :
    w.acked hook dest h.seq h.seq st = (((u.settle hook dest h st).upd (·.pump dest)).fenceCheck).invalidateCheck := by
  have hhit : (x.held.filter fun g => decide ((g.seq + 16384 - h.seq) % 16384 ≤ (h.seq + 16384 - h.seq) % 16384)) = [h] := by
    simp [hheld]
  have hu' : (w.upd fun d => d.setDest dest { x with heard := d.time }) = u := hu
  simp only [Wk.acked, hx, hhit, hu', List.foldl_cons, List.foldl_nil, if_neg hst]

end

/-! ### A READ_RESP and a FENCE_ACK (R360, R381, R382) -/

section
variable {w : Wk}

/-- A READ_RESP ends the read of its tag. -/
theorem Wk.readResp_answers {t : Txn} {x : Dest} {r : OutRead} (hx : w.dev.dest t.src = x) (hr : x.reads.find? (fun r => r.tag = t.seq) = some r)
    {v : Wk} (hv : w.upd (·.setDest t.src { x with heard := w.dev.time, reads := x.reads.filter fun q => q.tag ≠ t.seq }) = v) :
    w.readResp t = (if bits t.word 56 8 = stOk then v.readDone r t.data else v.readFails r t.src (bits t.word 56 8)).upd fun d =>
      (d.pump t.src).efuPump := by
  have hv' : (w.upd fun d => d.setDest t.src { x with heard := d.time, reads := x.reads.filter fun q => q.tag ≠ t.seq }) = v := hv
  simp only [Wk.readResp, hx, hr, hv']

/-- A FENCE_ACK of the one FENCE that is out, with no request held, ends it. -/
theorem Wk.fenceAcked_one {hook : EngineHook} {dest st : Nat} {x : Dest} {f : OutFence} (hx : w.dev.dest dest = x) (hfences : x.fences = [f])
    (hsent : f.ahead = 0) (hheld : x.held = []) {v : Wk} (hv : w.upd (·.setDest dest { x with heard := w.dev.time, fences := [] }) = v) :
    w.fenceAcked hook dest f.mark st f.job =
      ((((if st = stOk then v else v.fail f.seq f.node st dest).upd (·.pump dest)).fenceCheck).invalidateCheck) := by
  have hv' : (w.upd fun d => d.setDest dest { x with heard := d.time, fences := [], held := [] }) = v := hheld ▸ hv
  simp [Wk.fenceAcked, hx, hfences, hsent, hheld, hv']

/-! ### A destination that is lost (R372, R382) -/

theorem Wk.reachTimeout_unreachable {dest : Nat} (hlost : w.dev.unreachable dest = true) {z : Dest} (hz : w.dev.dest dest = z) :
    w.reachTimeout dest =
      let u := w.upd (·.setDest dest { z with reads := [], fences := [], waiting := [] })
      let u := z.fences.foldl (fun w f => w.fail f.seq f.node stMemberLost dest) u
      let u := z.reads.foldl (fun w r => w.readFails r dest stMemberLost) u
      let u := z.held.foldl (fun w h => w.settle engineHook dest h stMemberLost) u
      let u := z.waiting.foldl (fun w r => w.settle engineHook dest ⟨z.nextSeq, r.1, none, 0, r.2⟩ stMemberLost) u
      ((u.fenceCheck).invalidateCheck).upd (·.efuPump) := by
  simp [Wk.reachTimeout, hlost, Wk.giveUp, hz]

theorem Wk.reachTimeout_noRoute {dest : Nat} (hheard : w.dev.unreachable dest = false) (hroute : w.dev.reachable dest = false) :
    w.reachTimeout dest = w.giveUp dest Option.isNone := by
  simp [Wk.reachTimeout, hheard, hroute]

end

/-- Settles O29: an answer finds what it answers in the record of its source, and the record and what was answered end as the branch of
its status says. -/
theorem answersReachTheirRequests : Obligations.AnswersReachTheirRequests := by
  intro s port now dest t w x st
  refine ⟨fun h harr hheld _ hfirst hlast hst hcommand => ?ack, fun r harr hr => ?resp, fun f harr hf hmark hsent hjob hheld => ?fence,
    fun hlost => ?silent, fun hheard hroute => ?noRoute⟩
  case ack =>
    intro y u v
    have hexec : exec (.ack port now) s = .next (s.handled port (w.acked engineHook t.src (bits t.word 14 14) (bits t.word 0 14) st)) :=
      finish_onTxn harr fun w t => w.acked engineHook t.src (bits t.word 14 14) (bits t.word 0 14) (bits t.word 56 8)
    have hv : u.upd (fun d => d.setDest t.src { d.dest t.src with
        held := (d.dest t.src).held.filter fun g => g.seq ≠ h.seq,
        refused := if st = stOk then (d.dest t.src).refused else (d.dest t.src).refused ++ [(h.txn.job, h.seq, st)] }) = v :=
      congrArg (fun d => { w with dev := d }) (by simp [y, u, hheld])
    rw [hexec, hfirst, hlast, Wk.acked_one rfl hheld hst rfl, Wk.settle_command hcommand hv]
  case resp =>
    intro v
    have hexec : exec (.readResp port now) s = .next (s.handled port (w.readResp t)) := finish_onTxn harr fun w t => w.readResp t
    rw [hexec, Wk.readResp_answers rfl hr rfl]
  case fence =>
    intro v
    have hexec : exec (.fenceAck port now) s = .next (s.handled port (w.fenceAcked engineHook t.src t.seq st t.job)) :=
      finish_onTxn harr fun w t => w.fenceAcked engineHook t.src t.seq (bits t.word 56 8) t.job
    rw [hexec, ← hmark, ← hjob, Wk.fenceAcked_one rfl hf hsent hheld rfl]
  case silent => exact congrArg (finish s) (Wk.reachTimeout_unreachable (w := s.start.at_ now) hlost rfl)
  case noRoute => exact congrArg (finish s) (Wk.reachTimeout_noRoute (w := s.start.at_ now) hheard hroute)

end Sys2Proof.Machine
end

section
/-! PROOFS. Flits and ports of the Solbite link (R350, R351, R353 to R356, R359, R375, R392). -/

namespace Sys2Proof.Machine

open Sys2Proof

theorem finish_start_upd (s : State) (now : Nat) (f : Dev → Dev) :
    finish s ((s.start.at_ now).upd f) = .next (s.withDev (f (s.devAt now))) := rfl

/-! ### The state of a port -/

section
variable (w : Wk) (d : Dev) (p : Nat) (x y : FPort)

@[simp] theorem Dev.fport_setPort : (d.setPort p x).fport p = x := by
  simp [Dev.fport, Dev.setPort, aget_aput_same]

@[simp] theorem Dev.setPort_setPort : (d.setPort p x).setPort p y = d.setPort p y := by
  simp [Dev.setPort, Dev.onFab, aput_aput]

@[simp] theorem Wk.setPort_setPort : (w.upd (·.setPort p x)).upd (·.setPort p y) = w.upd (·.setPort p y) :=
  congrArg (fun d => { w with dev := d }) (Dev.setPort_setPort w.dev p x y)

/-! What stands in a port as the numbers, credits and acknowledgements of a flit are taken. -/

@[simp] theorem FPort.takeHdr_st (hdr : Nat) : (x.takeHdr hdr).st = x.st := by unfold FPort.takeHdr; split <;> rfl
@[simp] theorem FPort.takeHdr_keyed (hdr : Nat) : (x.takeHdr hdr).keyed = x.keyed := by unfold FPort.takeHdr; split <;> rfl
@[simp] theorem FPort.takeHdr_heldGroup (hdr : Nat) : (x.takeHdr hdr).heldGroup = x.heldGroup := by unfold FPort.takeHdr; split <;> rfl

@[simp] theorem FPort.accept_keyed (data : Bool) (hdr : Nat) : (x.accept data hdr).keyed = x.keyed := by
  unfold FPort.accept; split <;> simp

@[simp] theorem FPort.accept_heldGroup (data : Bool) (hdr : Nat) : (x.accept data hdr).heldGroup = x.heldGroup := by
  unfold FPort.accept; split <;> simp

end

/-! ### A flit that is accepted (R354) -/

section
variable {w : Wk} {p seq : Nat} {ctrl : Option Nat} {flit : List Byte}

/-- A port that carries flits trains, secures its link or is UP. -/
theorem FPort.carries {x : FPort} (hst : x.st ∈ [PortSt.training, .securing, .up]) :
    (¬ x.st = .training ∧ ¬ x.st = .securing ∧ ¬ x.st = .up) ↔ False := by
  simp only [List.mem_cons, List.not_mem_nil, or_false] at hst
  tauto

theorem flitGood_of (hlen : flit.length = 256) (hcrc : ofBytes (flit.drop 252) = crc32c (flit.take 252)) : flitGood flit = true := by
  simp [flitGood, hlen, hcrc]

theorem Dev.acceptFlit_accepts {d : Dev} (h : d.accepts p seq ctrl flit) :
    d.acceptFlit p seq ctrl flit = (d.setPort p (d.acceptedPort p flit), some (flitPayload flit)) := by
  obtain ⟨hport, hst, hlen, hcrc, hkind, hseq, hredo⟩ := h
  have hgood := flitGood_of hlen hcrc
  have hdata : ctrl.isNone = !bit (ofBytes (flit.take 2)) 15 := by
    rw [← hkind]
    cases hbit : bit (ofBytes (flit.take 2)) 15 <;> simp
  have hnew : ¬ ((d.fport p).redo ≠ 0 ∧ ctrl.isSome = true ∧ ctrl ≠ some 3) := by
    rintro ⟨hagain, hsome, hmac⟩
    rcases hredo with hredo | rfl | rfl
    · exact hagain hredo
    · cases hsome
    · exact hmac rfl
  rw [Dev.acceptFlit, if_neg hnew]
  simp only [FPort.carries hst, hport, hgood, hkind, hseq, hdata, ne_eq, not_true_eq_false, or_self, if_false]
  rfl

/-- An accepted flit has its effect on the port that has moved to the next number. -/
theorem Wk.onFlit_accepts (h : w.dev.accepts p seq ctrl flit) (f : Wk → List Byte → Wk) :
    w.onFlit p seq ctrl flit f = f (w.upd (·.setPort p (w.dev.acceptedPort p flit))) (flitPayload flit) := by
  simp only [Wk.onFlit, Dev.acceptFlit_accepts h]
  rfl

variable {x : FPort} (hx : w.dev.acceptedPort p flit = x)
include hx

section
variable (h : w.dev.accepts p seq none flit)
include h

theorem Wk.dataFlit_plain (hplain : x.keyed = false) :
    w.dataFlit p seq flit =
      ((w.upd (·.setPort p { x with stream := x.stream ++ flitPayload flit })).parsePort p).upd (·.drain p) := by
  rw [Wk.dataFlit, Wk.onFlit_accepts h, hx]
  simp [hplain]

theorem Wk.dataFlit_keyed (hkeyed : x.keyed = true) :
    w.dataFlit p seq flit =
      (w.upd (·.setPort p { x with heldGroup := x.heldGroup ++ [(seq, flit.take 2 ++ flitPayload flit)] })).upd (·.drain p) := by
  rw [Wk.dataFlit, Wk.onFlit_accepts h, hx]
  simp [hkeyed]

end

section
variable (h : w.dev.accepts p seq (some 3) flit) (hkeyed : x.keyed = true)
include h hkeyed

theorem Wk.macFlit_verifies (hheld : x.heldGroup ≠ []) (hnext : ofBytes ((flitPayload flit).take 8) = x.rxGroups) :
    w.macFlit p seq flit true = ((w.upd (·.setPort p x.groupGood)).parsePort p).upd (·.drain p) := by
  rw [Wk.macFlit, Wk.onFlit_accepts h, hx]
  simp [hkeyed, hheld, hnext]

theorem Wk.macFlit_fails {g : Nat × List Byte} {l : List (Nat × List Byte)} (hheld : x.heldGroup = g :: l) :
    w.macFlit p seq flit false = (w.upd fun d => (((d.setPort p
      { x with heldGroup := [], rxNum := g.1, redo := (x.rxNum + 65536 - g.1) % 65536, ackHeld := 0 }).count (portHalf p)
        Reg.FAB_TAG_FAIL_LO 1).count .west Reg.TOP_ERR_CORRECTED_LO 1).sendNak p).nakLimit p := by
  rw [Wk.macFlit, Wk.onFlit_accepts h, hx]
  simp [hkeyed, hheld, FPort.groupBad, Wk.upd]

end

theorem Wk.creditFlit_adds (h : w.dev.accepts p seq (some 5) flit) :
    w.creditFlit p seq flit = (w.upd (·.setPort p ((List.range 14).foldl
      (fun (x : FPort) i => x.addCredit i (ofBytes (((flitPayload flit).drop (2 * i)).take 2))) x))).upd (·.drain p) := by
  rw [Wk.creditFlit, Wk.onFlit_accepts h, hx]
  simp [Wk.upd]

/-- The INIT flit of a peer of this revision, where neither side encrypts, takes the port UP. -/
theorem Wk.initFlit_up (h : w.dev.accepts p seq (some 2) flit) (htraining : x.st = .training)
    (hrevision : ofBytes ((flitPayload flit).take 2) = w.dev.rn (portHalf p) Reg.FAB_REVISION)
    (hplain : ofBytes (((flitPayload flit).drop 8).take 1) % 2 = 0) (hopen : bit (w.dev.portCfg p) 29 = false) :
    w.initFlit p seq flit = (w.upd (·.setPort p
      { x with peerDev := ofBytes (((flitPayload flit).drop 2).take 4) % 2 ^ 18, peerPort := ofBytes (((flitPayload flit).drop 6).take 1),
               peerKind := ofBytes (((flitPayload flit).drop 7).take 1), peerEncrypt := false,
               credits := (List.range 14).map fun i => ofBytes (((flitPayload flit).drop (9 + 2 * i)).take 2), retrains := 0,
               again := false })).portTo p .up := by
  have hrev (y : FPort) : (w.dev.setPort p y).rn (portHalf p) Reg.FAB_REVISION = w.dev.rn (portHalf p) Reg.FAB_REVISION := rfl
  have hcfg (y : FPort) : (w.dev.setPort p y).portCfg p = w.dev.portCfg p := rfl
  rw [Wk.initFlit, Wk.onFlit_accepts h, hx]
  simp [htraining, hrevision, hplain, hopen, hrev, hcfg, Wk.upd]

section
variable (h : w.dev.accepts p seq (some 4) flit)
include h

/-- A TIME flit of a follower's upstream port with an echo gives the offset to the time source (R392). -/
theorem Wk.timeFlit_offset (hup : w.dev.timeCfg = (false, p)) (hecho : ofBytes (((flitPayload flit).drop 8).take 8) ≠ 0) :
    w.timeFlit p seq flit = w.upd fun d =>
      let t1 : Int := ofBytes (((flitPayload flit).drop 8).take 8)
      let t2 : Int := ofBytes (((flitPayload flit).drop 16).take 8)
      let t3 : Int := ofBytes ((flitPayload flit).take 8)
      let t4 : Int := d.time
      (d.setPort p { x with timeRecv := some (ofBytes ((flitPayload flit).take 8), d.time) }).takeOffset
        (t3 + ((t4 - t1) - (t3 - t2)) / 2 - t4) := by
  have hcfg (y : FPort) : (w.dev.setPort p y).timeCfg = w.dev.timeCfg := rfl
  have htime (y : FPort) : (w.dev.setPort p y).time = w.dev.time := rfl
  rw [Wk.timeFlit, Wk.onFlit_accepts h, hx]
  simp [hcfg, htime, hup, hecho, Wk.upd]

/-- On any other port that is UP it is answered. -/
theorem Wk.timeFlit_answered (hmaster : w.dev.timeCfg.1 = true) (hst : x.st = .up) :
    w.timeFlit p seq flit = w.upd fun d =>
      (d.setPort p { x with timeRecv := some (ofBytes ((flitPayload flit).take 8), d.time) }).sendTime p := by
  have hcfg (y : FPort) : (w.dev.setPort p y).timeCfg = w.dev.timeCfg := rfl
  have htime (y : FPort) : (w.dev.setPort p y).time = w.dev.time := rfl
  rw [Wk.timeFlit, Wk.onFlit_accepts h, hx]
  simp [hcfg, htime, hmaster, hst, Wk.upd]

end

end

/-- Settles O30: an accepted flit finds the port moved to the next number, and what its kind does with that port is one branch. That a
group's acknowledgements wait for its tag is the model's choice (assumption 36), and so is the slew of device time (assumption 24). -/
theorem flitsAreAccepted : Obligations.FlitsAreAccepted := by
  intro s port seq now flit w d x pl
  refine ⟨fun h hplain => ?plain, fun h hkeyed => ?keyed, fun h hkeyed hheld hnext => ?mac, fun h => ?credit,
    fun h htraining hrevision hplain hopen => ?init, fun h => ⟨fun hup hecho => ?offset, fun hmaster hst => ?answered⟩⟩
  case plain => exact congrArg (finish s) (Wk.dataFlit_plain (w := w) rfl h hplain)
  case keyed => exact congrArg (finish s) (Wk.dataFlit_keyed (w := w) rfl h hkeyed)
  case mac => exact congrArg (finish s) (Wk.macFlit_verifies (w := w) rfl h hkeyed hheld hnext)
  case credit => exact congrArg (finish s) (Wk.creditFlit_adds (w := w) rfl h)
  case init => exact congrArg (finish s) (Wk.initFlit_up (w := w) rfl h htraining hrevision hplain hopen)
  case offset => exact congrArg (finish s) (Wk.timeFlit_offset (w := w) rfl h hup hecho)
  case answered => exact congrArg (finish s) (Wk.timeFlit_answered (w := w) rfl h hmaster hst)

/-! ### A flit that is not (R354, R355) -/

section
variable {w : Wk} {p seq : Nat} {flit : List Byte} {x : FPort} (hx : w.dev.fport p = x) (hport : w.dev.portExists p = true)
  (hst : x.st ∈ [PortSt.training, .securing, .up])
include hx hport hst

/-- A damaged flit is counted and asked for again, on a port that is not discarding already. -/
theorem Wk.onFlit_damaged (hcrc : ¬ ofBytes (flit.drop 252) = crc32c (flit.take 252)) (hasked : x.discarding = false) (ctrl : Option Nat)
    (f : Wk → List Byte → Wk) :
    w.onFlit p seq ctrl flit f = (w.upd fun d =>
      ((d.count (portHalf p) Reg.FAB_FLIT_CRC_ERR_LO 1).count .west Reg.TOP_ERR_CORRECTED_LO 1).sendNak p).nakLimit p := by
  have hbad : ¬ flitGood flit = true := by simp [flitGood, hcrc]
  simp only [Wk.onFlit, Dev.acceptFlit, hx, hport, FPort.carries hst, hbad, hasked, ne_eq, Bool.false_eq_true, not_true_eq_false, or_self,
    false_and, not_false_eq_true, if_true, if_false]
  exact congrArg (·.nakLimit p) (w.upd_const fun d =>
    ((d.count (portHalf p) Reg.FAB_FLIT_CRC_ERR_LO 1).count .west Reg.TOP_ERR_CORRECTED_LO 1).sendNak p)

section
variable (hlen : flit.length = 256) (hcrc : ofBytes (flit.drop 252) = crc32c (flit.take 252))
include hlen hcrc

/-- So is a sound data flit of another number than the next. -/
theorem Wk.onFlit_misnumbered (hdata : bit (ofBytes (flit.take 2)) 15 = false) (hasked : x.discarding = false) (hseq : seq ≠ x.rxNum)
    (f : Wk → List Byte → Wk) : w.onFlit p seq none flit f = (w.upd (·.sendNak p)).nakLimit p := by
  simp only [Wk.onFlit, Dev.acceptFlit, hx, hport, FPort.carries hst, flitGood_of hlen hcrc, hdata, hasked, hseq, ne_eq, Bool.false_eq_true,
    not_true_eq_false, or_self, not_false_eq_true, if_true, if_false]
  exact congrArg (·.nakLimit p) (w.upd_const (·.sendNak p))

variable {num : Nat} {y : FPort} (hnak : ofBytes (flit.take 2) / 2 ^ 8 = 0x81) (hnum : ofBytes ((flit.drop 2).take 2) = num)
  (hy : x.takeHdr (ofBytes (flit.take 2)) = y)
include hnak hnum hy

theorem Wk.nakFlit_resends {again : List _} (hagain : y.replay.dropWhile (fun f => ¬ f.num = num) = again) (hheld : again ≠ [])
    (hfew : y.nakNum ≠ num ∨ y.nakCount < 15) :
    w.nakFlit p flit = w.upd fun d => again.foldl (fun d f => (d.count (portHalf p) Reg.FAB_FLITS_TX_LO 1).emit (.flit p f.bytes))
      ((d.setPort p { y with nakNum := num, nakCount := if y.nakNum = num ∧ y.nakCount > 0 then y.nakCount + 1 else 1 }).count (portHalf p)
        Reg.FAB_REPLAYS_LO 1) := by
  have hcount : ¬ (if y.nakNum = num ∧ y.nakCount > 0 then y.nakCount + 1 else 1) ≥ 16 := by
    split <;> omega
  have hsome : ¬ again.isEmpty = true := by simpa using hheld
  simp only [Wk.nakFlit, hx, hport, FPort.carries hst, flitGood_of hlen hcrc, hnak, hy, hnum, hagain, if_neg hcount, if_neg hsome, ne_eq,
    not_true_eq_false, or_self, if_false]
  rfl

/-- The 16th NAK of one flit retrains the port. -/
theorem Wk.nakFlit_retrains (hsame : y.nakNum = num) (hmany : 15 ≤ y.nakCount) (hheld : (y.replay.any fun f => f.num == num) = true) :
    w.nakFlit p flit = (w.upd (·.setPort p { y with nakNum := num, nakCount := y.nakCount + 1 })).portTo p .retraining := by
  have hcount : y.nakNum = num ∧ y.nakCount > 0 := ⟨hsame, by omega⟩
  have hlimit : y.nakCount + 1 ≥ 16 := by omega
  have hsome : ¬ (y.replay.dropWhile fun f => ¬ f.num = num).isEmpty = true := by
    simpa [List.dropWhile_eq_nil_iff] using hheld
  simp only [Wk.nakFlit, hx, hport, FPort.carries hst, flitGood_of hlen hcrc, hnak, hy, hnum, if_pos hcount, if_pos hlimit, if_neg hsome, ne_eq,
    not_true_eq_false, or_self, if_false]

end

end

/-- Settles O31: a flit that fails its CRC, its number or its group's tag leaves through the one NAK, and a NAK through what stands in
the replay buffer from its flit on. -/
theorem damagedFlitsAreAskedForAgain : Obligations.DamagedFlitsAreAskedForAgain := by
  intro s port seq now flit w d x sound hport hst hlen
  refine ⟨fun hasked hcrc => ?damaged, fun hasked hcrc hdata hseq => ?misnumbered, fun hcrc hnak => ?resends, fun hcrc hnak => ?retrains,
    fun g l h hkeyed hheld => ?tag⟩
  case damaged => exact congrArg (finish s) (Wk.onFlit_damaged (w := w) rfl hport hst hcrc hasked none _)
  case misnumbered => exact congrArg (finish s) (Wk.onFlit_misnumbered (w := w) rfl hport hst hlen hcrc hdata hasked hseq _)
  case resends =>
    intro num y again hfew hheld
    exact congrArg (finish s) (Wk.nakFlit_resends (w := w) rfl hport hst hlen hcrc hnak rfl rfl rfl hheld hfew)
  case retrains =>
    intro num y hsame hmany hheld
    exact congrArg (finish s) (Wk.nakFlit_retrains (w := w) rfl hport hst hlen hcrc hnak rfl rfl hsame hmany hheld)
  case tag =>
    intro y
    have hkeyed' : y.keyed = true := (FPort.accept_keyed ..).trans hkeyed
    have hheld' : y.heldGroup = g :: l := (FPort.accept_heldGroup ..).trans hheld
    exact congrArg (finish s) (Wk.macFlit_fails (w := w) rfl h hkeyed' hheld')

/-! ### Training, link failure, the NULL word and the time exchange (R350, R353, R359, R375, R392) -/

/-- A port whose training has ended: flits are numbered from 0, and what its replay buffer held is queued again (R354). -/
def FPort.trained (x : FPort) : FPort :=
  { x with txNum := 0, rxNum := 0, owed := 0, nakNum := 0, nakCount := 0, nakOut := 0, nakName := 0, txGroup := 0, txGroups := 0,
           txOpen := [], rxGroups := 0, discarding := false, ackOwed := 0, ackHeld := 0, redo := 0, stream := [], heldGroup := [],
           queue := x.replay.flatMap (·.ends) ++ x.queue, replay := [], freed := List.replicate 14 0,
           deficit := List.replicate 5 0, turn := 1, mgmtDebt := 0 }

section
variable {w : Wk} {p : Nat} {x : FPort} (hx : w.dev.fport p = x)
include hx

theorem Wk.trainStart_trains (hport : w.dev.portExists p = true) (hst : x.st ∈ [PortSt.down, .retraining]) :
    w.trainStart p = (w.upd (·.setPort p { x with again := decide (x.st = .retraining) })).portTo p .training := by
  simp only [List.mem_cons, List.not_mem_nil, or_false] at hst
  simp only [Wk.trainStart, hx, hport, hst, not_true_eq_false, or_self, if_false]

theorem Wk.trainEnd_trained (htraining : x.st = .training) :
    w.trainEnd p true = w.upd fun d => (d.setPort p x.trained).sendFlit p (some 2) ((d.setPort p x.trained).initPayload p) [] := by
  simp only [Wk.trainEnd, hx, htraining, ne_eq, not_true_eq_false, if_false, if_true, FPort.trained]

/-- A training that fails: a first one leaves the port DOWN, the third retrain in a row FAILED. -/
theorem Wk.trainEnd_fails (htraining : x.st = .training) :
    w.trainEnd p false = if x.again = true then
      (w.upd (·.setPort p { x with retrains := x.retrains + 1 })).portTo p (if x.retrains ≥ 2 then .failed else .retraining)
      else w.portTo p .down := by
  have hthird : x.retrains + 1 ≥ 3 ↔ x.retrains ≥ 2 := by omega
  cases hagain : x.again <;> simp [Wk.trainEnd, hx, htraining, hagain, hthird]

theorem Wk.linkDown_falls (hport : w.dev.portExists p = true) (hst : x.st ∈ [PortSt.up, .securing, .training, .retraining]) :
    w.linkDown p = (w.portTo p .down).upd (·.setPort p { FPort.cold with upAt := x.upAt, arrived := x.arrived, refused := x.refused }) := by
  simp only [List.mem_cons, List.not_mem_nil, or_false] at hst
  simp only [Wk.linkDown, hx, hport, hst, not_true_eq_false, or_self, if_false]

/-- A NULL word of a stream is passed over. -/
theorem Wk.parsePort_null (hnull : x.stream = List.replicate 4 0) : w.parsePort p = w.upd (·.setPort p { x with stream := [] }) := by
  have hparse : parseAll ((List.replicate 4 (0 : Byte)).length + 1) (List.replicate 4 0) [] = ([], [], false) := by decide
  simp only [Wk.parsePort, hx, hnull, hparse]
  simp

end

/-- Settles O32: each event's test holds of its port, and its effect is the branch that the test guards. -/
theorem portsTrainAndFall : Obligations.PortsTrainAndFall := by
  intro s port now w d x
  refine ⟨fun hport hst => ?start, fun htraining => ?ends, fun htraining hagain => ?first, fun htraining hagain => ?retrain,
    fun hport hst => ?down, fun hnull => ?null, fun hup hst => ?time⟩
  case start => exact congrArg (finish s) (Wk.trainStart_trains (w := w) rfl hport hst)
  case ends =>
    intro y v
    exact (congrArg (finish s) (Wk.trainEnd_trained (w := w) rfl htraining)).trans
      (finish_start_upd s now fun d => (d.setPort port y).sendFlit port (some 2) ((d.setPort port y).initPayload port) [])
  case first => exact congrArg (finish s) ((Wk.trainEnd_fails (w := w) rfl htraining).trans (if_neg (Bool.eq_false_iff.1 hagain)))
  case retrain => exact congrArg (finish s) ((Wk.trainEnd_fails (w := w) rfl htraining).trans (if_pos hagain))
  case down => exact congrArg (finish s) (Wk.linkDown_falls (w := w) rfl hport hst)
  case null => exact congrArg (finish s) (Wk.parsePort_null (w := w) rfl hnull)
  case time =>
    have hsends : ¬ d.timeCfg.1 = true ∧ (d.fport d.timeCfg.2).st = .up := by simpa [hup] using hst
    refine onDev_devAt (fun d => if ¬ d.timeCfg.1 = true ∧ (d.fport d.timeCfg.2).st = .up then d.sendTime d.timeCfg.2 else d) ?_
    exact (if_pos hsends).trans (by rw [hup])

end Sys2Proof.Machine
end

section
/-! PROOFS. MCTP control and SPDM sessions (R355, R510, R521, R522, R525). -/

namespace Sys2Proof.Machine

open Sys2Proof

/-! ### MCTP control (R510) -/

section
variable {s : State} {h : Half} {path : MgmtPath} {now : Nat} (hpath : path ≠ .mailbox) (hserves : (s.devAt now).scServes h = true)
  (hup : (s.devAt now).pathUp h path = true) (hlife : (s.devAt now).top.lifecycle ≠ .decommissioned)
include hpath hserves hup hlife

/-- A control request that reaches a serving endpoint is answered. -/
theorem onControl_answers (f : Dev → Dev) : onControl h path now s f = .next (s.withDev (f (s.devAt now))) := by
  refine onDev_devAt (fun d => if path = .mailbox ∨ ¬ d.scServes h = true ∨ ¬ d.pathUp h path = true ∨ d.top.lifecycle = .decommissioned
    then d else f d) ?_
  simp only [hpath, hserves, hup, hlife, not_true_eq_false, or_self, if_false]

end

@[simp] theorem Both.get_set {α : Type} (b : Both α) (h : Half) (x : α) : (b.set h x).get h = x := by cases h <;> rfl

section
variable (d : Dev) (h : Half) (path : MgmtPath)

/-- The device with an endpoint ID of a path. -/
def Dev.setEid (eid : Nat) : Dev :=
  d.onTop fun t =>
    let x := t.i3c.get h
    { t with i3c := t.i3c.set h (if path = .i3c then { x with eid := some eid } else { x with pcieEid := some eid }) }

theorem Dev.eidOf_setEid (eid : Nat) : (d.setEid h path eid).eidOf h path = eid := by
  by_cases hpath : path = .i3c <;> simp [Dev.setEid, Dev.eidOf, hpath]

theorem Dev.eidOf_ibi (b : Nat) : (d.ibi h b).eidOf h path = d.eidOf h path := by
  by_cases hevents : (d.top.i3c.get h).events = true <;> simp [Dev.ibi, Dev.eidOf, hevents]

/-- An answer, which waits for the BMC or goes out, leaves the endpoint's ID alone. -/
theorem Dev.eidOf_control (hpath : path ≠ .mailbox) (code cc : Nat) (body : List Byte) :
    (d.control h path code cc body).eidOf h path = d.eidOf h path := by
  cases path with
  | mailbox => exact absurd rfl hpath
  | pcie => rfl
  | i3c => exact (Dev.eidOf_ibi ..).trans (by simp [Dev.eidOf])

end

/-! ### SPDM sessions (R355, R521, R522, R525) -/

section
variable {w : Wk} {h : Half} (hserves : w.dev.scServes h = true) (hlife : w.dev.top.lifecycle ≠ .decommissioned) (officer : Bool)
include hserves hlife

theorem Wk.keyExchange_mgmt (hroom : (w.dev.top.sessions.countP fun x => x.half = h ∧ x.use = .mgmt) < 4) :
    w.keyExchange h .mgmt true officer =
      w.upd fun d => d.addSession h .mgmt (if officer && w.dev.top.ownerHash.isSome then .officer else .operator) := by
  simp only [Wk.keyExchange, hserves, hlife, if_neg (not_le.2 hroom), Bool.not_true, Bool.false_eq_true, not_true_eq_false, or_self, if_false]

theorem Wk.keyExchange_link {p : Nat} (hhalf : portHalf p = h) (hst : (w.dev.fport p).st = .securing) :
    w.keyExchange h (.link p) true officer =
      (w.upd fun d => (d.addSession h (.link p) .operator).setPort p (w.dev.fport p).keyOn).portTo p .up := by
  simp only [Wk.keyExchange, hserves, hlife, hhalf, hst, Bool.not_true, Bool.false_eq_true, not_true_eq_false, ne_eq, or_self, if_false]

theorem Wk.keyExchange_ide (hlink : (w.dev.host.ports.get h).speed ≠ 0) :
    w.keyExchange h .ide true officer =
      w.upd fun d => (d.addSession h .ide .operator).onPort h fun p => { p with ide := true, ideStopped := false } := by
  simp only [Wk.keyExchange, hserves, hlife, if_neg hlink, Bool.not_true, Bool.false_eq_true, not_true_eq_false, or_self, if_false]

end

theorem Wk.sessionEnd_mgmt {w : Wk} {id : Nat} {x : Session} (hx : w.dev.top.sessions.find? (fun x => x.id = id) = some x)
    (huse : x.use = .mgmt) : w.sessionEnd id = w.upd (·.onTop fun t => { t with sessions := t.sessions.filter fun y => y.id ≠ id }) := by
  simp only [Wk.sessionEnd, hx, huse]

/-- Settles O58: a control request passes the one test of its endpoint (that its answer is laid out as here is assumption 13), and a
session's command the tests of its use (four management sessions for an SC at most is R523's limit). -/
theorem mctpAndSessions : Obligations.MctpAndSessions := by
  intro s h path now w d
  refine ⟨fun hpath hserves hup hlife => ?control, fun hserves hlife => ⟨fun officer hroom => ?mgmt, fun p officer hhalf hst => ?link,
    fun officer hlink => ?ide⟩, fun id => ?update, fun id x hx huse => ?ends⟩
  case control =>
    have hanswers := onControl_answers hpath hserves hup hlife
    refine ⟨fun eid hlo hhi => ?set, hanswers fun d => d.control h path 2 0 (toBytes 1 (d.eidOf h path) ++ [0, 0]),
      hanswers fun d => d.control h path 3 0 (toBytes 16 (Config.uuid h (path == .pcie))),
      hanswers fun d => d.control h path 4 0 ([1] ++ toBytes 4 Config.mctpVersion.toNat),
      hanswers fun d => d.control h path 5 0 [4, 0x00, 0x05, 0x06, 0x7E]⟩
    have hordinary : ¬ (eid = 0 ∨ 255 ≤ eid) := by omega
    let answer (d : Dev) : Dev := (d.setEid h path eid).control h path 1 0 (toBytes 1 0 ++ toBytes 1 eid ++ toBytes 1 0)
    have hset : exec (.setEndpointId h path eid now) s = .next (s.withDev (answer d)) :=
      (hanswers fun d => if eid = 0 ∨ 255 ≤ eid then d.control h path 1 2 [] else answer d).trans (by rw [if_neg hordinary])
    exact ⟨_, hset, (Dev.eidOf_control _ h path hpath _ _ _).trans (d.eidOf_setEid h path eid)⟩
  case mgmt =>
    exact (congrArg (finish s) (Wk.keyExchange_mgmt (w := w) hserves hlife officer hroom)).trans (finish_start_upd s now _)
  case link => exact congrArg (finish s) (Wk.keyExchange_link (w := w) hserves hlife officer hhalf hst)
  case ide =>
    exact (congrArg (finish s) (Wk.keyExchange_ide (w := w) hserves hlife officer hlink)).trans (finish_start_upd s now _)
  case update =>
    exact onDev_devAt (·.onTop fun t =>
      { t with sessions := t.sessions.map fun x => if x.id = id then { x with updates := x.updates + 1 } else x }) rfl
  case ends => exact (congrArg (finish s) (Wk.sessionEnd_mgmt (w := w) hx huse)).trans (finish_start_upd s now _)

end Sys2Proof.Machine
end

section
/-! PROOFS. The fabric's own nodes at dispatch: ASYNC_COPY_REMOTE, INVALIDATE, OWN_TRANSFER and FENCE (R370, R378 to R381, R385, R386). -/

namespace Sys2Proof.Machine

open Sys2Proof

/-! ### What an opcode's own work does with operands that pass its checks -/

section
variable {w : Wk} {i j : Nat} {x : Inst} {nb : List Byte}

/-- An asynchronous copy between a range that the job may use and a device in reach holds its transfer and probes the region. -/
theorem Wk.runAsync_holds {put : Bool} {l r n c dev : Nat} (hl : fld nb 0x20 8 = l) (hr : fld nb 0x28 8 = r) (hn : fld nb 0x30 8 = n)
    (hc : fld nb 0x38 8 = c) (hput : bit (fld nb 0x40 4) 18 = put) (hdev : bits (fld nb 0x40 4) 0 18 = dev) (hok : w.dev.asyncOk nb = true)
    (hrange : w.dev.checkRange x.job l n (!put) = 0) (hcounter : put = false → c ≠ 0 → w.dev.checkRange x.job c 8 true = 0)
    (hsound : put = true → w.dev.poisoned l n = false) (hreach : w.dev.reachable dev = true) :
    w.runAsync i j x nb = w.upd fun d =>
      ((d.onNode i j fun k => { k with
          log := [(0, if put then .put dev (regionId r) (regionOff r) l n c else .get dev (regionId r) (regionOff r) l n c)],
          eng := .complete }).probe d.leadHalf i j x.job dev (regionId r) (regionOff r)
        (if put then probeRights false true (c != 0) else probeRights true false false) 0) := by
  have hcheck : (if ¬ put = true ∧ ¬ c = 0 then w.dev.checkRange x.job c 8 true else 0) = 0 := by
    split
    next hget => exact hcounter (Bool.eq_false_iff.2 hget.1) hget.2
    next => rfl
  have hclean : ¬ (put = true ∧ w.dev.poisoned l n = true) := fun ⟨hput, hbad⟩ => Bool.eq_false_iff.1 (hsound hput) hbad
  simp only [Wk.runAsync, hok, hl, hr, hn, hc, hput, hdev, hrange, hreach, ne_eq, not_true_eq_false, false_and, if_false,
    true_and, hcheck, if_neg hclean]

/-- An INVALIDATE of a region of this device, or of a home device in reach of no gateway, is held until the job's writes are acknowledged. -/
theorem Wk.runInvalidate_holds {own : Bool} {home region : Nat} (hhome : fld nb 0x20 4 = home) (hregion : fld nb 0x24 4 = region)
    (hhomeId : home < 2 ^ 18) (hregionId : region < 2 ^ 18)
    (hrest : if own then fld nb 0x28 4 < 2 ^ 18 ∧ zeroFrom nb 0x2C = true else zeroFrom nb 0x28 = true)
    (hplace : if home = w.dev.me then (w.dev.regionOf x.job region).isSome = true else w.dev.level home ≠ 3) :
    w.runInvalidate i j x own nb = (w.upd fun d => d.onNode i j fun k =>
      { k with log := [(0, .invalidate home region (if own then some (fld nb 0x28 4) else none))] }).invalidateCheck := by
  have hok : (decide (home < 2 ^ 18) && decide (region < 2 ^ 18) &&
      (if own = true then decide (fld nb 0x28 4 < 2 ^ 18) && zeroFrom nb 0x2C else zeroFrom nb 0x28)) = true := by
    rw [decide_eq_true hhomeId, decide_eq_true hregionId, Bool.and_self, Bool.true_and]
    cases own <;> simpa using hrest
  have hhere : ¬ (home = w.dev.me ∧ ¬ (w.dev.regionOf x.job region).isSome = true) := by
    rintro ⟨hme, hnone⟩
    exact hnone (by simpa [hme] using hplace)
  have hnear : ¬ (home ≠ w.dev.me ∧ w.dev.level home = 3) := by
    rintro ⟨haway, hfar⟩
    rw [if_neg haway] at hplace
    exact hplace hfar
  simp only [Wk.runInvalidate, hhome, hregion, hok, hhere, hnear, not_true_eq_false, or_self, if_false]

/-- A FENCE whose destinations can be reached waits, and each that owes it an acknowledgement is sent its own. -/
theorem Wk.runFence_asks {c scope : Nat} {dests : List Nat} (hc : fld nb 0x20 4 = c) (hscope : (if bit c 31 then c % 2 ^ 18 else 2 ^ 18) = scope)
    (hdests : (w.dev.fab.dests.filter fun e => (bit c 31 = false ∨ e.1 = scope) ∧ e.2.owes fun t f => t.covered f x.job).map (·.1) = dests)
    (hbits : bits c 18 13 = 0) (hrest : zeroFrom nb 0x24 = true) (hone : bit c 31 = true → w.dev.reachable scope = true)
    (hall : ∀ e ∈ dests, w.dev.reachable e = true) :
    w.runFence i j x nb = (dests.foldl (fun w e => w.upd fun d => (d.setDest e ((d.dest e).addFence i j x.job)).pump e)
      (w.upd fun d => d.onNode i j fun k => { k with eng := .fencing [(scope, 0)] })).fenceCheck := by
  have hreach : ¬ (bit c 31 = true ∧ w.dev.reachable scope = false ∨ (dests.any fun e => decide (w.dev.reachable e = false)) = true) := by
    rintro (⟨hset, hnot⟩ | hany)
    · exact Bool.eq_false_iff.1 hnot (hone hset)
    · obtain ⟨e, he, hnot⟩ := List.any_eq_true.1 hany
      exact Bool.eq_false_iff.1 (of_decide_eq_true hnot) (hall e he)
  simp only [Wk.runFence, hc, hbits, hrest, ne_eq, not_true_eq_false, or_self, if_false, hscope, Bool.not_eq_true, hdests]
  exact if_neg hreach

end

/-- Settles O21: each node passes the checks of its operands, and holds its request or sends its FENCEs. -/
theorem fabricNodesDispatch : Obligations.FabricNodesDispatch := by
  intro s i j now w x m nb
  refine ⟨?async, fun cc op own hcc => ?invalidate, ?fence⟩
  case async =>
    intro l r n c put dev h hok hrange hcounter hsound hreach
    refine (dispatch_of h noNull (fun w x _ nb => w.runAsync i j x nb) false).trans ?_
    rw [Wk.runAsync_holds rfl rfl rfl rfl rfl rfl hok hrange hcounter hsound hreach]
  case invalidate =>
    intro home region h hhomeId hregionId hrest hplace
    have hruns : exec cc s = .next (s.dispatchLeaves (w.runInvalidate i j x own nb)) := by
      simp only [List.mem_cons, Prod.mk.injEq, List.not_mem_nil, or_false] at hcc
      rcases hcc with ⟨rfl, rfl, rfl⟩ | ⟨rfl, rfl, rfl⟩
      · exact dispatch_of h noNull (fun w x _ nb => w.runInvalidate i j x false nb) false
      · exact dispatch_of h noNull (fun w x _ nb => w.runInvalidate i j x true nb) false
    rw [hruns, Wk.runInvalidate_holds rfl rfl hhomeId hregionId hrest hplace]
  case fence =>
    intro c scope dests ask h hbits hrest hone hall
    refine (dispatch_of h noNull (fun w x _ nb => w.runFence i j x nb) false).trans ?_
    rw [Wk.runFence_asks rfl rfl rfl hbits hrest hone hall]
    rfl

end Sys2Proof.Machine
end

section
/-! PROOFS. The timers of the fabric and of the collectives (R364, R365, R373, R375, R382, R399, R419, R420). -/

namespace Sys2Proof.Machine

open Sys2Proof

/-! ### The fabric's timers (R364, R365, R373, R375, R382) -/

section
variable {d : Dev} {n slot : Nat}

theorem Dev.coalesce_sends {x : Win} (hx : d.win n = some x) :
    d.coalesce n = (x.runs.filter fun r => r.at_ + 1000 ≤ d.time).foldl (fun d r => d.sendRun n r)
      (d.setWin n { x with runs := x.runs.filter fun r => ¬ r.at_ + 1000 ≤ d.time }) := by
  simp only [Dev.coalesce, hx]

/-- A slot on which a request has waited PATH_US dies. -/
theorem Dev.pathTimeout_kills {h : HeldReq} (hh : h ∈ (d.dest n).held) (hslot : h.slot = some slot) (hlate : h.at_ + d.pathNs ≤ d.time) :
    d.pathTimeout n slot = d.killSlot n slot :=
  if_pos (.inl (List.any_eq_true.2 ⟨h, hh, by simp [hslot, hlate]⟩))

theorem Dev.slotRevive_revives {e : Nat × Nat} (he : (d.dest n).dead.find? (fun e => e.1 = slot) = some e)
    (hup : (d.fport (d.slotPort n slot)).st = .up) (hlong : max (d.fport (d.slotPort n slot)).upAt e.2 + 1000000 ≤ d.time) :
    d.slotRevive n slot = (d.setDest n { d.dest n with dead := (d.dest n).dead.filter fun g => g.1 ≠ slot }).pump n := by
  simp only [Dev.slotRevive, he, hup, hlong, and_self, if_true]

theorem Dev.windowExpiry_drops {x : Win} (hx : d.win n = some x) (hlong : x.lastAt + max 10000000 (d.reachNs + d.pathNs + 1000000) ≤ d.time) :
    d.windowExpiry n = d.onFab fun f => { f with wins := adel f.wins n } := by
  simp only [Dev.windowExpiry, hx, if_pos hlong]

end

/-! ### The collectives' timers (R399, R419, R420) -/

section
variable {w : Wk} {k : Nat} {g : Group64} {o : CeOp} (hg : w.dev.group k = some g)
include hg

/-- An operation that has heard nothing for COLL_MS ends with the first member that it awaits. -/
theorem Wk.collTimeout_ends (ho : w.dev.opOf k = some o) (hopen : o.verified = false) (hexch : o.exch = false)
    (hlong : o.heard + 1000000 * w.dev.rn w.dev.leadHalf Reg.CE_TIMEOUT ≤ w.dev.time) {m : Nat}
    (hm : ((o.sources g ++ g.children g.me ++ (if g.me = 0 then [] else [(g.me - 1) / g.fan])).head?).getD 0 = m) :
    w.collTimeout k = (if o.left then w else w.memberLost o m).ceEnd o.id stMemberLost m := by
  have hdue : ¬ (o.verified = true ∨ w.dev.time < o.heard + 1000000 * w.dev.rn w.dev.leadHalf Reg.CE_TIMEOUT) := by
    simp [hopen, hlong]
  simp only [Wk.collTimeout, ho, hg, if_neg hdue, hexch, Bool.false_eq_true, if_false, hm]
  split <;> rfl

/-- The one frame that is due goes again, if it still bears the group's EPOCH and its device can be reached. -/
theorem Wk.epochRetry_sends {r : CeRetry} (hr : w.dev.ce.retries = [r]) (hgroup : r.group = k) (hdue : r.due ≤ w.dev.time)
    (ho : w.dev.op r.op = some o) (hepoch : fld r.data 0 4 = g.epoch) (hreach : w.dev.reachable r.dest = true) :
    w.epochRetry k = w.upd fun d =>
      let d := d.onCe fun c => { c with retries := [] }
      ((d.holdReq (d.msgTxn g r.dest r.tc r.data) (.engine o.half)).count o.half Reg.CE_EPOCH_RETRY_LO 1).count o.half
        Reg.CE_BYTES_SENT_LO r.data.length := by
  have hmine : (w.dev.ce.retries.filter fun r => r.group = k ∧ r.due ≤ w.dev.time) = [r] := by simp [hr, hgroup, hdue]
  have hrest : (w.dev.ce.retries.filter fun r => ¬ (r.group = k ∧ r.due ≤ w.dev.time)) = [] := by simp [hr, hgroup, hdue]
  have htaken : (w.upd fun d => d.onCe fun c => { c with retries := c.retries.filter fun r => ¬ (r.group = k ∧ r.due ≤ d.time) }) =
      w.upd fun d => d.onCe fun c => { c with retries := [] } :=
    congrArg (fun l => { w with dev := w.dev.onCe fun c => { c with retries := l } }) hrest
  have ho' : (w.upd fun d => d.onCe fun c => { c with retries := [] }).dev.op r.op = some o := ho
  have hreach' : (w.upd fun d => d.onCe fun c => { c with retries := [] }).dev.reachable r.dest = true := hreach
  simp only [Wk.epochRetry, hg, hmine, htaken, List.foldl_cons, List.foldl_nil, ho', hepoch, hreach', ne_eq, not_true_eq_false, or_self, if_false]
  rfl

end

/-- Settles O33: a timer's event finds its time come, and acts. That the first member awaited is reported and the operation ends
MEMBER_LOST, without a report once its member has left it, is the model's choice (assumption 49); so is the later of UP and death as the
start of a slot's 1 ms (assumption 37). -/
theorem fabricAndCollectiveTimers : Obligations.FabricAndCollectiveTimers := by
  refine ⟨fun s n slot now => ?fabric, fun s k now g => ?collectives⟩
  case fabric =>
    intro d z
    exact ⟨fun x hx => onDev_devAt (·.coalesce n) (Dev.coalesce_sends hx),
      fun h hh hslot hlate => onDev_devAt (·.pathTimeout n slot) (Dev.pathTimeout_kills hh hslot hlate),
      fun e he hup hlong => onDev_devAt (·.slotRevive n slot) (Dev.slotRevive_revives he hup hlong),
      fun x hx hlong => onDev_devAt (·.windowExpiry n) (Dev.windowExpiry_drops hx hlong)⟩
  case collectives =>
    intro w d hg
    refine ⟨fun o ho hopen hexch hlong => ?timeout, fun r o hr hgroup hdue ho hepoch hreach => ?retry⟩
    case timeout => exact congrArg (finish s) (Wk.collTimeout_ends (w := w) hg ho hopen hexch hlong rfl)
    case retry =>
      exact (congrArg (finish s) (Wk.epochRetry_sends (w := w) hg hr hgroup hdue ho hepoch hreach)).trans (finish_start_upd s now _)

end Sys2Proof.Machine
end

section
/-! PROOFS. The memories at reset (assumption 3), and the I3C and JTAG ports (R491, R499, R509, R542). -/

namespace Sys2Proof.Machine

open Sys2Proof

/-- Settles O4: State.reset lists no byte, and the empty list is canonical. That unwritten memory reads as 0 and that commands wait in a
queue are the model's choice (assumptions 3 and 6), as is the state a reset leaves (assumption 1). -/
theorem resetMemoriesCanonical : Obligations.ResetMemoriesCanonical := ⟨⟨rfl, rfl⟩, rfl, rfl, rfl⟩

/-! ### The I3C target of a half (R509) -/

section
variable {s : State} {h : Half} (hreset : s.dev.top.resetN = true)
include hreset

/-- Out of reset, a command that sets changes its half's target alone. -/
theorem onI3c_sets (f : I3c → I3c) {y : I3c} (hy : f (s.dev.top.i3c.get h) = y) :
    onI3c h s f = .next (s.withDev (s.dev.onTop fun t => { t with i3c := t.i3c.set h y })) := by
  simp only [onI3c, onDev_eq, hreset, if_true, ← hy]
  rfl

/-- Out of reset, a target that has its address answers a read. -/
theorem i3cRead_answers (haddr : (s.dev.top.i3c.get h).addr.isSome = true) (f : I3c → List Byte) :
    i3cRead h s f = .next (s.withDev { s.dev with resp := .bytes (f (s.dev.top.i3c.get h)) }) := by
  simp only [i3cRead, onDev_eq, hreset, haddr, and_self, if_true]
  rfl

end

/-! ### The JTAG instruction register (R542) -/

/-- Loading a code of the register's eight bits changes the register alone. -/
theorem Dev.loadIr_code {code : Nat} (hcode : code < 256) (d : Dev) :
    d.loadIr code = d.onTop fun t => { t with jtag := { t.jtag with ir := code } } := by
  simp only [Dev.loadIr, Nat.mod_eq_of_lt hcode]

/-- EXTEST in the register drives the outputs exactly while RESET_N is asserted. -/
theorem Dev.boundaryDrives_extest (d : Dev) : (d.loadIr 0).boundaryDrives = true ↔ d.top.resetN = false := by
  cases hreset : d.top.resetN <;> simp [Dev.boundaryDrives, Dev.jtagActs, Dev.loadIr, hreset]

/-- Settles O59: an I3C command meets the test of RESET_N (and a read that of the address), and a JTAG instruction loads its code. What
RSTACT and TRST_N select, the bits of ENEC and DISEC and the limits of 256 are the model's (assumptions 9 and 22), as are the orders of
bits and bytes (assumption 13). -/
theorem i3cAndJtagCommands : Obligations.I3cAndJtagCommands := by
  intro s h x i3c ir
  refine ⟨fun hreset => ?target, ?loads, rfl, fun cells => rfl, fun code hlo hhi => ?private_, ?extest⟩
  case target =>
    refine ⟨fun a haddr => ?entdaa, fun a haddr => ?setdasa, onI3c_sets hreset (fun x => { x with addr := none }) rfl,
      onI3c_sets hreset (fun x => if bit 1 0 then { x with events := true } else x) rfl,
      onI3c_sets hreset (fun x => if bit 1 0 then { x with events := false } else x) rfl,
      fun n => onI3c_sets hreset (fun x => { x with mrl := min n 256 }) rfl,
      fun n => onI3c_sets hreset (fun x => { x with mwl := min n 256 }) rfl,
      onI3c_sets hreset (fun x => { x with addr := none, events := true, mrl := 256, mwl := 256, ibi := [] }) rfl,
      fun haddr c bs hc => ?reads⟩
    case entdaa =>
      have hfree : x.addr.isNone = true := Option.isNone_iff_eq_none.2 haddr
      exact onI3c_sets hreset (fun x => if x.addr.isNone then { x with addr := some (a % 128) } else x) (if_pos hfree)
    case setdasa =>
      have hfree : i3cStatic h = i3cStatic h ∧ x.addr.isNone = true := ⟨rfl, Option.isNone_iff_eq_none.2 haddr⟩
      exact onI3c_sets hreset (fun x => if i3cStatic h = i3cStatic h ∧ x.addr.isNone then { x with addr := some (a % 128) } else x)
        (if_pos hfree)
    case reads =>
      have hanswers := i3cRead_answers hreset haddr
      simp only [List.mem_cons, Prod.mk.injEq, List.not_mem_nil, or_false] at hc
      rcases hc with ⟨rfl, rfl⟩ | ⟨rfl, rfl⟩ | ⟨rfl, rfl⟩ | ⟨rfl, rfl⟩ | ⟨rfl, rfl⟩ | ⟨rfl, rfl⟩
      · exact hanswers fun x => (toBytes 6 (Config.mipiId.toNat * 2 ^ 33 + 2 ^ 32 + x.rand.toNat)).reverse
      · exact hanswers fun _ => [Config.bcr]
      · exact hanswers fun _ => [Config.dcr]
      · exact hanswers fun x => [0] ++ toBytes 1 (min x.ibi.length 15)
      · exact hanswers fun x => (toBytes 2 x.mrl).reverse
      · exact hanswers fun x => (toBytes 2 x.mwl).reverse
  case loads =>
    intro c code hc
    simp only [List.mem_cons, Prod.mk.injEq, List.not_mem_nil, or_false] at hc
    rcases hc with ⟨rfl, rfl⟩ | ⟨rfl, rfl⟩ | ⟨rfl, rfl⟩ | ⟨rfl, rfl⟩ | ⟨rfl, rfl⟩ <;> rfl
  case private_ =>
    have hloads : (if 0x80 ≤ code ∧ code ≤ 0xFE then s.dev.loadIr code else s.dev) = ir code :=
      (if_pos ⟨hlo, hhi⟩).trans (Dev.loadIr_code (by omega) s.dev)
    exact congrArg (fun d => Host.Outcome.next (s.withDev d)) hloads
  case extest => exact ⟨_, rfl, s.dev.boundaryDrives_extest⟩

end Sys2Proof.Machine
end

section
/-! PROOFS. Management requests, and the BMC's LEAD_REPLY among them (R460 to R463, R507, R510 to R517, R521, R524 to R532, R537, R544). -/

namespace Sys2Proof.Machine

open Sys2Proof

/-! ### A request that is served (R510 to R515, R521) -/

section
variable {s : State} {r : Request} {code tag : Nat} {least : Role} {given p : List Byte}
  (h : s.Served r code least given p tag)
include h

/-- None of the tests by which an SC passes a request over holds of a served one. -/
theorem State.Served.heard :
    let d := s.devAt r.now
    let box : Bool := r.path == .mailbox
    let msg := if box then s.boxMsg r else []
    ¬ (¬ d.scServes r.half = true ∨ ¬ d.pathUp r.half r.path = true ∨ ¬ d.endpointReady r.half r.path = true ∨ 16384 < p.length + 8
      ∨ (box = true ∧ fld msg 0 1 ≠ code)
      ∨ (d.top.lifecycle == .decommissioned && !(code == 1 || code == 2 || code == 3)) = true) := by
  intro d box msg
  have hlife : (d.top.lifecycle == .decommissioned && !(code == 1 || code == 2 || code == 3)) = false := by
    cases hst : d.top.lifecycle == .decommissioned with
    | false => rfl
    | true => simpa [or_iff_not_imp_left] using h.life (beq_iff_eq.1 hst)
  have hbox : ¬ (box = true ∧ fld msg 0 1 ≠ code) := fun ⟨hmail, hcode⟩ =>
    hcode ((congrArg (fld · 0 1) (if_pos hmail)).trans (h.box (beq_iff_eq.1 hmail)))
  rintro (hno | hno | hno | hno | hno | hno)
  · exact hno h.serves
  · exact hno h.reach
  · exact hno h.ready
  · exact absurd h.size (not_le.2 hno)
  · exact hbox hno
  · exact Bool.eq_false_iff.1 hlife hno

/-- What a served request's own work answers goes out as its answer. -/
theorem State.Served.finish_mgmt {act : Wk → List Byte → Wk × Nat × List Byte} {v : Wk} {cc : Nat} {body : List Byte}
    (hact : act (s.start.at_ r.now) p = (v, cc, body)) :
    finish s (s.start.mgmt r code least given act) = .next (s.answers r code tag v cc body) := by
  obtain ⟨role, hrole, hallows⟩ := h.role
  have hpayload : (if (r.path == .mailbox) = true then (if (r.path == .mailbox) = true then s.boxMsg r else []).drop 5 else given) = p := by
    rw [h.payload]
    by_cases hmail : r.path = .mailbox <;> simp [hmail]
  have htag : (if (r.path == .mailbox) = true then fld (if (r.path == .mailbox) = true then s.boxMsg r else []) 2 1 else r.tag) = tag := by
    rw [h.tag_]
    by_cases hmail : r.path = .mailbox <;> simp [hmail]
  have hrole' : (s.start.at_ r.now).dev.roleOf r = some role := hrole
  have hmsg : (s.start.at_ r.now).dev.mailbox r.half (((s.start.at_ r.now).dev.top.sc.get r.half).mailLen + 1) = s.boxMsg r := rfl
  have hmgmt : s.start.mgmt r code least given act =
      if (v.dev.top.sc.get r.half).st ≠ .booted then v
      else v.upd (·.sendMctp r.half r.path (mgmtResponse code tag cc body)) := by
    unfold Wk.mgmt
    refine (if_neg (hpayload ▸ h.heard)).trans ?_
    simp only [hrole', hmsg, hallows, hpayload, htag, hact, not_true_eq_false, if_false]
  exact congrArg (finish s) hmgmt

end

/-- A device-wide request is served while the lead half's SC serves (R514). -/
theorem deviceWide_serves {w : Wk} (hlead : w.dev.leadServes = true) (act : Wk → List Byte → Wk × Nat × List Byte) (p : List Byte) :
    deviceWide act w p = act w p :=
  if_pos hlead

/-- Settles O56: a served request that only reads answers what it reads. What the payloads hold beyond the spec's words is the model's
choice (assumption 13). -/
theorem managementAnswers : Obligations.ManagementAnswers := by
  intro s r p tag w d h
  refine ⟨fun hs => hs.finish_mgmt rfl, fun given t hs hlen ht => ?telemetry, fun given hs hlen hlog => ?log,
    fun hs => hs.finish_mgmt rfl, fun hs hlead => hs.finish_mgmt (deviceWide_serves (w := w) hlead _ p), fun hs => hs.finish_mgmt rfl⟩
  case telemetry =>
    refine hs.finish_mgmt ?_
    have ht' : (s.start.at_ r.now).dev.top.telemetry = some t := ht
    simp only [if_neg (not_lt.2 hlen), ht', gt_iff_lt]
    rfl
  case log =>
    refine hs.finish_mgmt ?_
    have hok : ¬ (p.length ≠ 5 ∨ fld p 0 1 > 1) := by omega
    simp only [if_neg hok]
    split <;> rfl

/-! ### Requests that change the device (R507, R517, R524 to R532, R537) -/

@[simp] theorem Flash.slots_setSlot (f : Flash) (image : Bool) (k : Half) (x : FlashSlot) :
    ((f.setSlot image k x).slots image).get k = x := by
  cases image <;> cases k <;> rfl

/-- The package once bytes have come for the object being staged (R532). -/
def Top.stageBytes (t : Top) (x : Staging) (bs : List Byte) : Top :=
  let sl := (t.flash.slots x.image).get x.slot
  let sl := { sl with body := sl.body ++ bs }
  { t with staging := some { x with got := x.got + bs.length },
           flash := if x.image then { t.flash with images := t.flash.images.set x.slot sl }
                    else { t.flash with records := t.flash.records.set x.slot sl } }

theorem Top.stageBytes_body (t : Top) (x : Staging) (bs : List Byte) :
    (((t.stageBytes x bs).flash.slots x.image).get x.slot).body = ((t.flash.slots x.image).get x.slot).body ++ bs := by
  obtain ⟨image, slot, len, got⟩ := x
  cases image <;> simp [Top.stageBytes, Flash.slots]

/-- The slot of an object that has verified, with what its contents say (R532). -/
def FlashSlot.staged (x : FlashSlot) (info : StageInfo) : FlashSlot :=
  { x with st := .staged, digest := info.digest, version := info.version, svn := info.svn, revision := info.revision, raise := info.raise,
           tried := false, devId := info.devId, memClk := info.memClk, portCfg := info.portCfg }

/-- The package once the object being staged has verified. -/
def Top.stageDone (t : Top) (x : Staging) (info : StageInfo) : Top :=
  { t with staging := none, flash := t.flash.setSlot x.image x.slot (((t.flash.slots x.image).get x.slot).staged info) }

section
variable {s : State} {r : Request} {given p : List Byte} {tag : Nat} {act : Wk → List Byte → Wk × Nat × List Byte} {v : Wk} {cc : Nat}
  {body : List Byte} {code : Nat} {least : Role}

/-- A served device-wide request does its own work while the lead half's SC serves. -/
theorem State.Served.finish_deviceWide (hs : s.Served r code least given p tag) (hlead : (s.devAt r.now).leadServes = true)
    (hact : act (s.start.at_ r.now) p = (v, cc, body)) :
    finish s (s.start.mgmt r code least given (deviceWide act)) = .next (s.answers r code tag v cc body) :=
  hs.finish_mgmt ((deviceWide_serves (w := s.start.at_ r.now) hlead act p).trans hact)

end

/-- Settles O57: a served request passes the checks of its payload and its own work is what it leaves. The payloads' layouts are the
model's (assumption 13), and so is the choice of a slot (assumption 26). -/
theorem managementActs : Obligations.ManagementActs := by
  intro s r given p tag w d
  refine ⟨fun hs hlen hlo hhi => ?ceiling, fun hs => hs.finish_mgmt rfl, fun hlead => ⟨fun hs => hs.finish_deviceWide hlead rfl, ?begin_,
    ?data, ?commit, ?token, fun hs => hs.finish_deviceWide hlead rfl, fun hs hstop => hs.finish_deviceWide hlead (if_pos hstop)⟩⟩
  case ceiling =>
    have hok : ¬ (p.length ≠ 2 ∨ fld p 0 2 < 600 ∨ d.top.designPower < fld p 0 2) := by omega
    exact hs.finish_mgmt (if_neg hok)
  case begin_ =>
    intro k image len hs hlen hkind hnonzero hfits hnone hslot
    have hok : ¬ (p.length ≠ 5 ∨ fld p 0 1 > 1 ∨ len = 0 ∨ (if fld p 0 1 = 0 then 2 ^ 23 else 65536) < len) := by
      have hfits' : len ≤ if fld p 0 1 = 0 then 2 ^ 23 else 65536 := by simpa [image] using hfits
      omega
    have hfree : ¬ ((s.start.at_ r.now).dev.top.staging.isSome = true) := by
      rw [show (s.start.at_ r.now).dev.top.staging = none from hnone]
      exact Bool.false_ne_true
    have hslot' : stageSlot ((s.start.at_ r.now).dev.top.flash.slots (decide (fld p 0 1 = 0))) = some k := hslot
    refine hs.finish_deviceWide hlead ?_
    dsimp only
    rw [if_neg hok, if_neg hfree, hslot']
  case data =>
    intro x hs hx hlo hhi hoff hfits
    have hx' : (s.start.at_ r.now).dev.top.staging = some x := hx
    have hbytes : (p.drop 4).length = p.length - 4 := List.length_drop
    have hok : ¬ (p.length < 4 ∨ 4096 < (p.drop 4).length ∨ fld p 0 4 ≠ x.got ∨ x.len < x.got + (p.drop 4).length) := by omega
    refine ⟨w.upd (·.onTop fun t => t.stageBytes x (p.drop 4)), hs.finish_deviceWide hlead ?_, hbytes ▸ rfl, Top.stageBytes_body _ x _⟩
    dsimp only
    rw [hx']
    exact if_neg hok
  case commit =>
    intro x info hs hx hwhole hsvn
    have hx' : (s.start.at_ r.now).dev.top.staging = some x := hx
    have hback : (x.image && decide (info.svn < (s.start.at_ r.now).dev.top.minSvn)) = false := by
      rw [Bool.and_eq_false_imp]
      exact fun himage => decide_eq_false (not_lt.2 (hsvn himage))
    refine ⟨w.upd (·.onTop fun t => t.stageDone x info), hs.finish_deviceWide hlead ?_, rfl, ?_, ?_⟩
    · dsimp only
      rw [hx']
      simp only [hwhole, ne_eq, not_true_eq_false, if_false, hback]
      rfl
    · exact congrArg FlashSlot.st (Flash.slots_setSlot _ _ _ _)
    · exact congrArg FlashSlot.digest (Flash.slots_setSlot _ _ _ _)
  case token =>
    intro n at_ kind hs hlen hallowed hnonce hfresh htime hdevice hkeys
    have hnonce' : (s.start.at_ r.now).dev.top.nonce = some (n, at_) := hnonce
    refine hs.finish_deviceWide hlead ((if_neg (not_not.2 hlen)).trans ((if_neg (not_not.2 hallowed)).trans
      (if_pos ⟨hdevice, ?fresh, ?key, rfl, rfl⟩)))
    case fresh =>
      rw [hnonce']
      exact Bool.and_eq_true_iff.2 ⟨beq_iff_eq.2 hfresh.symm, decide_eq_true htime⟩
    case key =>
      dsimp only at hkeys ⊢
      split at hkeys
      · next hkind => rw [if_pos hkind, hkeys, beq_self_eq_true]
      · next hkind =>
        rw [if_neg hkind]
        exact beq_iff_eq.2 hkeys

/-! ### LEAD_REPLY (R460 to R463) -/

/-- A half waits for a LEAD_REPLY: LAPSED, CONFIRMING, or ELECTING with its image running. -/
def Wk.waitsForLead (w : Wk) (h : Half) : Prop :=
  (w.dev.top.lead.get h).st = .lapsed ∨ (w.dev.top.lead.get h).st = .confirming
    ∨ ((w.dev.top.lead.get h).st = .electing ∧ (w.dev.top.sc.get h).st = .booted)

section
variable {w : Wk} {h : Half}

theorem Wk.waitsForLead_iff : ((w.dev.top.lead.get h).st == .lapsed || (w.dev.top.lead.get h).st == .confirming ||
    ((w.dev.top.lead.get h).st == .electing && (w.dev.top.sc.get h).st == .booted)) = true ↔ w.waitsForLead h := by
  simp [Wk.waitsForLead, or_assoc]

theorem Wk.leadReply_grants (hwaits : w.waitsForLead h) (term : Nat) :
    w.leadReply h 1 term =
      ((((w.grant h term).mirBufs).mirStale).upd fun d => (d.fab.dests.map (·.1)).foldl (fun d dest => d.pump dest) d, ccSuccess) := by
  simp [Wk.leadReply, Wk.waitsForLead_iff.2 hwaits]

theorem Wk.leadReply_fences (hwaits : w.waitsForLead h) (term : Nat) :
    w.leadReply h 2 term = (w.upd (·.fence h term), ccSuccess) := by
  simp [Wk.leadReply, Wk.waitsForLead_iff.2 hwaits]

/-- A half that waits for none is not ready for one. -/
theorem Wk.leadReply_early (hwaits : ¬ w.waitsForLead h) {result : Nat} (hresult : result = 1 ∨ result = 2) (term : Nat) :
    w.leadReply h result term = (w, ccNotReady) := by
  have hwaits' := Bool.eq_false_iff.2 (mt Wk.waitsForLead_iff.1 hwaits)
  have hknown : ¬ (result ≠ 1 ∧ result ≠ 2) := by omega
  simp only [Wk.leadReply, hwaits', if_neg hknown, if_true]

/-- A waiting half is not in SPLIT_HALT. -/
theorem Wk.waitsForLead.not_halted (hwaits : w.waitsForLead h) : (w.dev.top.lead.get h).st ≠ .splitHalt := by
  rintro hhalt
  simp [Wk.waitsForLead, hhalt] at hwaits

end

/-- Outside SPLIT_HALT a LEAD_REPLY over I3C is served as any request, with RESULT's two bits and the TERM. -/
theorem State.Served.exec_leadReply {s : State} {r : Request} {tag result term cc : Nat} {v : Wk}
    (hs : s.Served r 0x06 .officer [] [] tag) (hpath : r.path = .i3c) (hterm : term < 2 ^ 32) (hresult : result < 4)
    (hlive : (s.dev.top.lead.get r.half).st ≠ .splitHalt) (hreply : (s.start.at_ r.now).leadReply r.half result term = (v, cc)) :
    exec (.leadReply r result term) s = .next (s.answers r 6 tag v cc []) := by
  refine (congrArg (finish s) (if_neg hlive)).trans (hs.finish_mgmt ?_)
  simp only [hpath, ne_eq, not_true_eq_false, if_false, Nat.mod_eq_of_lt hterm, Nat.mod_eq_of_lt hresult, hreply]

/-- Settles O39: whether the half waits decides what a served reply does. NOT_READY in the other states is the model's choice
(assumption 15). -/
theorem leadReplyDecides : Obligations.LeadReplyDecides := by
  intro s r result term tag w d v waits
  refine ⟨fun hs hpath hterm => ⟨?grant, ?fence, ?early⟩, fun hhalt => congrArg (finish s) (if_pos hhalt)⟩
  case grant =>
    rintro hwaits rfl
    exact hs.exec_leadReply hpath hterm (by decide) (Wk.waitsForLead.not_halted (w := w) hwaits) (Wk.leadReply_grants (w := w) hwaits term)
  case fence =>
    rintro hwaits rfl
    exact hs.exec_leadReply hpath hterm (by decide) (Wk.waitsForLead.not_halted (w := w) hwaits) (Wk.leadReply_fences (w := w) hwaits term)
  case early =>
    intro hwaits hlive hresult
    exact hs.exec_leadReply hpath hterm (by omega) hlive (Wk.leadReply_early (w := w) hwaits hresult term)

end Sys2Proof.Machine
end

section
/-! PROOFS. Frames of a COLLECTIVE that arrive, and frames that are not of the operation under way (R398, R399, R402, R404, R405, R416
to R418, R420). -/

namespace Sys2Proof.Machine

open Sys2Proof

/-! ### A request that is new and refused (R364, R365) -/

section
variable {w v : Wk} {t : Txn}

theorem Wk.find_mark_of_fresh (hfresh : w.fresh t) : ((w.dev.winFor t.src t.seq).marks.find? fun m => m.1 = t.seq) = none := by
  simpa [Wk.fresh] using hfresh

/-- A new request whose own work answers a status other than OK is counted as refused and marked with that status. -/
theorem Wk.request_fresh_refused {apply : Wk → Wk × Nat} {st : Nat} (hfresh : w.fresh t) (happly : apply w = (v, st)) (hst : st ≠ stOk)
    (p : Nat) : w.request p t apply = (v.upd fun d => d.count (d.countHalf p) Reg.FAB_REFUSED_LO 1).marked t st := by
  simp only [Wk.request, Wk.find_mark_of_fresh hfresh, happly, if_neg hst]
  rfl

end

/-! ### Frames that are not of the operation under way (R398, R399, R420) -/

/-- The half whose CE counts a stale frame of a group: the operation's, else the lead half. -/
def Dev.staleHalf (d : Dev) (k : Nat) : Half := match d.opOf k with | some o => o.half | none => d.leadHalf

section
variable {w : Wk} {t : Txn} {k : Nat} {g : Group64} {f : CeFrame} (exch : Wk → CeOp → CeFrame → Wk)

/-- A frame of an older EPOCH is of no operation of the group; it is counted as stale. -/
theorem Wk.ceFrame_older (hgroup : w.dev.group k = some g) (hepoch : f.epoch < g.epoch) :
    w.ceFrame exch k f = w.upd fun d => d.count (d.staleHalf k) Reg.CE_STALE_DISCARD_LO 1 := by
  have hpast : (w.dev.ce.past.find? fun o => o.group = k ∧ o.seq = f.seq ∧ f.kind = 2 ∧ f.epoch = g.epoch) = none := by
    simp [hepoch.ne]
  simp only [Wk.ceFrame, hgroup]
  rw [if_pos hepoch.ne, hpast]
  rfl

/-- A frame of an operation that the group has still to begin is kept. -/
theorem Wk.ceFrame_early (hgroup : w.dev.group k = some g) (hepoch : f.epoch = g.epoch) (hidle : w.dev.opOf k = none)
    (hseq : (f.seq + 2 ^ 32 - g.nextSeq) % 2 ^ 32 < 2 ^ 31) :
    w.ceFrame exch k f = w.upd (·.onCe fun c => { c with held := c.held ++ [(k, f)] }) := by
  simp only [Wk.ceFrame, hgroup, hepoch, ne_eq, not_true_eq_false, if_false, hidle, hseq, if_true]

variable (hgroup : w.dev.groupOf t = some (k, g)) (hmember : g.members.contains t.src = true)
include hgroup hmember

/-- A MSG of one whole frame that is not of a newer EPOCH has that frame taken. -/
theorem Wk.ceMsg_current (hframe : readFrames 256 t.data = some [f]) (hepoch : f.epoch ≤ g.epoch) :
    w.ceMsg exch t = (w.ceFrame exch k f, stOk) := by
  simp [Wk.ceMsg, hgroup, List.contains_iff_mem.1 hmember, hframe, hepoch]

theorem Wk.ceMsg_newer (hframe : readFrames 256 t.data = some [f]) (hepoch : f.epoch > g.epoch) : w.ceMsg exch t = (w, stReformed) := by
  simp [Wk.ceMsg, hgroup, List.contains_iff_mem.1 hmember, hframe, hepoch]

theorem Wk.ceMsg_damaged (hframe : readFrames 256 t.data = none) :
    w.ceMsg exch t = (w.upd (·.count .west Reg.TOP_ERR_CORRECTED_LO 1), stParity) := by
  simp [Wk.ceMsg, hgroup, List.contains_iff_mem.1 hmember, hframe]

end

section
variable {w v : Wk} {t : Txn} {exch : Wk → CeOp → CeFrame → Wk} (hfresh : w.fresh t)
include hfresh

/-- A new MSG answered PARITY is not marked. -/
theorem Wk.ceRequest_parity (hmsg : w.ceMsg exch t = (v, stParity)) (p : Nat) :
    w.ceRequest exch p t = v.upd fun d => d.respond (ackTxn t.src d.me t.tc stParity t.seq t.seq t.job) := by
  have hnew : ((w.dev.winFor t.src t.seq).marks.any fun m => m.1 = t.seq) = false := by
    simpa [Wk.fresh] using hfresh
  simp [Wk.ceRequest, hmsg, hnew, -List.any_eq_true, -List.any_eq_false]

/-- A new MSG answered with another status than PARITY or OK is refused as any request. -/
theorem Wk.ceRequest_refused {st : Nat} (hmsg : w.ceMsg exch t = (v, st)) (hparity : st ≠ stParity) (hst : st ≠ stOk) (p : Nat) :
    w.ceRequest exch p t = (v.upd fun d => d.count (d.countHalf p) Reg.FAB_REFUSED_LO 1).marked t st := by
  simp only [Wk.ceRequest, hmsg, hparity, and_false, if_false]
  exact Wk.request_fresh_refused hfresh hmsg hst p

end

/-- The commands about frames, with the kind of frame that each names. -/
def frameCommands (port now : Nat) : List (Instr × Nat) :=
  [(.demand port now, 0x01), (.repair port now, 0x02), (.expertTile port now, 0x03), (.readyFrame port now, 0x10),
   (.partialFrame port now, 0x11), (.finalFrame port now, 0x12), (.resend port now, 0x13), (.presence port now, 0x18),
   (.unionFrame port now, 0x19), (.vote port now, 0x20), (.verdict port now, 0x21), (.withdraw port now, 0x22)]

/-- Whatever kind of frame it names, a command about frames handles the MSG that begins with one. -/
theorem exec_frameCommand {s : State} {port now kind : Nat} {c : Instr} {t : Txn} (hc : (c, kind) ∈ frameCommands port now)
    (harr : s.arrives now port (·.startsWith kind) t) :
    exec c s = .next (s.handled port ((s.taking now port t).ceRequest Wk.exchFrame port t)) := by
  have hframe : exec c s = finish s ((s.start.at_ now).onFrame port kind) := by
    simp only [frameCommands, List.mem_cons, Prod.mk.injEq, List.not_mem_nil, or_false] at hc
    rcases hc with ⟨rfl, rfl⟩ | ⟨rfl, rfl⟩ | ⟨rfl, rfl⟩ | ⟨rfl, rfl⟩ | ⟨rfl, rfl⟩ | ⟨rfl, rfl⟩ | ⟨rfl, rfl⟩ | ⟨rfl, rfl⟩ | ⟨rfl, rfl⟩ |
      ⟨rfl, rfl⟩ | ⟨rfl, rfl⟩ | ⟨rfl, rfl⟩ <;> rfl
  rw [hframe, Wk.onFrame, finish_onTxn harr]

/-- Settles O36: the EPOCH and the COLL_SEQ of the one frame, or its CRC, say what the CE answers of its MSG. That a frame of an operation
to come is held is the model's choice (assumption 49). -/
theorem framesOfOtherOperations : Obligations.FramesOfOtherOperations := by
  intro s port now kind k c t f g hc harr w hfresh hgroup hentry hmember
  have hgroup' : w.dev.groupOf t = some (k, g) := (s.taking_groupOf now port t t).trans hgroup
  have hentry' : w.dev.group k = some g := (s.taking_group now port k t).trans hentry
  rw [exec_frameCommand hc harr]
  refine ⟨fun hframe hepoch hidle hseq => ?early, fun hframe hepoch => ?older, fun hframe => ?damaged, fun hframe hepoch => ?newer⟩
  case early =>
    have hidle' : w.dev.opOf k = none := (s.taking_opOf now port k t).trans hidle
    rw [Wk.ceRequest_ok hfresh (Wk.ceMsg_current _ hgroup' hmember hframe hepoch.le), Wk.ceFrame_early _ hentry' hepoch hidle' hseq]
  case older =>
    rw [Wk.ceRequest_ok hfresh (Wk.ceMsg_current _ hgroup' hmember hframe hepoch.le), Wk.ceFrame_older _ hentry' hepoch]
    rfl
  case damaged => rw [Wk.ceRequest_parity hfresh (Wk.ceMsg_damaged _ hgroup' hmember hframe)]
  case newer => rw [Wk.ceRequest_refused hfresh (Wk.ceMsg_newer _ hgroup' hmember hframe hepoch) (by decide) (by decide)]

/-! ### A frame of the COLLECTIVE under way (R399, R404, R416 to R418, R420) -/

/-- The working state once an operation has heard from a member. -/
def Wk.heard (w : Wk) (id : Nat) : Wk := w.upd fun d => d.onOp id fun o => { o with heard := d.time }

section
variable {w : Wk} {o : CeOp} {f : CeFrame} {g : Group64} (hop : w.dev.op o.id = some o) (hgroup : w.dev.group o.group = some g)
include hop hgroup

theorem Wk.ceApply_verdict (hkind : f.kind = 0x21) :
    w.ceApply o.id f = (w.heard o.id).verdict o.id (fld f.body 0 4) ((chunks 4 (f.body.drop 8)).map ofBytes) (Wk.ceAgain ceRounds) := by
  simp only [Wk.ceApply, hop, hgroup, hkind, ne_eq, not_true_eq_false, false_and, and_false, if_false]
  rfl

theorem Wk.ceApply_withdraw (hkind : f.kind = 0x22) :
    w.ceApply o.id f = if g.me = 0 then (w.heard o.id).verdict o.id 3 [] (Wk.ceAgain ceRounds)
      else (w.heard o.id).ceTell o g ((g.me - 1) / g.fan) 0x22 [] := by
  simp only [Wk.ceApply, hop, hgroup, hkind, ne_eq, not_true_eq_false, and_false, if_false]
  rfl

/-- An operation that its member has left takes no other frame. -/
theorem Wk.ceApply_left (hleft : o.left = true) (hverdict : f.kind ≠ 0x21) (hwithdraw : f.kind ≠ 0x22) :
    w.ceApply o.id f = w.heard o.id := by
  have hnone : (if o.left ∧ f.kind ≠ 0x21 ∧ f.kind ≠ 0x22 then 0 else f.kind) = 0 := if_pos ⟨hleft, hverdict, hwithdraw⟩
  simp only [Wk.ceApply, hop, hgroup, hnone]
  rfl

variable (hleft : o.left = false)
include hleft

theorem Wk.ceApply_ready (hkind : f.kind = 0x10) (hoperands : f.body.take 12 = (o.nb.drop 0x3C).take 12) (hcount : fld f.body 12 4 = o.c) :
    w.ceApply o.id f =
      ((w.heard o.id).upd (·.onOp o.id fun o => { o with ready := o.ready ++ [f.src] })).ceAgain ceRounds o.id := by
  simp only [Wk.ceApply, hop, hgroup, hleft, hkind, hoperands, hcount, Bool.false_eq_true, false_and, if_false, ne_eq, not_true_eq_false, or_self]
  rfl

theorem Wk.ceApply_data (hkind : f.kind = 0x11 ∨ f.kind = 0x12) :
    w.ceApply o.id f = ((w.heard o.id).ceDataIn o g f).ceProgress o.id (Wk.ceAgain ceRounds) := by
  rcases hkind with hkind | hkind <;>
  · simp only [Wk.ceApply, hop, hgroup, hleft, hkind, Bool.false_eq_true, false_and, if_false]
    rfl

theorem Wk.ceApply_resend (hkind : f.kind = 0x13) :
    w.ceApply o.id f = ((w.heard o.id).upd (·.onOp o.id fun o =>
      { o with sent := o.sent.filter fun s => ¬ (s.2.1 = f.src ∧ s.2.2 = f.index) })).ceProgress o.id (Wk.ceAgain ceRounds) := by
  simp only [Wk.ceApply, hop, hgroup, hleft, hkind, Bool.false_eq_true, false_and, if_false]
  rfl

theorem Wk.ceApply_presence (hkind : f.kind = 0x18) :
    w.ceApply o.id f =
      ((w.heard o.id).upd (·.onOp o.id fun o => { o with presence := o.presence ++ [(f.src, f.body)] })).cePresence o.id := by
  simp only [Wk.ceApply, hop, hgroup, hleft, hkind, Bool.false_eq_true, false_and, if_false]
  rfl

theorem Wk.ceApply_union (hkind : f.kind = 0x19) :
    w.ceApply o.id f = (w.heard o.id).ceUnion o.id (f.body ++ List.replicate (bitmapBytes o.experts - f.body.length) 0) := by
  simp only [Wk.ceApply, hop, hgroup, hleft, hkind, Bool.false_eq_true, false_and, if_false]
  rfl

theorem Wk.ceApply_vote (hkind : f.kind = 0x20) :
    w.ceApply o.id f = ((w.heard o.id).upd (·.onOp o.id fun o =>
      { o with votes := o.votes ++ [voteOf f.src f.body] })).ceVote o.id (Wk.ceAgain ceRounds) := by
  simp only [Wk.ceApply, hop, hgroup, hleft, hkind, Bool.false_eq_true, false_and, if_false]
  rfl

end

@[simp] theorem State.taking_op (s : State) (now port id : Nat) (t : Txn) : (s.taking now port t).dev.op id = (s.devAt now).op id := by
  simp [Dev.op]

section
variable (d : Dev) (id : Nat) (f : CeOp → CeOp)

theorem Dev.onOp_inst (seq : Nat) : (d.onOp id f).inst seq = d.inst seq := rfl
theorem Dev.onOp_checkRange (job a n : Nat) (write : Bool) : (d.onOp id f).checkRange job a n write = d.checkRange job a n write := rfl
theorem Dev.onOp_mirFull (a n : Nat) : (d.onOp id f).mirFull a n = d.mirFull a n := rfl

end

/-- A frame of the COLLECTIVE that its group carries is applied to it, and its MSG marked with OK. -/
theorem State.FrameComes.finish_coll {s : State} {now port kind k : Nat} {t : Txn} {f : CeFrame} {g : Group64} {o : CeOp}
    (h : s.FrameComes now port kind t f k g o) (hkind : exchKind kind = false) :
    finish s ((s.start.at_ now).onFrame port kind) =
      .next (s.handled port (((s.taking now port t).ceApply o.id f).marked t stOk)) := by
  have hgroup := (s.taking_group now port k t).trans h.entry
  have hop := (s.taking_opOf now port k t).trans h.op
  have hfkind : exchKind f.kind = o.exch := h.kind_ ▸ h.exch
  have hcoll : o.exch = false := h.exch.symm.trans hkind
  have happlies : (s.taking now port t).ceFrame Wk.exchFrame k f = (s.taking now port t).ceApply o.id f := by
    simp only [Wk.ceFrame, hgroup, h.epoch, ne_eq, not_true_eq_false, if_false, hop, h.seq, hfkind, and_self, if_true, hcoll,
      Bool.false_eq_true]
  rw [h.finish_onFrame, happlies]

/-! ### Tiles of data frames (R398, R402, R405, R416) -/

section
variable {w : Wk} {o : CeOp} {f : CeFrame} {g : Group64}

/-- The first of a tile's two parts is kept until the other comes. -/
theorem Wk.ceDataIn_part (hpart : o.whole f = none) :
    w.ceDataIn o g f = w.upd (·.onOp o.id fun o => { o with first := o.first ++ [f] }) := by
  unfold CeOp.whole at hpart
  split at hpart
  case isTrue => cases hpart
  case isFalse htwo =>
    simp only [Wk.ceDataIn, if_neg htwo, Option.map_eq_none_iff.1 hpart]

/-- The operation without the parts that it has kept of a frame's tile. -/
def CeOp.joined (o : CeOp) (f : CeFrame) : CeOp :=
  { o with first := o.first.filter fun x => ¬ (x.kind = f.kind ∧ x.src = f.src ∧ x.index = f.index) }

/-- A data frame that makes a tile whole, not used before and, being a FINAL, not before the tile list is known, brings it in: the frame
`y` carries it. -/
theorem Wk.ceDataIn_whole {bs : List Byte} (hwhole : o.whole f = some bs) (hlist : f.kind = 0x12 → o.list.isSome = true)
    (hnew : o.used g f = false) :
    ∃ y : CeFrame, y.kind = f.kind ∧ y.src = f.src ∧ y.index = f.index ∧ y.body = bs
      ∧ w.ceDataIn o g f = (w.upd (·.onOp o.id (·.joined f))).ceTileIn o g y := by
  have hnow (y : CeFrame) (hk : y.kind = f.kind) (hs : y.src = f.src) (hi : y.index = f.index) :
      ¬ ((o.list.isNone = true ∧ y.kind = 0x12) ∨ o.used g y = true) := by
    have hused : o.used g y = o.used g f := by simp only [CeOp.used, hk, hs, hi]
    rw [hused, hnew, hk]
    rintro (⟨hno, hfinal⟩ | hno)
    · simp [Option.isNone_iff_eq_none.1 hno] at hlist
      exact hlist hfinal
    · cases hno
  unfold CeOp.whole at hwhole
  split at hwhole
  case isTrue hone =>
    cases hwhole
    refine ⟨f, rfl, rfl, rfl, rfl, ?_⟩
    simp only [Wk.ceDataIn, if_pos hone]
    exact if_neg (hnow f rfl rfl rfl)
  case isFalse htwo =>
    obtain ⟨x, hx, rfl⟩ := Option.map_eq_some_iff.1 hwhole
    refine ⟨{ f with parts := 1, part := 0, body := if f.part = 1 then x.body ++ f.body else f.body ++ x.body }, rfl, rfl, rfl, rfl, ?_⟩
    simp only [Wk.ceDataIn, if_neg htwo, hx]
    exact if_neg (hnow _ rfl rfl rfl)

/-- The form that a frame's tile must have depends on the frame's kind and body alone. -/
theorem CeOp.formOk_congr (o : CeOp) {x y : CeFrame} (hkind : x.kind = y.kind) (hbody : x.body = y.body) (tile : Tile) :
    o.formOk x tile = o.formOk y tile := by
  simp only [CeOp.formOk, hkind, hbody]

/-- A sound PARTIAL adds its tile to what has come. -/
theorem Wk.ceTileIn_partial {tile : Tile} (hkind : f.kind = 0x11) (hopen : openTile false f.body = .ok tile) (hform : o.formOk f tile = true) :
    w.ceTileIn o g f = w.upd (·.onOp o.id fun o => { o with inbox := o.inbox ++ [(f.src, f.index, f.body)] }) := by
  simp only [Wk.ceTileIn, hopen, hform, hkind, not_true_eq_false, if_false, if_true]

/-- A sound FINAL writes its tile, and taps it, when the job may write there and the Mirror has no page to push first. -/
theorem Wk.ceTileIn_final {tile : Tile} {x : Inst} {p : CeOp} {v : Wk} (hkind : f.kind = 0x12) (hopen : openTile false f.body = .ok tile)
    (hform : o.formOk f tile = true) (hp : { o with size := f.body.length } = p)
    (hv : w.upd (·.onOp o.id fun x => { x with size := f.body.length }) = v) (hinst : v.dev.inst o.inst = some x)
    (hmay : v.dev.checkRange x.job (p.dstAt (p.dstTile g f.index)) f.body.length true = 0)
    (hroom : v.dev.mirFull (p.dstAt (p.dstTile g f.index)) f.body.length = false) :
    w.ceTileIn o g f = (v.ceWrite p (p.dstTile g f.index) f.body).ceTap p g f.index f.body := by
  have hfinal : ¬ f.kind = 0x11 := by omega
  simp only [Wk.ceTileIn, hopen, hform, not_true_eq_false, if_false, if_neg hfinal, hp, hv, hinst]
  exact (if_neg (not_not.2 hmay)).trans (if_neg (Bool.eq_false_iff.1 hroom))

end

/-- Settles O34: the frame's MSG is of the operation under way, whose row of R399 for the frame's kind is what is done. That an operation
its member has left takes no other frame is the model's choice (assumption 49). -/
theorem collectiveFramesApply : Obligations.CollectiveFramesApply := by
  intro s port now k t f g o v again
  let w := s.taking now port t
  have op {kind : Nat} (h : s.FrameComes now port kind t f k g o) : w.dev.op o.id = some o := (s.taking_op now port o.id t).trans h.id
  have group {kind : Nat} (h : s.FrameComes now port kind t f k g o) : w.dev.group o.group = some g :=
    (s.taking_group now port o.group t).trans (h.idx ▸ h.entry)
  refine ⟨fun h hleft hoperands hcount => ?ready, fun h hleft hpart => ?part, fun tile bs h hleft hwhole hnew hopen hform => ?partial_,
    fun tile bs x => ?final_, fun h hleft => ?resend, fun h hleft => ?presence, fun h hleft => ?union_, fun h hleft => ?vote,
    fun h => ?verdict, fun h => ?withdraw, fun c kind hc h hleft => ?left⟩
  case ready =>
    refine (h.finish_coll rfl).trans ?_
    rw [Wk.ceApply_ready (op h) (group h) hleft h.kind_ hoperands hcount]
    rfl
  case part =>
    refine (h.finish_coll rfl).trans ?_
    rw [Wk.ceApply_data (op h) (group h) hleft (.inl h.kind_), Wk.ceDataIn_part hpart]
    rfl
  case partial_ =>
    refine (h.finish_coll rfl).trans ?_
    obtain ⟨y, hk, hs, hi, rfl, hin⟩ := Wk.ceDataIn_whole (w := v) (g := g) hwhole (fun hfinal => by simp [h.kind_] at hfinal) hnew
    have htile := Wk.ceTileIn_partial (w := v.upd (·.onOp o.id (·.joined f))) (g := g) (hk.trans h.kind_) hopen
      ((o.formOk_congr (y := { f with parts := 1, part := 0, body := y.body }) hk rfl tile).trans hform)
    rw [hs, hi] at htile
    rw [Wk.ceApply_data (op h) (group h) hleft (.inl h.kind_), show (w.heard o.id).ceDataIn o g f = _ from hin.trans htile]
    rfl
  case final_ =>
    intro p h hleft hwhole hlist hnew hopen hform hinst hmay hroom
    refine (h.finish_coll rfl).trans ?_
    obtain ⟨y, hk, hs, hi, rfl, hin⟩ := Wk.ceDataIn_whole (w := v) (g := g) hwhole (fun _ => hlist) hnew
    rw [← hi] at hmay hroom
    have htile := Wk.ceTileIn_final (w := v.upd (·.onOp o.id (·.joined f))) (g := g) (hk.trans h.kind_) hopen
      ((o.formOk_congr (y := { f with parts := 1, part := 0, body := y.body }) hk rfl tile).trans hform) rfl rfl hinst
      ((Dev.onOp_checkRange ..).trans ((Dev.onOp_checkRange ..).trans hmay)) ((Dev.onOp_mirFull ..).trans ((Dev.onOp_mirFull ..).trans hroom))
    rw [hi] at htile
    rw [Wk.ceApply_data (op h) (group h) hleft (.inr h.kind_), show (w.heard o.id).ceDataIn o g f = _ from hin.trans htile]
    rfl
  case resend =>
    refine (h.finish_coll rfl).trans ?_
    rw [Wk.ceApply_resend (op h) (group h) hleft h.kind_]
    rfl
  case presence =>
    refine (h.finish_coll rfl).trans ?_
    rw [Wk.ceApply_presence (op h) (group h) hleft h.kind_]
    rfl
  case union_ =>
    refine (h.finish_coll rfl).trans ?_
    rw [Wk.ceApply_union (op h) (group h) hleft h.kind_]
    rfl
  case vote =>
    refine (h.finish_coll rfl).trans ?_
    rw [Wk.ceApply_vote (op h) (group h) hleft h.kind_]
    rfl
  case verdict =>
    refine (h.finish_coll rfl).trans ?_
    rw [Wk.ceApply_verdict (op h) (group h) h.kind_]
    rfl
  case withdraw =>
    refine (h.finish_coll rfl).trans ?_
    rw [Wk.ceApply_withdraw (op h) (group h) h.kind_]
    rfl
  case left =>
    have hframe : exec c s = finish s ((s.start.at_ now).onFrame port kind) ∧ exchKind kind = false ∧ kind ≠ 0x21 ∧ kind ≠ 0x22 := by
      simp only [List.mem_cons, Prod.mk.injEq, List.not_mem_nil, or_false] at hc
      rcases hc with ⟨rfl, rfl⟩ | ⟨rfl, rfl⟩ | ⟨rfl, rfl⟩ | ⟨rfl, rfl⟩ | ⟨rfl, rfl⟩ | ⟨rfl, rfl⟩ | ⟨rfl, rfl⟩ <;>
        exact ⟨rfl, rfl, by decide, by decide⟩
    obtain ⟨hexec, hcoll, hverdict, hwithdraw⟩ := hframe
    rw [hexec, h.finish_coll hcoll, Wk.ceApply_left (op h) (group h) hleft (h.kind_ ▸ hverdict) (h.kind_ ▸ hwithdraw)]
    rfl

end Sys2Proof.Machine
end

section
/-! PROOFS. The Health Monitor, cuts, the Mirror's messages, the end of a restore and the timers of a start broadcast (R424, R465 to R484,
R502 to R505, R572). -/

namespace Sys2Proof.Machine

open Sys2Proof

/-! ### The Health Monitor (R465 to R468, R572) -/

section
variable {w : Wk}

/-- The working state in which both halves have taken their ms. -/
def Wk.hmBoth (w : Wk) : Wk := w.upd fun d => (d.hmHalf .west).hmHalf .east

/-- HM_RISK_STEP as the lead half holds it. -/
def Dev.riskStep (d : Dev) : Nat := d.rn d.leadHalf Reg.HM_RISK_STEP

section
variable (hpair : w.dev.top.degraded = false)
include hpair

/-- With both halves in the device, a sample is taken in both. -/
theorem Wk.hmBoth_eq : (w.upd fun d => if d.top.degraded then d.hmHalf d.leadHalf else (d.hmHalf .west).hmHalf .east) = w.hmBoth :=
  congrArg (fun e => { w with dev := e }) (if_neg (Bool.eq_false_iff.1 hpair))

theorem Wk.hmSample_cuts (hstep : w.hmBoth.dev.riskStep ≠ 0) (hrisk : w.hmBoth.dev.hmBase + w.hmBoth.dev.riskStep ≤ w.hmBoth.dev.deviceRisk) :
    w.hmSample = (w.hmBoth.upd fun d => { d with hmBase := w.hmBoth.dev.deviceRisk }).cutRequest 1 := by
  simp only [Wk.hmSample, Wk.hmBoth_eq hpair]
  exact if_pos ⟨hstep, hrisk⟩

theorem Wk.hmSample_follows (hbelow : ¬ (w.hmBoth.dev.riskStep ≠ 0 ∧ w.hmBoth.dev.hmBase + w.hmBoth.dev.riskStep ≤ w.hmBoth.dev.deviceRisk)) :
    w.hmSample = w.hmBoth.upd fun e => if e.deviceRisk < e.hmBase then { e with hmBase := e.deviceRisk } else e := by
  simp only [Wk.hmSample, Wk.hmBoth_eq hpair]
  refine (if_neg hbelow).trans ?_
  by_cases hfell : w.hmBoth.dev.deviceRisk < w.hmBoth.dev.hmBase
  · exact (if_pos hfell).trans (congrArg (fun e => { w.hmBoth with dev := e }) (if_pos hfell).symm)
  · exact (if_neg hfell).trans (congrArg (fun e => { w.hmBoth with dev := e }) (if_neg hfell).symm)

end

end

/-- A raised floor whose interval has passed falls by 1. -/
theorem Dev.floorDecay_lowers {d : Dev} {h : Half} (hraised : (d.hm.get h).floor ≠ 0)
    (hdue : (d.hm.get h).floorAt + 1000000 * bits (d.rn h Reg.HM_CFG) 16 16 ≤ d.time) :
    d.floorDecay h = { d with hm := d.hm.set h { d.hm.get h with
      floor := (d.hm.get h).floor - 1, floorAt := (d.hm.get h).floorAt + 1000000 * bits (d.rn h Reg.HM_CFG) 16 16 } } :=
  if_neg (not_or.2 ⟨hraised, not_lt.2 hdue⟩)

/-- Settles O43: a sample takes both ms and compares the risk with BASE; a floor falls once its interval has passed; a droop only
counts. -/
theorem healthMonitorSamples : Obligations.HealthMonitorSamples := by
  intro s h now d e v step
  refine ⟨fun hpair => ⟨fun hstep hrisk => ?cuts, fun hbelow => ?follows⟩, fun hraised hdue => ?decay, rfl⟩
  case cuts => exact congrArg (finish s) (Wk.hmSample_cuts (w := s.start.at_ now) hpair hstep hrisk)
  case follows => exact congrArg (finish s) (Wk.hmSample_follows (w := s.start.at_ now) hpair hbelow)
  case decay => exact onDev_devAt (·.floorDecay h) (Dev.floorDecay_lowers hraised hdue)

/-! ### Cuts (R469 to R472, R476, R478) -/

/-- The open cut once it is frozen with a cause. -/
def Dev.freezeCut (d : Dev) (cause : Nat) : MirCut :=
  let pages := sortBy (fun a b => decide (a < b)) d.mir.dirty
  { n := d.mir.openCut, cause := cause, time := d.time, pages := pages, all := pages, record := d.cutRecord d.mir.openCut cause, sent := 0,
    closing := false, rings := d.guardedRings.map fun r => (r.1 * 16 + r.2, (d.ring r.1 r.2).sqHead, (d.ring r.1 r.2).cqTail) }

section
variable {w : Wk} {cause : Nat} (hasked : w.dev.mir.asked = some cause) (hlive : w.dev.mirLive = true) (hnone : w.dev.mir.cut = none)
include hasked hlive hnone

/-- A requested cut whose record fits is frozen, and the next number is open. The count of the pause is all that else changes. -/
theorem Wk.epochCut_freezes (hfits : (w.dev.cutRecord w.dev.mir.openCut cause).length ≤ 2 ^ 28) :
    ∃ ns, w.epochCut = w.upd fun d => (d.count d.leadHalf Reg.MIR_PAUSE_NS_LO ns).onMir fun m =>
      { m with asked := none, lastCause := cause, lastResult := 2, dirty := [], openCut := nextCut w.dev.mir.openCut, openBytes := 0,
               openAt := none, cut := some (w.dev.freezeCut cause) } := by
  simp only [Wk.epochCut, hasked, hlive, hnone, not_true_eq_false, Option.isSome_none, Bool.false_eq_true, or_self, if_false,
    if_neg (not_lt.2 hfits), gt_iff_lt, Dev.count_time]
  exact ⟨_, rfl⟩

theorem Wk.epochCut_tooLarge (hlong : 2 ^ 28 < (w.dev.cutRecord w.dev.mir.openCut cause).length) :
    w.epochCut = (w.upd fun d => d.onMir fun m => { m with asked := none, lastCause := cause, lastResult := 4 }).mirWake w.dev.mir.openCut false := by
  simp only [Wk.epochCut, hasked, hlive, hnone, not_true_eq_false, Option.isSome_none, Bool.false_eq_true, or_self, if_false, gt_iff_lt,
    if_pos hlong]

end

section
variable {w : Wk} {c : MirCut} (hcut : w.dev.mir.cut = some c)
include hcut

theorem Wk.pagePush_page {p : Nat} {l : List Nat} {v : Wk} (hpages : c.pages = p :: l) (hpush : w.mirPush p = some v) : w.pagePush = v := by
  simp only [Wk.pagePush, hcut, hpages, hpush, Option.getD_some]

theorem Wk.pagePush_record (hpages : c.pages = []) (hsent : c.sent = 0) :
    w.pagePush = w.upd fun d => (d.mirWrite (cutSlotOff c.n) (c.record ++ List.replicate ((32 - c.record.length % 32) % 32) 0)).onMir fun m =>
      { m with cut := some { c with sent := c.record.length } } := by
  simp only [Wk.pagePush, hcut, hpages, hsent, if_true]

theorem Wk.pagePush_close (hpages : c.pages = []) (hsent : c.sent ≠ 0) (hopen : c.closing = false)
    (hacked : (w.dev.dest w.dev.mir.partner).owes (fun t f => t.tc == 5 && (match f with | .engine _ => true | _ => false)) = false) :
    w.pagePush = w.upd fun d =>
      (d.mirMsg w.dev.mir.partner msgCutClose c.n c.record.length w.dev.mir.pos (w.dev.mir.openAt.getD w.dev.mir.pos)).onMir fun m =>
        { m with cut := some { c with closing := true } } := by
  have hwaits : ¬ (c.closing = true ∨
      (w.dev.dest w.dev.mir.partner).owes (fun t f => t.tc == 5 && (match f with | .engine _ => true | _ => false)) = true) := by
    rw [hopen, hacked]
    decide
  simp only [Wk.pagePush, hcut, hpages, if_neg hsent]
  exact if_neg hwaits

/-- While a cut drains, MIRROR_PAGE_PUSH pushes, and collectives that waited for a page go on. -/
theorem exec_mirrorPagePush {s : State} {now : Nat} (hw : s.start.at_ now = w) :
    exec (.mirrorPagePush now) s = .next (s.put w.pagePush.ceResume) := by
  subst hw
  refine congrArg (finish s) (if_neg ?_)
  rw [hcut]
  exact Bool.false_ne_true

end

/-- Settles O44: a cut is taken, ended or asked for as its request, its record's length and the interval say; a push is of a page while one
is frozen, then of the record, then of CUT_CLOSE. When CUT_CLOSE goes is the model's choice (assumption 39), and so is that a TOO_LARGE
cut keeps its number and that an interval asks for none while one is asked or drains (assumption 40). -/
theorem cutsAreTakenAndPushed : Obligations.CutsAreTakenAndPushed := by
  intro s now w d m
  refine ⟨fun cause hasked hlive hnone hfits => ?freezes, fun cause hasked hlive hnone hlong => ?tooLarge, ?interval,
    fun c p l v hcut hpages hpush => ?page, fun c hcut hpages hsent => ?record, fun c hcut hpages hsent hopen hacked => ?close⟩
  case freezes =>
    obtain ⟨ns, hcut⟩ := Wk.epochCut_freezes (w := w) hasked hlive hnone hfits
    exact ⟨_, w.dev.freezeCut cause, congrArg (finish s) hcut, rfl, rfl, rfl, rfl, rfl, rfl, rfl, rfl, rfl, rfl⟩
  case tooLarge => exact congrArg (finish s) (Wk.epochCut_tooLarge (w := w) hasked hlive hnone hlong)
  case interval =>
    intro ms hms hdue hnone hasked
    refine congrArg (finish s) (if_neg ?_)
    rintro (hzero | hearly | hsome | hsome)
    · exact hms hzero
    · exact absurd hdue (not_le.2 hearly)
    · exact absurd (show m.cut.isSome = true from hsome) (by simp [hnone])
    · exact absurd (show m.asked.isSome = true from hsome) (by simp [hasked])
  case page => rw [exec_mirrorPagePush (w := w) hcut rfl, Wk.pagePush_page (w := w) hcut hpages hpush]
  case record => rw [exec_mirrorPagePush (w := w) hcut rfl, Wk.pagePush_record (w := w) hcut hpages hsent]
  case close =>
    rw [exec_mirrorPagePush (w := w) hcut rfl, Wk.pagePush_close (w := w) hcut hpages hsent hopen hacked]
    rfl

/-! ### Messages of the Mirror (R424, R473 to R479) -/

section
variable {w : Wk} {src : Nat}

/-- A device that no half hosts is refused. -/
theorem Wk.helloIn_refuses (hnone : w.dev.hostOf src = none) :
    w.helloIn src = w.upd fun d => d.mirMsg src msgHelloReply 0 0 0 0 := by
  simp only [Wk.helloIn, hnone]

/-- A hosted device's copy starts anew, and its area is the answer. -/
theorem Wk.helloIn_restarts {h : Half} {x : MirHost} (hhost : w.dev.hostOf src = some h) (hx : w.dev.mir.host.get h = x) :
    w.helloIn src = (((w.upd fun d => d.onMir fun m =>
        { m with host := m.host.set h { x with read := 0, wrote := 0, tapRead := 0, tapWrote := 0, closed := 0, plans := [] } }).wr
      (x.base + mapOff) (List.replicate (mapBytes x.slots) 0)).hostHeader h).upd fun d =>
        d.mirMsg src msgHelloReply 1 x.slots x.gib h.code := by
  simp only [Wk.helloIn, hhost, hx]

/-- The first answer of the enabled partner: a refusal is noted, or the area is and the first full copy begins. -/
theorem Wk.helloReply_first (hpartner : w.dev.mir.partner = src) (henabled : bit (w.dev.rn w.dev.leadHalf Reg.MIR_PARTNER) 31 = true)
    (hfirst : w.dev.mir.slots = 0) (ok slots gib area : Nat) :
    w.helloReply src ok slots gib area = if ok = 0 then w.mirState 6 false
      else (w.upd fun d => d.onMir fun m =>
        { m with slots := slots, ring := gib * 2 ^ 29, area := area, pos := 0, tail := 0, map := [], dirty := [], openBytes := 0,
                 openAt := none }).mirSync := by
  simp only [Wk.helloReply, hpartner, henabled, hfirst, ne_eq, not_true_eq_false, or_self, if_false]

/-- The record of a cut that stands in a hosted copy is sound. -/
def Wk.cutSound (w : Wk) (h : Half) (n len : Nat) : Prop :=
  let rec_ := w.rdN ((w.dev.mir.host.get h).base + cutSlotOff n) len
  64 ≤ len ∧ len ≤ 2 ^ 28 ∧ fld rec_ 0 4 = 0x4D495243 ∧ fld rec_ 4 4 = n ∧ fld rec_ 56 4 = len
    ∧ crc32c (rec_.take 60 ++ toBytes 4 0 ++ rec_.drop 64) = fld rec_ 60 4

section
variable {h : Half} {n len : Nat} (hhost : w.dev.hostOf src = some h)
include hhost

theorem Wk.cutCloseIn_damaged (hbad : ¬ w.cutSound h n len) (end_ free : Nat) : w.cutCloseIn src n len end_ free = (w, stTileCrc) := by
  simp only [Wk.cutCloseIn, hhost]
  refine if_pos fun hgood => hbad ?_
  simpa [Wk.cutSound, and_assoc] using hgood

theorem Wk.cutCloseIn_sound (hgood : w.cutSound h n len) (end_ free : Nat) : (w.cutCloseIn src n len end_ free).2 = stOk := by
  simp only [Wk.cutCloseIn, hhost]
  refine (congrArg Prod.snd (if_neg (not_not.2 ?_))).trans rfl
  simpa [Wk.cutSound, and_assoc] using hgood

end

end

/-- Settles O45: each message is new, so that what its receiver makes of it is done and its status marked. The layouts of the messages
are the model's (assumption 39), and so is that HELLO restarts the copy (assumption 40). -/
theorem mirrorMessagesAct : Obligations.MirrorMessagesAct := by
  intro s port now t w hfresh
  refine ⟨fun harr => ⟨fun hnone => ?refuses, fun h hhost => ?restarts⟩, fun harr hpartner henabled hfirst => ?reply,
    fun h harr hhost => ?close, fun harr hsrc => ?tap⟩
  case refuses =>
    refine (finish_onTxn harr fun w t => w.request port t fun w => (w.helloIn t.src, stOk)).trans ?_
    rw [Wk.request_fresh hfresh rfl, Wk.helloIn_refuses hnone]
  case restarts =>
    intro x v
    refine (finish_onTxn harr fun w t => w.request port t fun w => (w.helloIn t.src, stOk)).trans ?_
    rw [Wk.request_fresh hfresh rfl, Wk.helloIn_restarts hhost rfl]
  case reply =>
    refine (finish_onTxn harr fun w t => w.request port t fun w =>
      (w.helloReply t.src (fld t.data 8 8) (fld t.data 16 8) (fld t.data 24 8) (fld t.data 32 8), stOk)).trans ?_
    rw [Wk.request_fresh hfresh rfl, Wk.helloReply_first hpartner henabled hfirst]
  case close =>
    intro len n rec_ good
    have hcloses := finish_onTxn harr fun w t => w.request port t fun w =>
      w.cutCloseIn t.src (fld t.data 8 8) (fld t.data 16 8) (fld t.data 24 8) (fld t.data 32 8)
    refine ⟨fun hbad => hcloses.trans ?damaged, fun hgood => hcloses.trans ?sound⟩
    case damaged => rw [Wk.request_fresh_refused hfresh (Wk.cutCloseIn_damaged hhost hbad ..) (by decide)]
    case sound => rw [Wk.request_fresh hfresh (Prod.ext rfl (Wk.cutCloseIn_sound hhost hgood ..))]
  case tap =>
    refine (finish_onTxn harr fun w t => w.request port t fun w =>
      if t.src = w.dev.mir.partner then (w.tapEnds (fld t.data 8 8) (fld t.data 16 8) (decide (fld t.data 24 8 = stOk)), stOk)
      else (w, stDenied)).trans ?_
    rw [Wk.request_fresh hfresh (if_pos hsrc)]

/-! ### The end of a restore (R481, R482, R484) -/

/-- The working state in which a restore's rings and instances are back and every job's remote access is open. -/
def Wk.restoredFrom (w : Wk) (r : MirRestore) : Wk :=
  let x := cutSections r.record r.job
  ((x.rings.foldl (fun w b => w.upd (·.ringBack b)) w).reinstateAll r.job x.count x.insts).upd fun d => d.onHost fun s =>
    { s with jobs := s.jobs.map fun j => (j.1, { j.2 with remote := true }) }

section
variable {w : Wk} {r : MirRestore} (hr : w.dev.mir.restore = some r)
include hr

theorem Wk.restoreDone_ends (hstep : r.step = 5) : w.restoreDone = (w.restoredFrom r).restoreEnd 2 := by
  simp only [Wk.restoreDone, hr, hstep, ne_eq, not_true_eq_false, if_false]
  rfl

theorem Wk.restoreDone_early (hstep : r.step ≠ 5) : w.restoreDone = w := by
  simp only [Wk.restoreDone, hr, if_pos hstep]

end

/-! ### The timers of a start broadcast (R502 to R505) -/

section
variable {d : Dev} {w : Wk} {x : JStart}

/-- A member short of chunks that is not asking already asks its parent, and pulls. -/
theorem Dev.startPoll_asks (hx : d.start = some x) (hme : x.me ≠ 0) (hshort : x.have_ ≠ x.k) (hidle : x.asking = false) :
    d.startPoll = ((d.readSector x x.parent).onStart fun x => { x with asking := true }).startPull := by
  simp only [Dev.startPoll, hx, hme, hshort, hidle, or_self, if_false, Bool.false_eq_true]

/-- A member whose parent has stood still takes its grandparent. -/
theorem Wk.startParent_climbs (hx : w.dev.start = some x) (hme : x.me ≠ 0) (hshort : x.have_ < x.k)
    (hdue : x.movedAt + w.dev.startTimeout ≤ w.dev.time) (hparent : x.parent ≠ 0) :
    w.startParent = w.upd fun d => (d.onStart fun y =>
      { y with parent := (x.parent - 1) / x.fan, out := [], tableLeft := none, seen := none, seenTable := false, movedAt := d.time,
               asking := false }).startStatus 1 0 ((x.parent - 1) / x.fan) := by
  simp only [Wk.startParent, hx, if_pos (And.intro hme (And.intro hshort hdue)), Wk.parentLost, if_neg hme, if_neg hparent]

/-- A child that is neither lost nor done. -/
def Wk.openChild (w : Wk) (x : JStart) (c : Nat) : Bool :=
  decide (¬ x.lost.contains c ∧ bits (ofBytes (w.rdN (x.base + x.sectorOff c) 4)) 28 4 ≠ 3)

/-- Before a member holds every chunk, the sectors of its open children are read. -/
theorem Wk.startChildren_reads (hx : w.dev.start = some x) (hshort : x.allAt = none) :
    w.startChildren = ((x.children.filter (w.openChild x)).foldl (fun w c => w.upd fun d => d.readSector x c) w).startCheck := by
  simp only [Wk.startChildren, hx, hshort, Bool.false_eq_true, if_false]
  rfl

end

/-- Settles O46: a restore or a start under way decides what its timer does. -/
theorem restoreAndStartTimers : Obligations.RestoreAndStartTimers := by
  refine ⟨fun s now r => ?restore, fun s now x => ?start⟩
  case restore =>
    intro w hr
    refine ⟨fun hstep => ?done, fun hstep => ?early⟩
    case done => exact congrArg (finish s) (Wk.restoreDone_ends (w := w) hr hstep)
    case early => exact congrArg (finish s) (Wk.restoreDone_early (w := w) hr hstep)
  case start =>
    intro w d hx
    exact ⟨fun hme hshort hidle => onDev_devAt (·.startPoll) (Dev.startPoll_asks hx hme hshort hidle),
      fun hme hshort hdue hparent => congrArg (finish s) (Wk.startParent_climbs (w := w) hx hme hshort hdue hparent),
      fun hshort => congrArg (finish s) (Wk.startChildren_reads (w := w) hx hshort)⟩

end Sys2Proof.Machine
end

section
/-! PROOFS. Piccolo, the self-test of the facets (R534 to R537). -/

namespace Sys2Proof.Machine

open Sys2Proof

section
variable {d : Dev} {f : Nat}

/-- A slice starts on a facet that is enabled, has been idle for 20 µs and is wanted by nothing soon. -/
theorem Dev.sliceStart_starts (hready : d.top.ready = true) (hruns : d.top.stopped = false)
    (hon : bit (d.rn (facetHalf f) Reg.DBG_SELFTEST_CFG) 31 = true) (hidle : d.facetIdle f = true)
    (hlong : (d.picOf f).idleAt + 20000 ≤ d.time) (hnext : (d.picOf f).next < 64) (hfree : d.wantedByReady f = false)
    (htick : d.tickNear = false) :
    d.sliceStart f = d.onPic f fun p => { p with slice := some (p.next, false), sliceAt := d.time } := by
  simp only [Dev.sliceStart, hready, hruns, hon, hidle, hlong, hnext, hfree, htick, Bool.false_eq_true, not_false_eq_true, and_self, if_true]

/-- An idle quarantined facet starts its forced run. -/
theorem Dev.forcedRotation_starts (hready : d.top.ready = true) (hruns : d.top.stopped = false) (hon : d.facetOn f = true)
    (hquar : (d.picOf f).quar = true) (hslice : (d.picOf f).slice = none) (hrun : d.run f = none) :
    d.forcedRotation f = (d.onPic f fun p => { p with slice := some (p.redo.getD 0, true), sliceAt := d.time }).count (facetHalf f)
      Reg.DBG_SELFTEST_FORCED_LO 1 := by
  simp only [Dev.forcedRotation, hready, hruns, hon, hquar, hslice, hrun, Bool.false_eq_true, not_false_eq_true, Option.isNone_none,
    and_self, if_true]

/-- One facet of a half whose period ends: it is overdue unless it has had its rotation, and a rotation starts anew. -/
def Dev.periodEnds (h : Half) (cfg : Nat) (e : Dev) (f : Nat) : Dev :=
  let n := if (e.picOf f).rotated then 0 else (e.picOf f).overdue + 1
  (if (e.picOf f).rotated then e else e.count h Reg.DBG_SELFTEST_OVERDUE_LO 1).onPic f fun p =>
    { p with rotated := false, next := 0, overdue := n, quar := p.quar || decide (bits cfg 16 4 ≤ n) }

theorem Dev.piccoloPeriod_ends {h : Half} {cfg : Nat} (hcfg : d.rn h Reg.DBG_SELFTEST_CFG = cfg) (hready : d.top.ready = true)
    (hon : bit cfg 31 = true) (hdue : d.picAt.get h + bits cfg 0 16 * 1000000000 ≤ d.time) :
    d.piccoloPeriod h = ((facetsOf h).filter d.facetOn).foldl (Dev.periodEnds h cfg) { d with picAt := d.picAt.set h d.time } := by
  simp only [Dev.piccoloPeriod, hcfg, hready, hon, not_true_eq_false, false_or, if_neg (not_lt.2 hdue)]
  rfl

theorem Dev.retireList_appends (hretired : (d.picOf f).retired = true) (hnew : d.top.flash.retired.contains f = false) :
    d.retireList f = d.onTop fun t => { t with flash := { t.flash with retired := t.flash.retired ++ [f] } } := by
  simp only [Dev.retireList, hretired, hnew, Bool.false_eq_true, not_false_eq_true, and_self, if_true]

end

section
variable {w : Wk} {f k : Nat} (hdue : (w.dev.picOf f).sliceAt + 40000 ≤ w.dev.time)
include hdue

/-- A periodic slice that ends counts, a failure too, and the failed slice is due again by force. -/
theorem Wk.sliceEnd_periodic (hslice : (w.dev.picOf f).slice = some (k, false)) (pass : Bool) :
    w.sliceEnd f pass = w.upd fun d =>
      (let c := (d.sliceWaits f).count (facetHalf f) Reg.DBG_SELFTEST_SLICES_LO 1
       if pass then c else c.count (facetHalf f) Reg.DBG_SELFTEST_FAILS_LO 1).onPic f fun p =>
        { p with slice := none, next := k + 1, rotated := p.rotated || (pass && k + 1 == 64), quar := p.quar || !pass,
                 redo := if pass then p.redo else some k } := by
  simp only [Wk.sliceEnd, hslice, if_neg (not_lt.2 hdue), Bool.false_eq_true, if_false]
  cases pass <;> rfl

/-- A forced slice that fails retires its facet. -/
theorem Wk.sliceEnd_forced (hslice : (w.dev.picOf f).slice = some (k, true)) :
    w.sliceEnd f false =
      ((w.upd fun d => d.count (facetHalf f) Reg.DBG_SELFTEST_SLICES_LO 1).upd (·.count (facetHalf f) Reg.DBG_SELFTEST_FAILS_LO 1)).retire f := by
  simp only [Wk.sliceEnd, hslice, if_neg (not_lt.2 hdue), Bool.false_eq_true, if_false, if_true, Bool.not_false]

end

/-- Settles O47: each event meets its own test, and what the slice's verdict or the period's end says of the facet is done. -/
theorem piccoloTestsFacets : Obligations.PiccoloTestsFacets := by
  intro s f now pass hf w d h p
  refine ⟨fun hready hruns hon hidle hlong hnext hfree htick => ?starts, fun k hslice hdue => ?periodic, fun k hslice hdue => ?retires,
    fun hready hruns hon hquar hslice hrun => ?forced, fun hready hon hdue => ?period, fun hretired hnew => ?appends⟩
  case starts => exact onDev_devAt (·.sliceStart f) (Dev.sliceStart_starts hready hruns hon hidle hlong hnext hfree htick)
  case periodic => exact congrArg (finish s) (Wk.sliceEnd_periodic (w := w) hdue hslice pass)
  case retires => exact congrArg (finish s) (Wk.sliceEnd_forced (w := w) hdue hslice)
  case forced => exact onDev_devAt (·.forcedRotation f) (Dev.forcedRotation_starts hready hruns hon hquar hslice hrun)
  case period => exact onDev_devAt (·.piccoloPeriod hf) (Dev.piccoloPeriod_ends rfl hready hon hdue)
  case appends => exact onDev_devAt (·.retireList f) (Dev.retireList_appends hretired hnew)

end Sys2Proof.Machine
end

section
/-! PROOFS. A set-up write dropped for parity (R455). -/

namespace Sys2Proof.Machine

open Sys2Proof

/-- What an event for one function's ring keeps of the device: anything that no change of a function's state, no message and no count of
lost events touches. -/
theorem Wk.postTo_keeps {γ : Type} (p : Dev → γ) (hfunc : ∀ (d : Dev) fn x, p (d.setFunc fn x) = p d) (hemit : ∀ (d : Dev) o, p (d.emit o) = p d)
    (hlost : ∀ (d : Dev) h, p (d.count h Reg.HOST_EVENTS_LOST_LO 1) = p d) (w : Wk) (fn : Nat) (e : Event) :
    p (w.postTo fn e).dev = p w.dev := by
  have hfire (d : Dev) (v : Nat) : p (d.fireVec fn v) = p d := by
    simp only [Dev.fireVec, Dev.setVec]
    split
    · exact hfunc ..
    · exact (hemit ..).trans (hfunc ..)
  have hraise (d : Dev) (v us : Nat) : p (d.raise fn v us) = p d := by
    simp only [Dev.raise, Dev.setVec]
    split
    · exact hfire ..
    · exact hfunc ..
  have hput (w : Wk) (e : Event) : p (w.putEvent fn e).dev = p w.dev := (hraise ..).trans (hfunc ..)
  have hreport : p (w.reportLost fn).dev = p w.dev := by
    simp only [Wk.reportLost]
    split
    · exact (hput ..).trans (hfunc ..)
    · rfl
  simp only [Wk.postTo]
  split
  · rfl
  · split
    · exact (hput ..).trans hreport
    · exact ((hlost ..).trans (hfunc ..)).trans hreport

/-- An event of no class that is not of the whole device goes to its function's ring alone. -/
theorem Wk.post_unclassed {e : Event} (hfn : e.deviceWide = false) (hcls : e.cls = 0) (w : Wk) (h : Half) (fn : Nat) :
    w.post h fn e = w.postTo fn e := by
  simp [Wk.post, hfn, hcls]

theorem findRow_lt {off : Nat} {row : RegRow} (hrow : findRow off = some row) : off < 0x400000 := by
  by_contra hout
  have hrows : rowsAt off = [] := by
    unfold rowsAt
    rw [if_neg (by omega), if_neg (by omega), if_neg (by omega), if_neg (by omega), if_neg (by omega), if_neg (by omega), if_neg (by omega),
      if_neg (by omega), if_neg (by omega), if_neg (by omega), if_neg (by omega), if_neg (by omega), if_neg (by omega), if_neg (by omega)]
  simp [findRow, hrows] at hrow

/-- The rows of the count of lost events start at their own offsets. -/
theorem findRow_eventsLost :
    (findRow Reg.HOST_EVENTS_LOST_LO).map (·.off) = some Reg.HOST_EVENTS_LOST_LO ∧
      (findRow (Reg.HOST_EVENTS_LOST_LO + 4)).map (·.off) = some Reg.HOST_EVENTS_LOST_HI := by
  decide

/-- A count of lost events moves no register of another row. -/
theorem Dev.reg_countLost {o : Nat} {r : RegRow} (hrow : findRow o = some r) (hlo : r.off ≠ Reg.HOST_EVENTS_LOST_LO)
    (hhi : r.off ≠ Reg.HOST_EVENTS_LOST_HI) (d : Dev) (h k : Half) : (d.count h Reg.HOST_EVENTS_LOST_LO 1).reg k o = d.reg k o := by
  have hrows := findRow_eventsLost
  refine d.reg_count_ne h k 1 (by decide) (lt_trans (findRow_lt hrow) (by decide)) ?_ ?_
  · rintro rfl
    rw [hrow] at hrows
    exact hlo (Option.some.inj hrows.1)
  · rintro rfl
    rw [hrow] at hrows
    exact hhi (Option.some.inj hrows.2)

/-- Settles O60: the report posts an event of no class to one ring, and posting one touches the function's state, messages and the count of
lost events alone. -/
theorem parityDropIsReported : Obligations.ParityDropIsReported := by
  intro s h island fn off seq i detail now
  have hpost : (s.start.at_ now).report h island (.droppedWrite fn off) seq i detail =
      (s.start.at_ now).postTo fn { kind := 1, status := stParity, island := island, d0 := off } :=
    Wk.post_unclassed (e := { kind := 1, status := stParity, island := island, d0 := off }) rfl rfl _ h fn
  refine ⟨_, rfl, rfl, ?tgu, fun k r o hrow hlo hhi => ?reg⟩
  case tgu =>
    refine (congrArg (fun w : Wk => w.dev.tgu) hpost).trans ?_
    exact Wk.postTo_keeps Dev.tgu (fun _ _ _ => rfl) (fun _ _ => rfl) (fun d h => d.count_tgu h _ _) _ fn _
  case reg =>
    refine (congrArg (fun w : Wk => w.dev.reg k o) hpost).trans ?_
    exact Wk.postTo_keeps (·.reg k o) (fun _ _ _ => rfl) (fun _ _ => rfl) (fun d h => d.reg_countLost hrow hlo hhi h k) _ fn _

end Sys2Proof.Machine
end

section
/-! PROOFS. Power and reset as the package's pins say, boot, election, training and the baseline (R489 to R498, R533). -/

namespace Sys2Proof.Machine

open Sys2Proof

@[simp] theorem Both.get_set_other {α : Type} (b : Both α) (h : Half) (x : α) : (b.set h x).get h.other = b.get h.other := by
  cases h <;> rfl

section
variable (d : Dev) (h : Half)

@[simp] theorem Dev.onLead_get (f : LeadView → LeadView) : (d.onLead h f).top.lead.get h = f (d.top.lead.get h) := Both.get_set ..
@[simp] theorem Dev.onLead_get_other (f : LeadView → LeadView) : (d.onLead h f).top.lead.get h.other = d.top.lead.get h.other :=
  Both.get_set_other ..
@[simp] theorem Dev.onLead_sc (f : LeadView → LeadView) : (d.onLead h f).top.sc = d.top.sc := rfl
@[simp] theorem Dev.onLead_portLead (f : LeadView → LeadView) : (d.onLead h f).top.portLead = d.top.portLead := rfl
@[simp] theorem Dev.onSc_lead (x : Half) (f : Sc → Sc) : (d.onSc x f).top.lead = d.top.lead := rfl
@[simp] theorem Dev.onSc_get (f : Sc → Sc) : (d.onSc h f).top.sc.get h = f (d.top.sc.get h) := Both.get_set ..
@[simp] theorem Dev.scFault_lead (x : Half) : (d.scFault x).top.lead = d.top.lead := rfl
@[simp] theorem Dev.scFault_sc (x : Half) : (d.scFault x).top.sc = d.top.sc := rfl
@[simp] theorem Dev.ibi_lead (x : Half) (b : Nat) : (d.ibi x b).top.lead = d.top.lead := by
  simp only [Dev.ibi, Dev.onTop_top]
  split <;> rfl
@[simp] theorem Dev.ibi_sc (x : Half) (b : Nat) : (d.ibi x b).top.sc = d.top.sc := by
  simp only [Dev.ibi, Dev.onTop_top]
  split <;> rfl
@[simp] theorem Dev.toBmc_lead (x : Half) (c : Nat) (bs : List Byte) : (d.toBmc x c bs).top.lead = d.top.lead := by simp [Dev.toBmc]
@[simp] theorem Dev.toBmc_sc (x : Half) (c : Nat) (bs : List Byte) : (d.toBmc x c bs).top.sc = d.top.sc := by simp [Dev.toBmc]
@[simp] theorem Dev.leadRequest_sc (x : Half) (kind : Nat) : (d.leadRequest x kind).top.sc = d.top.sc := by simp [Dev.leadRequest]

/-- Storing registers one after another leaves the package state alone. -/
theorem Dev.foldl_setReg_top (l : List Nat) (half : Nat → Half) (off : Nat → Nat) (v : Nat → Word32) :
    (l.foldl (fun d b => d.setReg (half b) (off b) (v b)) d).top = d.top :=
  foldl_keeps Dev.top _ (fun d b => d.setReg_top (half b) (off b) (v b)) l d

/-- Loading the board record changes the flash, mem clk and the stage of the package state alone. -/
theorem Dev.loadBoard_top : ∃ flash clk, d.loadBoard.top = { d.top with flash := flash, memClk := clk, stage := .training } := by
  simp only [Dev.loadBoard, Dev.onHost_top, Dev.foldl_setReg_top, Dev.setReg_top, Dev.onTop_top]
  exact ⟨_, _, rfl⟩

/-- The device once a half has taken the preferred lead with TERM 1. -/
def Dev.electWon : Dev :=
  (d.onLead h fun v => { v with st := .normal, lead := v.pref, term := 1, lastValid := d.time }).onTop fun t =>
    { t with portLead := some (d.top.lead.get h).pref }

/-- A half that has won loads the board record once the other half is in NORMAL too. -/
def Dev.electNormal : Dev :=
  if ((d.electWon h).top.lead.get h.other).st = .normal then (d.electWon h).loadBoard else d.electWon h

@[simp] theorem Dev.electNormal_lead : (d.electNormal h).top.lead = (d.electWon h).top.lead := by
  simp only [Dev.electNormal]
  split
  · obtain ⟨flash, clk, htop⟩ := (d.electWon h).loadBoard_top
    rw [htop]
  · rfl

@[simp] theorem Dev.electNormal_portLead : (d.electNormal h).top.portLead = some (d.top.lead.get h).pref := by
  simp only [Dev.electNormal]
  split
  · obtain ⟨flash, clk, htop⟩ := (d.electWon h).loadBoard_top
    rw [htop]
    rfl
  · rfl

@[simp] theorem Dev.electNormal_sc : (d.electNormal h).top.sc = d.top.sc := by
  simp only [Dev.electNormal]
  split
  · obtain ⟨flash, clk, htop⟩ := (d.electWon h).loadBoard_top
    rw [htop]
    rfl
  · rfl

theorem Dev.electWon_get : (d.electWon h).top.lead.get h =
    { d.top.lead.get h with st := .normal, lead := (d.top.lead.get h).pref, term := 1, lastValid := d.time } :=
  Both.get_set ..

/-- What a decision of the election can do: nothing yet, ask for a takeover, wait for one, report unequal digests, or take the lead. -/
theorem Dev.decideElection_cases :
    d.decideElection h = d
    ∨ (d.decideElection h = (d.leadRequest h 2).onLead h fun v => { v with lapseAt := some d.time })
    ∨ (d.decideElection h = d.onLead h fun v => { v with lapseAt := some (v.lapseAt.getD d.time) })
    ∨ (d.decideElection h = (d.emit (.report h 1)).scFault h)
    ∨ d.decideElection h = d.electNormal h := by
  unfold Dev.decideElection
  extract_lets v sc
  by_cases hidle : sc.st ≠ .booted ∨ v.st ≠ .electing ∨ v.granted ∨ v.reqKind ≠ 0
  · exact .inl (if_pos hidle)
  rw [if_neg hidle]
  cases hpeer : v.peerElect with
  | none => exact .inl rfl
  | some e =>
    obtain ⟨hl, dg⟩ := e
    dsimp only
    split
    · exact .inr (.inl rfl)
    split
    · exact .inr (.inr (.inl rfl))
    split
    · exact .inr (.inr (.inr (.inl rfl)))
    · exact .inr (.inr (.inr (.inr rfl)))

/-- A decision of the election leaves both SCs as they are. -/
@[simp] theorem Dev.decideElection_sc : (d.decideElection h).top.sc = d.top.sc := by
  rcases d.decideElection_cases h with hd | hd | hd | hd | hd <;> simp [hd]

/-- A decision of the election leaves the time of the half's own ELECT. -/
@[simp] theorem Dev.decideElection_electAt : ((d.decideElection h).top.lead.get h).electAt = (d.top.lead.get h).electAt := by
  rcases d.decideElection_cases h with hd | hd | hd | hd | hd <;> simp [hd, Dev.leadRequest, Dev.electWon_get]

/-- A booted half whose good peer carries the same digest takes the lead. -/
theorem Dev.decideElection_wins (hboot : (d.top.sc.get h).st = .booted) (hst : (d.top.lead.get h).st = .electing)
    (hgrant : (d.top.lead.get h).granted = false) (hreq : (d.top.lead.get h).reqKind = 0) (hhealth : (d.top.lead.get h).health = 0)
    (hpeer : (d.top.lead.get h).peerElect = some (0, (d.top.sc.get h).digest % 2 ^ 32)) : d.decideElection h = d.electNormal h := by
  unfold Dev.decideElection
  simp only [hboot, hst, hgrant, hreq, hpeer, hhealth, ne_eq, not_true_eq_false, Bool.false_eq_true, or_self, if_false, zero_ne_one]
  rfl

/-! ### Boot (R495, R496, R533) -/

section
variable {d h} (hstart : (d.top.sc.get h).st = .starting) (hreset : d.top.resetN = true)
  (hturn : h = .east → d.top.sc.w.st ≠ .starting)
include hstart hreset hturn

/-- Nothing holds a starting SC back. -/
theorem Dev.scBoot_goes : ¬ ((d.top.sc.get h).st ≠ .starting ∨ ¬ d.top.resetN = true ∨ (h = .east ∧ d.top.sc.w.st = .starting)) := by
  rintro (hst | hr | ⟨heast, hwest⟩)
  · exact hst hstart
  · exact hr hreset
  · exact hturn heast hwest

/-- An SC whose first image verifies boots it and sends its ELECT. -/
theorem Dev.scBoot_boots {k : Half} {b : Option Half} (horder : bootOrder d.top = (some k, b)) (second : Bool) :
    ((d.scBoot h true true second).top.sc.get h).st = .booted ∧ ((d.scBoot h true true second).top.sc.get h).slot = k
      ∧ ((d.scBoot h true true second).top.lead.get h).electAt.isSome = true := by
  simp only [Dev.scBoot, if_neg (Dev.scBoot_goes hstart hreset hturn), horder, Option.isSome_some, Bool.and_true, if_true,
    Dev.decideElection_sc, Dev.decideElection_electAt]
  simp [Dev.sendElect]

/-- An SC whose self-test fails is left in its error state. -/
theorem Dev.scBoot_fails (first second : Bool) :
    ((d.scBoot h false first second).top.sc.get h).st = .error ∧ (d.scBoot h false first second).top.lead = d.top.lead := by
  simp only [Dev.scBoot, if_neg (Dev.scBoot_goes hstart hreset hturn), Bool.false_eq_true, if_false]
  split <;> simp

end

end

/-! ### The election (R496, R497) -/

/-- The first ELECT of a good peer with this half's digest makes the half take the lead. -/
theorem Dev.elect_wins {d : Dev} {h : Half} {m : List Byte} {a dg c : Nat} (hmsg : parseBridge m = some (a, dg, c)) (hkind : a / 2 ^ 24 = 1)
    (hfrom : a % 2 = h.other.code) (hgood : bits a 2 1 = 0) (hdg : dg = (d.top.sc.get h).digest % 2 ^ 32) (hboot : (d.top.sc.get h).st = .booted)
    (hst : (d.top.lead.get h).st = .electing) (hgrant : (d.top.lead.get h).granted = false) (hreq : (d.top.lead.get h).reqKind = 0)
    (hhealth : (d.top.lead.get h).health = 0) (hfirst : (d.top.lead.get h).peerElect ≠ some (0, dg)) :
    d.elect h m = (d.onLead h fun v => { v with peerElect := some (0, dg) }).electNormal h := by
  have htaken : ¬ (a / 2 ^ 24 ≠ 1 ∨ a % 2 ≠ h.other.code ∨ (d.top.lead.get h).granted = true ∨ (d.top.lead.get h).st ≠ .electing
      ∨ (d.top.lead.get h).peerElect = some (0, dg)) := by
    simp only [hkind, hfrom, hgrant, hst, hfirst, ne_eq, not_true_eq_false, Bool.false_eq_true, or_self, not_false_eq_true]
  simp only [Dev.elect, hmsg, hgood, if_neg htaken]
  refine Dev.decideElection_wins _ h ?_ ?_ ?_ ?_ ?_ ?_
  all_goals simp [hboot, hst, hgrant, hreq, hhealth, hdg]

/-- A half that has waited 200 ms for a peer's ELECT asks the BMC for a takeover. -/
theorem Dev.electTimeout_asks {d : Dev} {h : Half} {t : Nat} (hsent : (d.top.lead.get h).electAt = some t) (hst : (d.top.lead.get h).st = .electing)
    (hpeer : (d.top.lead.get h).peerElect = none) (hreq : (d.top.lead.get h).reqKind = 0) (hgrant : (d.top.lead.get h).granted = false)
    (hlong : t + 200000000 ≤ d.time) : d.electTimeout h = (d.leadRequest h 2).onLead h fun v => { v with lapseAt := some d.time } := by
  simp [Dev.electTimeout, hsent, hst, hpeer, hreq, hgrant, hlong]

/-! ### Training and the baseline (R492, R498) -/

/-- With every needed stack trained, the stage is BASELINE. -/
theorem Wk.stackTraining_trained {w : Wk} {up : BitVec 16} (hstage : w.dev.top.stage = .training) (hruns : w.dev.top.stopped = false)
    (hup : ∀ k ∈ w.dev.stacksNeeded, bit up.toNat k = true) :
    w.stackTraining up = w.upd fun d => d.onTop fun t => { t with stackUp := up.toNat, stage := .baseline } := by
  have hall : ((w.upd fun d => d.onTop fun t => { t with stackUp := up.toNat }).dev.stacksNeeded.find? fun k => ¬ bit up.toNat k) = none := by
    rw [List.find?_eq_none]
    exact fun k hk => by simp [hup k hk]
  have hgoes : ¬ (w.dev.top.stage ≠ .training ∨ w.dev.top.stopped = true) := by simp [hstage, hruns]
  simp only [Wk.stackTraining, if_neg hgoes, hall]
  rfl

/-- The end of the baseline rotation retires the failing facets, and then changes the package state alone: READY is set. -/
theorem Wk.baseline_readies {w : Wk} (failed : List Nat) (hstage : w.dev.top.stage = .baseline) (hruns : w.dev.top.stopped = false) :
    (w.baseline failed).dev.top.ready = true ∧ (w.baseline failed).dev.top.stage = .ready ∧ (w.baseline failed).dev.top.baselineDone = true
      ∧ (w.baseline failed).dev.pic = ((failed.filter w.dev.facetOn).foldl (fun w f => w.retire f) w).dev.pic := by
  have hgoes : ¬ (w.dev.top.stage ≠ .baseline ∨ w.dev.top.stopped = true) := by simp [hstage, hruns]
  simp only [Wk.baseline, if_neg hgoes]
  exact ⟨rfl, rfl, rfl, rfl⟩

/-! ### The pins (R490, R491) -/

section
variable (d : Dev)

/-- A reset leaves RESET_N at the level it was given. -/
theorem Dev.coldAgain_resetN (pref : Half) (level : Bool) : (d.coldAgain pref level).top.resetN = level := rfl

theorem Dev.powerRise_pwrGood : d.powerRise.top.pwrGood = true := by
  simp only [Dev.powerRise]
  split
  · assumption
  · rfl

theorem Dev.powerFall_pwrGood : d.powerFall.top.pwrGood = false := by
  simp only [Dev.powerFall]
  split
  next hlow => simpa using hlow
  next => rfl

theorem Dev.resetAssert_resetN : d.resetAssert.top.resetN = false := by
  simp only [Dev.resetAssert]
  split
  next => exact d.coldAgain_resetN .west false
  next hlow => simpa using hlow

theorem Dev.resetRelease_resetN (pref : Half) (hpower : d.top.pwrGood = true) : (d.resetRelease pref).top.resetN = true := by
  simp only [Dev.resetRelease]
  split
  next => exact d.coldAgain_resetN pref true
  next hhigh => simpa [hpower] using hhigh

end

/-- Settles O42: each timed step is computed on the device at the command's time, and an election that the half wins is the case of
`Dev.decideElection` that `Dev.electNormal` names. -/
theorem bootAndElection : Obligations.BootAndElection := by
  unfold Obligations.BootAndElection
  intro s h now
  refine ⟨fun hstart hreset hturn => ⟨fun k b second horder => ?boots, fun a b => ?fails⟩,
    fun m a dg c hmsg hkind hfrom hgood hdg hboot hst hgrant hreq hhealth hfirst => ?wins,
    fun t hsent hst hpeer hreq hgrant hlong => ?timeout, fun up hstage hruns hup => ?trained, fun failed hstage hruns => ?ready,
    ⟨_, onDev_eq .., s.dev.powerRise_pwrGood⟩, ⟨_, onDev_eq .., s.dev.powerFall_pwrGood⟩, ⟨_, onDev_eq .., s.dev.resetAssert_resetN⟩,
    fun pref hpower => ⟨_, onDev_eq .., s.dev.resetRelease_resetN pref hpower⟩⟩
  case boots => exact ⟨_, onDev_devAt (·.scBoot h true true second) rfl, Dev.scBoot_boots hstart hreset hturn horder second⟩
  case fails => exact ⟨_, onDev_devAt (·.scBoot h false a b) rfl, Dev.scBoot_fails hstart hreset hturn a b⟩
  case wins =>
    refine ⟨_, onDev_devAt (·.elect h m) (Dev.elect_wins hmsg hkind hfrom hgood hdg hboot hst hgrant hreq hhealth hfirst), ?_⟩
    simp only [State.withDev, Dev.electNormal_lead, Dev.electNormal_portLead, Dev.electWon_get, Dev.onLead_get, and_self]
  case timeout => exact onDev_devAt (·.electTimeout h) (Dev.electTimeout_asks hsent hst hpeer hreq hgrant hlong)
  case trained => exact congrArg (finish s) (Wk.stackTraining_trained hstage hruns hup)
  case ready => exact ⟨_, rfl, Wk.baseline_readies failed hstage hruns⟩

end Sys2Proof.Machine
end

section
/-! PROOFS. The lease between the halves, its lapse, and split halt (R457 to R462, R464). -/

namespace Sys2Proof.Machine

open Sys2Proof

/-! ### What a kill leaves alone: the package state

One lemma per operation that ending an instance's nodes can reach, in the order of the model. -/

section
variable (w : Wk) (d : Dev)

@[simp] theorem Dev.foldl_top {α : Type} (l : List α) (f : Dev → α → Dev) (h : ∀ d x, (f d x).top = d.top) (d : Dev) :
    (l.foldl f d).top = d.top :=
  foldl_keeps Dev.top f h l d

@[simp] theorem Wk.foldl_top {α : Type} (l : List α) (f : Wk → α → Wk) (h : ∀ w x, (f w x).dev.top = w.dev.top) (w : Wk) :
    (l.foldl f w).dev.top = w.dev.top :=
  foldl_keeps (fun w : Wk => w.dev.top) f h l w

@[simp] theorem Dev.foldl_fst_top {α β : Type} (l : List α) (f : Dev × β → α → Dev × β) (h : ∀ db x, (f db x).1.top = db.1.top) (db : Dev × β) :
    (l.foldl f db).1.top = db.1.top :=
  foldl_keeps (fun db : Dev × β => db.1.top) f h l db

/-! ### Sending on the fabric -/

@[simp] theorem Dev.setPort_top (p : Nat) (x : FPort) : (d.setPort p x).top = d.top := rfl
@[simp] theorem Dev.sendFlit_top (p : Nat) (ctrl : Option Nat) (payload : List Byte) (ends : List Txn) :
    (d.sendFlit p ctrl payload ends).top = d.top := by
  simp [Dev.sendFlit]

@[simp] theorem Dev.sendMac_top (p : Nat) : (d.sendMac p).top = d.top := by simp [Dev.sendMac]
@[simp] theorem Dev.sendData_top (p : Nat) (payload : List Byte) (ends : List Txn) : (d.sendData p payload ends).top = d.top := by
  simp [Dev.sendData]

@[simp] theorem Dev.fillGroup_top (p : Nat) : (d.fillGroup p).top = d.top := by simp [Dev.fillGroup]
@[simp] theorem Dev.returnCredits_top (p : Nat) : (d.returnCredits p).top = d.top := by simp [Dev.returnCredits]
@[simp] theorem Dev.drain_top (p : Nat) : (d.drain p).top = d.top := by simp [Dev.drain]
@[simp] theorem Dev.enqueue_top (p : Nat) (t : Txn) : (d.enqueue p t).top = d.top := by simp [Dev.enqueue]
@[simp] theorem Dev.setDest_top (dest : Nat) (x : Dest) : (d.setDest dest x).top = d.top := rfl
@[simp] theorem Dev.sendOn_top (t : Txn) (s : Nat) : (d.sendOn t s).top = d.top := by simp [Dev.sendOn]
@[simp] theorem Dev.onLoop_top (t : Txn) : (d.onLoop t).top = d.top := rfl
@[simp] theorem Dev.sendAt_top (t : Txn) (s : Nat) : (d.sendAt t s).top = d.top := by simp [Dev.sendAt]
@[simp] theorem Dev.pumpHeld_top (dest : Nat) : (d.pumpHeld dest).top = d.top := by
  unfold Dev.pumpHeld
  refine Dev.foldl_fst_top _ _ (fun d seq => ?_) _
  dsimp only
  split
  · rfl
  · split <;> simp

@[simp] theorem Dev.pumpReads_top (dest : Nat) : (d.pumpReads dest).top = d.top := by
  unfold Dev.pumpReads
  refine Dev.foldl_top _ _ (fun _ _ => ?_) _
  dsimp only
  split
  · rfl
  · split <;> simp

@[simp] theorem Dev.pumpFences_top (dest : Nat) : (d.pumpFences dest).top = d.top := by
  unfold Dev.pumpFences
  refine Dev.foldl_top _ _ (fun d k => ?_) _
  dsimp only
  split
  · rfl
  · split
    · rfl
    · split <;> simp

@[simp] theorem Dev.pump_top (dest : Nat) : (d.pump dest).top = d.top := by simp [Dev.pump]
@[simp] theorem Dev.holdReq_top (t : Txn) (why : ReqFor) : (d.holdReq t why).top = d.top := by simp [Dev.holdReq]

/-! ### Frames of collectives -/

@[simp] theorem Dev.frameTo_top (h : Half) (k member : Nat) (f : CeFrame) : (d.frameTo h k member f).top = d.top := by
  unfold Dev.frameTo
  split <;> simp

/-! ### What an ended attempt gives up -/

@[simp] theorem Dev.untake_top (acts : List CommitAct) : (d.untake acts).top = d.top := by
  unfold Dev.untake
  refine Dev.foldl_top _ _ (fun _ _ => ?_) _
  split <;> simp

@[simp] theorem Dev.dropBitmaps_top (seq : Nat) : (d.dropBitmaps seq).top = d.top := rfl
@[simp] theorem Dev.endOps_top (seq i : Nat) : (d.endOps seq i).top = d.top := rfl
@[simp] theorem Dev.dropOp_top (id : Nat) : (d.dropOp id).top = d.top := rfl
@[simp] theorem Dev.withdraw_top (seq i : Nat) : (d.withdraw seq i).top = d.top := by
  unfold Dev.withdraw
  refine Dev.foldl_top _ _ (fun _ _ => ?_) _
  split <;> simp

@[simp] theorem Dev.fallIdle_top (f : Nat) : (d.fallIdle f).top = d.top := rfl
@[simp] theorem Dev.holdNs_top (seq i : Nat) : (d.holdNs seq i).top = d.top := by
  unfold Dev.holdNs
  refine Dev.foldl_top _ _ (fun d r => ?_) _
  dsimp only
  split
  · simp
  · split <;> simp

@[simp] theorem Dev.endFetch_top (seq i : Nat) : (d.endFetch seq i).top = d.top := rfl
@[simp] theorem Dev.dropFetches_top (seq : Nat) : (d.dropFetches seq).top = d.top := rfl
@[simp] theorem Dev.returnFreed_top : d.returnFreed.top = d.top := rfl
@[simp] theorem Dev.freeBuf_top (base : Nat) : (d.freeBuf base).top = d.top := by simp [Dev.freeBuf]
@[simp] theorem Dev.freeFor_top (job handle : Nat) : (d.freeFor job handle).1.top = d.top := by
  unfold Dev.freeFor
  split
  · rfl
  · simp [apply_ite Prod.fst]

@[simp] theorem Dev.freeNotices_top (l : List Notice) : (d.freeNotices l).top = d.top := by simp [Dev.freeNotices]
@[simp] theorem Dev.countIn_top (hs : List Half) (off : Nat) : (d.countIn hs off).top = d.top := by simp [Dev.countIn]
@[simp] theorem Dev.retireGen_top (job gen : Nat) : (d.retireGen job gen).top = d.top := by simp [Dev.retireGen]
@[simp] theorem Dev.combEnds_top (seq i : Nat) : (d.combEnds seq i).top = d.top := by
  unfold Dev.combEnds
  split <;> simp

@[simp] theorem Dev.retireInstGens_top (seq : Nat) : (d.retireInstGens seq).top = d.top := by simp [Dev.retireInstGens]
@[simp] theorem Dev.cutWaits_top (seq i : Nat) : (d.cutWaits seq i).top = d.top := by
  unfold Dev.cutWaits
  dsimp only
  refine (Dev.foldl_top _ _ (fun d r => ?_) _).trans (Dev.foldl_top _ _ (fun d r => ?_) _)
  · refine Dev.foldl_top _ _ (fun d h => ?_) _
    split <;> simp
  · split <;> simp

@[simp] theorem Wk.discard_top (seq i : Nat) : (w.discard seq i).dev.top = w.dev.top := by
  unfold Wk.discard
  split
  · rfl
  · split <;> simp

@[simp] theorem Dev.countKill_top (seq i : Nat) : (d.countKill seq i).top = d.top := by
  unfold Dev.countKill
  split
  · rfl
  · split <;> simp

/-! ### Ending nodes, instances and jobs -/

@[simp] theorem Dev.hand_top (fn r : Nat) (h : HeldRec) : (d.hand fn r h).top = d.top := by simp [Dev.hand]
@[simp] theorem Dev.handGraph_top (fn r : Nat) (bytes : List Byte) (irq : Bool) : (d.handGraph fn r bytes irq).top = d.top := by
  simp [Dev.handGraph]

@[simp] theorem Dev.setInst_top (seq : Nat) (x : Inst) : (d.setInst seq x).top = d.top := rfl
@[simp] theorem Dev.freeExch_top (seq : Nat) : (d.freeExch seq).top = d.top := rfl
@[simp] theorem Dev.closeNode_top (seq i status : Nat) : (d.closeNode seq i status).top = d.top := by
  unfold Dev.closeNode
  split
  · rfl
  · split <;> simp

@[simp] theorem Wk.combRetire_top (seq i : Nat) : (w.combRetire seq i).dev.top = w.dev.top := by
  unfold Wk.combRetire
  split
  · split
    · rfl
    · split
      · rfl
      · split <;> simp
  · rfl

@[simp] theorem Wk.closeNode_top (seq i status : Nat) : (w.closeNode seq i status).dev.top = w.dev.top := by simp [Wk.closeNode]
@[simp] theorem Dev.closeInst_top (seq : Nat) : (d.closeInst seq).top = d.top := by
  unfold Dev.closeInst
  split <;> simp

@[simp] theorem Wk.killAll_top (seq status : Nat) : (w.killAll seq status).dev.top = w.dev.top := by
  unfold Wk.killAll
  split
  · rfl
  · refine Wk.foldl_top _ _ (fun _ _ => ?_) _
    split <;> simp

@[simp] theorem Wk.haltFnsOf_top (h : Half) : (w.haltFnsOf h).dev.top = w.dev.top := by simp [Wk.haltFnsOf]

/-! ### Fencing doorbell pages (R19) -/

@[simp] theorem Dev.func_setFunc_same (fn : Nat) (x : Func) : (d.setFunc fn x).func fn = x := by
  simp [Dev.func, Dev.setFunc, aget_aput_same]

theorem Dev.func_setFunc_ne {fn k : Nat} (x : Func) (hne : fn ≠ k) : (d.setFunc k x).func fn = d.func fn := by
  simp [Dev.func, Dev.setFunc, aget_aput_ne _ _ hne]

/-- Fencing a list of functions leaves off the pages of each function of the list, and of each whose pages were off before. -/
theorem Dev.foldl_fence_off {fn : Nat} (l : List Nat) (d : Dev) (hoff : fn ∈ l ∨ (d.func fn).pagesOn = false) :
    ((l.foldl (fun d k => d.setFunc k { d.func k with pagesOn := false }) d).func fn).pagesOn = false := by
  induction l generalizing d with
  | nil => simpa using hoff
  | cons k l ih =>
    refine ih _ ?_
    by_cases hk : fn = k
    · subst hk
      exact .inr (by simp)
    · rw [Dev.func_setFunc_ne _ _ hk]
      exact hoff.imp_left fun hmem => (List.mem_cons.mp hmem).resolve_left hk

/-- The pages of a function that the test picks are off once fenced. -/
theorem Dev.fencePages_off {p : Nat → Bool} {fn : Nat} (hfn : fn ∈ allFns) (hp : p fn = true) : ((d.fencePages p).func fn).pagesOn = false :=
  Dev.foldl_fence_off _ d (.inl (List.mem_filter.mpr ⟨hfn, hp⟩))

/-- Which half carries a function is part of the package state. -/
theorem Dev.fnHalf_of_top {d e : Dev} (htop : d.top = e.top) (fn : Nat) : d.fnHalf fn = e.fnHalf fn := by
  simp [Dev.fnHalf, htop]

/-! ### A record of a stop (R544) -/

/-- An in-band interrupt changes of the package state the I3C targets alone. -/
theorem Dev.ibi_top (h : Half) (b : Nat) : ∃ i3c, (d.ibi h b).top = { d.top with i3c := i3c } := by
  simp only [Dev.ibi, Dev.onTop_top]
  split
  · exact ⟨_, rfl⟩
  · exact ⟨d.top.i3c, rfl⟩

/-- A record of a stop changes of the package state the flash and the I3C targets alone. -/
theorem Dev.logFatal_top (h : Half) (e : Event) : ∃ flash i3c, (d.logFatal h e).top = { d.top with flash := flash, i3c := i3c } := by
  simp only [Dev.logFatal]
  obtain ⟨i3c, htop⟩ := Dev.ibi_top _ h 2
  rw [htop, Dev.onTop_top]
  exact ⟨_, i3c, rfl⟩

theorem Dev.ibi_host (h : Half) (b : Nat) : (d.ibi h b).host = d.host := rfl

@[simp] theorem Dev.logFatal_host (h : Half) (e : Event) : (d.logFatal h e).host = d.host := by
  unfold Dev.logFatal
  exact (Dev.ibi_host ..).trans (Dev.onTop_host ..)

end

/-! ### The lease (R457) -/

section
variable {d : Dev} {h : Half} {m : List Byte} {term seq mark : Nat}

/-- A LEASE of its own TERM renews the shadow's view, which answers with LEASE_ECHO. -/
theorem Dev.lease_renews (hmsg : parseBridge m = some (term, seq, mark)) (hst : (d.top.lead.get h).st = .normal)
    (hterm : term = (d.top.lead.get h).term) (hshadow : (d.top.lead.get h).lead ≠ h) :
    d.lease h m = (d.onLead h fun v => { v with lastValid := d.time, seenSeq := seq, seenMark := mark }).emit
      (.bridge h (bridgeMsg term seq d.tgu.ackedCommits)) := by
  simp only [Dev.lease, hmsg, if_pos (And.intro hst (And.intro hshadow hterm))]

/-- A LEASE_ECHO of its own TERM renews the lead's view. -/
theorem Dev.leaseEcho_renews (hmsg : parseBridge m = some (term, seq, mark)) (hst : (d.top.lead.get h).st = .normal)
    (hterm : term = (d.top.lead.get h).term) (hlead : (d.top.lead.get h).lead = h) :
    d.leaseEcho h m = d.onLead h fun v => { v with lastValid := d.time, seenSeq := seq, seenMark := mark } := by
  simp only [Dev.leaseEcho, hmsg, if_pos (And.intro hst (And.intro hlead hterm))]

/-- A lease message that is damaged or of another TERM changes nothing. -/
theorem Dev.lease_ignores (hbad : parseBridge m = none ∨ (parseBridge m = some (term, seq, mark) ∧ term ≠ (d.top.lead.get h).term)) :
    d.lease h m = d ∧ d.leaseEcho h m = d := by
  rcases hbad with hmsg | ⟨hmsg, hterm⟩
  · simp [Dev.lease, Dev.leaseEcho, hmsg]
  · simp [Dev.lease, Dev.leaseEcho, hmsg, hterm]

/-- The lead sends the next LEASE once 100 µs have passed. -/
theorem Dev.leaseRenew_sends (hlead : d.leadOf = some h) (hst : (d.top.lead.get h).st = .normal)
    (hdue : ∀ t, (d.top.lead.get h).leaseAt = some t → t + 100000 ≤ d.time) :
    d.leaseRenew = (d.emit (.bridge h (bridgeMsg (d.top.lead.get h).term (d.top.lead.get h).leaseSeq d.tgu.commits))).onLead h fun v =>
      { v with leaseAt := some d.time, leaseSeq := (v.leaseSeq + 1) % 2 ^ 32 } := by
  simp only [Dev.leaseRenew, hlead, hst, true_and]
  split
  next t hat => exact if_pos rfl
  next t hat => exact if_pos (decide_eq_true (hdue t hat))

/-! ### Lapse (R459) -/

/-- A half that has heard nothing valid for 2 ms asks the BMC and waits. -/
theorem Dev.leaseLapse_asks (hst : (d.top.lead.get h).st = .normal) (hlong : (d.top.lead.get h).lastValid + 2000000 ≤ d.time) :
    d.leaseLapse h = ((d.onLead h fun v => { v with st := .lapsed, lapseAt := some d.time }).leadRequest h
      (if (d.top.lead.get h).lead = h then 1 else 2)).onLead h fun v => { v with st := .confirming } :=
  if_pos ⟨hst, hlong⟩

/-- A half that waits for the BMC asks again after 20 ms. -/
theorem Dev.requestResend_asks {t : Nat} (hat : (d.top.lead.get h).reqAt = some t) (hst : (d.top.lead.get h).st = .confirming)
    (hkind : (d.top.lead.get h).reqKind ≠ 0) (hbmc : (d.top.lead.get h).bmc = 0) (hlong : t + 20000000 ≤ d.time) :
    d.requestResend h = d.leadRequest h (d.top.lead.get h).reqKind := by
  simp only [Dev.requestResend, hat]
  exact if_pos ⟨.inl hst, hkind, hbmc, hlong⟩

end

/-! ### Split halt (R462) -/

/-- The device once a half has entered SPLIT_HALT, before the record of it is written. -/
def Dev.splitHalted (d : Dev) (h : Half) : Dev :=
  (d.onLead h fun v => { v with st := .splitHalt, bmc := 3 }).onTop fun t =>
    { t with faultN := true, fatal := ⟨true, 0, 5, 0x3F⟩, ready := t.ready && decide ((t.lead.get h.other).st = .degraded),
             stage := if (t.lead.get h.other).st = .degraded then t.stage else .stopped,
             stopped := t.stopped || !(t.lead.get h.other).st.alive }

/-- A half that still waits 100 ms after its lapse kills, fences and enters SPLIT_HALT. -/
theorem Wk.splitHalt_halts {w : Wk} {h : Half} {t : Nat} (hat : (w.dev.top.lead.get h).lapseAt = some t)
    (hst : (w.dev.top.lead.get h).st = .confirming ∨ (w.dev.top.lead.get h).st = .electing) (hlong : t + 100000000 ≤ w.dev.time) :
    (w.splitHalt h).dev =
      ((((w.haltFnsOf h).dev.fencePages fun fn => (w.haltFnsOf h).dev.fnHalf fn = some h).splitHalted h).logFatal h { kind := 1, cls := 4 }) := by
  simp only [Wk.splitHalt, hat, if_pos (And.intro hst hlong)]
  rfl

/-- What SPLIT_HALT leaves of the device: its state, its fault pin and fatal status, and, unless the other half goes on alone, no READY. -/
theorem Dev.splitHalted_stops (d : Dev) (h : Half) :
    ((d.splitHalted h).top.lead.get h).st = .splitHalt ∧ ((d.splitHalted h).top.lead.get h).bmc = 3 ∧ (d.splitHalted h).top.faultN = true
      ∧ (d.splitHalted h).top.fatal = ⟨true, 0, 5, 0x3F⟩
      ∧ ((d.top.lead.get h.other).st ≠ .degraded → (d.splitHalted h).top.ready = false ∧ (d.splitHalted h).top.stage = .stopped) := by
  refine ⟨by simp [Dev.splitHalted, Dev.onLead], by simp [Dev.splitHalted, Dev.onLead], rfl, rfl, fun hother => ?_⟩
  simp [Dev.splitHalted, hother]

/-- After SPLIT_HALT the half is in its state, the pages of the functions it carries are fenced, and the stop shows on the pins and in
TOP_FATAL_STATUS. -/
theorem Wk.splitHalt_stops {w : Wk} {h : Half} {t : Nat} (hat : (w.dev.top.lead.get h).lapseAt = some t)
    (hst : (w.dev.top.lead.get h).st = .confirming ∨ (w.dev.top.lead.get h).st = .electing) (hlong : t + 100000000 ≤ w.dev.time) :
    ((w.splitHalt h).dev.top.lead.get h).st = .splitHalt ∧ ((w.splitHalt h).dev.top.lead.get h).bmc = 3
      ∧ (∀ fn ∈ allFns, w.dev.fnHalf fn = some h → ((w.splitHalt h).dev.func fn).pagesOn = false)
      ∧ (w.splitHalt h).dev.top.faultN = true ∧ (w.splitHalt h).dev.top.fatal = ⟨true, 0, 5, 0x3F⟩
      ∧ (((w.splitHalt h).dev.top.lead.get h.other).st ≠ .degraded →
          (w.splitHalt h).dev.top.ready = false ∧ (w.splitHalt h).dev.top.stage = .stopped) := by
  rw [Wk.splitHalt_halts hat hst hlong]
  set f := (w.haltFnsOf h).dev.fencePages fun fn => (w.haltFnsOf h).dev.fnHalf fn = some h
  obtain ⟨hsplit, hbmc, hfault, hfatal, hready⟩ := f.splitHalted_stops h
  obtain ⟨flash, i3c, htop⟩ := (f.splitHalted h).logFatal_top h { kind := 1, cls := 4 }
  rw [htop]
  refine ⟨hsplit, hbmc, fun fn hfn hcarried => ?_, hfault, hfatal, fun hother => hready ?_⟩
  · have hpicked : (w.haltFnsOf h).dev.fnHalf fn = some h := (Dev.fnHalf_of_top (w.haltFnsOf_top h) fn).trans hcarried
    rw [Dev.func, Dev.logFatal_host]
    exact Dev.fencePages_off _ hfn (decide_eq_true hpicked)
  · simpa [Dev.splitHalted] using hother

/-- Settles O37: the lease's messages and timers are each one change of a half's view; split halt kills first, which leaves the package
state alone, so that the pages fenced are those of the functions its port carries. -/
theorem leaseKeepsTheLead : Obligations.LeaseKeepsTheLead := by
  unfold Obligations.LeaseKeepsTheLead
  refine ⟨fun s h m now term seq mark => ⟨fun hmsg hst hterm => ⟨fun hshadow => ?lease, fun hlead => ?echo⟩, fun hbad => ⟨?badLease, ?badEcho⟩,
    fun hlead hst hdue => ?renewal, fun hst hlong => ?lapse, fun t hat hst hkind hbmc hlong => ?resend⟩, fun s h now t hat hst hlong => ?split⟩
  case lease => exact onDev_devAt (·.lease h m) (Dev.lease_renews hmsg hst hterm hshadow)
  case echo => exact onDev_devAt (·.leaseEcho h m) (Dev.leaseEcho_renews hmsg hst hterm hlead)
  case badLease => exact onDev_devAt (·.lease h m) (Dev.lease_ignores hbad).1
  case badEcho => exact onDev_devAt (·.leaseEcho h m) (Dev.lease_ignores hbad).2
  case renewal => exact onDev_devAt (·.leaseRenew) (Dev.leaseRenew_sends hlead hst hdue)
  case lapse => exact onDev_devAt (·.leaseLapse h) (Dev.leaseLapse_asks hst hlong)
  case resend => exact onDev_devAt (·.requestResend h) (Dev.requestResend_asks hat hst hkind hbmc hlong)
  case split => exact ⟨_, rfl, Wk.splitHalt_stops hat hst hlong⟩

end Sys2Proof.Machine
end
